-- ==== Sys2Proof/Word.lean ====
section
/-! DEFINITION. The word types of the spec (R5, R12), bit fields of a register, and the plainest arithmetic on them. -/

namespace Sys2Proof

/-- A management register is 32 bits wide (R12). -/
abbrev Word := BitVec 32

/-- One byte. -/
abbrev Byte := BitVec 8

/-- A line-count position: 48-bit unsigned, wrapping (R7). -/
abbrev Pos := BitVec 48

/-- A sequence of bytes, byte 0 first (R5). -/
abbrev Bytes := List Byte

/-- A bit field of a register: `width` bits from bit `lo` (R5). -/
structure Field where
  lo : Nat
  width : Nat
  deriving DecidableEq, Repr

/-- The value of field `f` in word `w`. -/
def Field.get (f : Field) (w : Word) : Nat := w.toNat / 2 ^ f.lo % 2 ^ f.width

/-- Word `w` with field `f` holding `v` modulo 2^width; every other bit as before. -/
def Field.set (f : Field) (w : Word) (v : Nat) : Word :=
  BitVec.ofNat 32
    (w.toNat % 2 ^ f.lo + (v % 2 ^ f.width) * 2 ^ f.lo
      + w.toNat / 2 ^ (f.lo + f.width) * 2 ^ (f.lo + f.width))

/-- A count register that stops at 0xFFFF_FFFF (R17). -/
def satInc (w : Word) (n : Nat) : Word := BitVec.ofNat 32 (min (w.toNat + n) 0xFFFFFFFF)

/-- Position `p` is at or after position `q` (R7). -/
def Pos.atOrAfter (p q : Pos) : Bool := (p - q).toNat < 2 ^ 47

/-- Little-endian bytes of `v`, `n` of them (R5). -/
def leBytes : Nat → Nat → Bytes
  | 0, _ => []
  | n + 1, v => BitVec.ofNat 8 v :: leBytes n (v / 256)

/-- The number that little-endian bytes spell (R5). -/
def leNat : Bytes → Nat
  | [] => 0
  | b :: bs => b.toNat + 256 * leNat bs

/-- Bytes `off` to `off + n - 1`, zero where the list has ended. -/
def takeAt (bs : Bytes) (off n : Nat) : Bytes :=
  let t := (bs.drop off).take n
  t ++ List.replicate (n - t.length) 0

/-- The little-endian number of `n` bytes at offset `off`. -/
def leAt (bs : Bytes) (off n : Nat) : Nat := leNat (takeAt bs off n)

/-- A signed value of `n` bits from its unsigned pattern. -/
def sext (n v : Nat) : Int := if 2 * v < 2 ^ n then (v : Int) else (v : Int) - 2 ^ n

/-- The pattern of a signed value in `n` bits. -/
def ofInt (n : Nat) (i : Int) : Nat := (i % (2 ^ n : Int)).toNat

/-- Bit `i` of a number. -/
def bit (v i : Nat) : Bool := v / 2 ^ i % 2 == 1

/-- 1 for true. -/
def b2n (b : Bool) : Nat := if b then 1 else 0

/-- Rounding up division. -/
def ceilDiv (a b : Nat) : Nat := (a + b - 1) / b

/-- A rational `n / d` (`d > 0`) rounded to the nearest integer, ties to even. -/
def rneDiv (n : Int) (d : Nat) : Int :=
  let q := n / (d : Int)
  let r := n % (d : Int)
  if 2 * r < d then q else if 2 * r > d then q + 1 else if q % 2 = 0 then q else q + 1

/-- Clamp an integer into `lo` to `hi`. -/
def clampI (lo hi x : Int) : Int := if x < lo then lo else if hi < x then hi else x

end Sys2Proof
end

