-- ==== Sys2Proof/Syntax.lean ====
section
/-! DEFINITION. The commands of the block: one constructor of `Instr` per row of spec/opcode_table.json, and the operand
types they carry. A row names a host access, a firmware register write, a frame or pin event, a measured value that an
analogue or external part delivers, or an event of the block's own engines; its operands are what the spec leaves to the
sender or to the analogue world. Indexes are `Fin` types, so no command names a unit that the spec does not have. -/

namespace Sys2Proof

/-- Matrix core MC0 to MC15 (R25). -/
abbrev CoreIx := Fin 16
/-- Tile T0 to T67 of a core (R26). -/
abbrev TileIx := Fin 68
/-- Context index (R286). -/
abbrev CtxIx := Fin 64
/-- Lane index (R303). -/
abbrev LaneIx := Fin 64
/-- Port index: 0 to 3 SP, 4 and 5 PP, 6 and 7 AP (R330). -/
abbrev PortIx := Fin 8
/-- Encoder (R297). -/
abbrev EncIx := Fin 2
/-- Monitor converter: 0 A, 1 B (R357). -/
abbrev ConvIx := Fin 2
/-- Switched power domain (R378). -/
abbrev DomIx := Fin 70
/-- Engine of a core: 0 fetch, 1 tile-issue, 2 vector, 3 state, 4 store, 5 programming, 6 mesh port, 7 reserved (R400). -/
abbrev EngIx := Fin 8

/-- Who writes a register: host software through the window, or firmware (R13, R477). -/
inductive Writer where
  | host
  | firmware
  deriving DecidableEq, Repr

/-- A register write of row REGISTER_WRITE. A host write is an F1 transaction of bytes, at one address (`fixed`) or at
incrementing addresses (R476); a firmware write is one whole word (R12). -/
inductive RegWrite where
  | host (addr : BitVec 17) (fixed : Bool) (data : Bytes)
  | firmware (addr : BitVec 24) (value : Word)
  deriving DecidableEq, Repr

/-- The W1C status registers of the map (R17). -/
inductive StatusReg where
  | til (c : CoreIx) (t : TileIx)
  | cal (c : CoreIx)
  | vec (c : CoreIx)
  | acc (c : CoreIx)
  | stk
  | dsp
  | dspCx (x : CtxIx)
  | lck
  | lckLane (l : LaneIx)
  | act
  | prt (p : PortIx)
  | mon
  | pwr
  | thm
  | flt
  | fltHost
  | pst
  | sdmHost
  deriving DecidableEq, Repr

/-- The registers whose read captures a `_HI` partner (R328, R424). -/
inductive LoReg where
  | pos0
  | pos1
  | fltTime
  deriving DecidableEq, Repr

/-- An F2 data transfer (R483). -/
inductive F2Op where
  | write (data : Bytes)
  | read (n : Nat)
  deriving DecidableEq, Repr

/-- The 16 B frame header (R337). -/
structure FrameHdr where
  type : Byte
  flags : Byte
  stream : Byte
  rsv3 : Byte
  len : BitVec 16
  seq : BitVec 16
  stamp : Pos
  rsv14 : BitVec 16
  deriving DecidableEq, Repr

/-- The 8 B peer extension (R337). -/
structure PeerExt where
  dest : Byte
  src : Byte
  hop : Byte
  ctx : Byte
  gen : BitVec 4
  deriving DecidableEq, Repr

/-- A received frame (R337): header, peer extension, payload, whether a 66-bit block of it was invalid (R339), and, on a
message's last frame, the check value that followed its payload (R340). -/
structure Frame where
  hdr : FrameHdr
  ext : Option PeerExt
  payload : Bytes
  badBlock : Bool
  cv : Option Nat
  deriving DecidableEq, Repr

/-- Contents of FOLIO_OFFER (R263). -/
structure OfferMsg where
  call : BitVec 24
  layoutHash : Bytes
  positions : Nat
  dataLen : Nat
  shelf : Fin 64
  deriving DecidableEq, Repr

/-- A number format code of R143. -/
inductive Fmt where
  | uint8 | uint12 | int4 | int8 | int16 | int32
  | fp16 | bf16 | fp32 | e4m3 | e5m2 | mx4 | b4 | b3 | s8 | w6
  deriving DecidableEq, Repr

/-- Row-wise operations (R184). -/
inductive RowOp where
  | softmax
  | layerNorm (gamma beta : List Word) (eps : Word)
  | rmsNorm (gamma : List Word) (eps : Word)
  deriving DecidableEq, Repr

/-- What a tracking task does for its token's strip (R29, R239 to R247, R277). -/
inductive TrackAct where
  /-- The strip holds no object (R277). -/
  | noObject
  /-- Segmentation reports a new object (R239, R305): first-line stamp and lateral extent. -/
  | newObject (pLead : Pos) (xMin xMax : Nat)
  /-- The token belongs to the object with this call number: it takes the next position (R240). -/
  | token (call : BitVec 24)
  /-- A later sighting is joined to a live folio (R247). -/
  | join (call : BitVec 24) (pLead : Pos) (xMin xMax : Nat)
  /-- The object's trailing edge passed at this position (R244). -/
  | close (call : BitVec 24) (pTrail : Pos)
  deriving DecidableEq, Repr

/-- One key or value group of an append: 64 rotated FP32 values (R159). -/
abbrev KvGroup := List Word

/-- One column's epilogue parameters: its null flag, column scale (FP16), bias (FP32 after exact widening) (R181). -/
structure EpiCol where
  null : Bool
  scale : BitVec 16
  bias : Word
  deriving DecidableEq, Repr

/-- One query row of an attention task (R250, R283): its object and head as the pointer list names them, its row index,
its 64 rotated values, and the scratchpad offset of its output. -/
structure AttRow where
  call : BitVec 24
  head : Fin 16
  row : Fin 16
  q : List Word
  dst : Nat
  deriving DecidableEq, Repr

/-- What the engine computed for the instance that completes (R272 and the steps listed within INSTANCE_COMPLETE).
The catalogue's operation codes are kind-specific and the spec lists none, so the operation and its operands come with
the command. `dst` is the scratchpad offset of the result in the instance's core. -/
inductive InstOp where
  /-- SOURCE, SYNC, MVM, XFER: nothing is written beyond the completion. -/
  | plain
  /-- A crossbar input vector is ranged (R164 to R166) and queued on the tiles of its reduction. -/
  | ranging (x : List Word) (int8 : Bool) (dst : Nat)
  /-- The entries of one reduction are combined (R175). -/
  | combine (entries : List (Fin 1024))
  /-- The epilogue of a combined entry (R181), of a zero vector (`entry = none`, R182) or of a NaN vector. -/
  | epilogue (entry : Option (Fin 1024)) (nanInput : Bool) (cols : List EpiCol) (dst : Nat)
  | rowWise (op : RowOp) (row : List Word) (dst : Nat)
  | topK (fmt : Fmt) (row : List Word) (k : Nat) (dst : Nat)
  /-- Rotation of a vector by H_b / √b, b = 64, 256 or 1,024 (R154 to R156). -/
  | rotate (b : Nat) (x : List Word) (dst : Nat)
  /-- A STORE instance appends its token's entry at its state layer (R249): key and value group of each named head. -/
  | append (heads : List (Nat × KvGroup × KvGroup))
  /-- A STATE instance: one query row of one head over its positions (R250 to R253). -/
  | attention (rows : List AttRow)
  | tracking (acts : List TrackAct)
  /-- A tracking task asks to hand a closed folio to a mapped peer target (R262). -/
  | handOver (call : BitVec 24) (entry : Fin 16)
  deriving DecidableEq, Repr

/-- The result of one column conversion of a slice (R53, R54): the code, and the window comparator's flag. -/
structure ColCode where
  col : Fin 512
  code : Int
  ovr : Bool
  deriving DecidableEq, Repr

/-- One pip's measured value (in u) in a slice, and whether its conversion over-ranged (R63). -/
structure PipCode where
  pip : Fin 16
  value : Int
  ovr : Bool
  deriving DecidableEq, Repr

/-- What a Stacks request answered (R257, R258). -/
inductive EccResult where
  | ok
  | corrected (n : Nat)
  | uncorrectable
  deriving DecidableEq, Repr

/-- An event slot written by firmware (R318). -/
structure EventSpec where
  enc : EncIx
  pos1 : Pos
  /-- Second position, or none for a fixed width. -/
  pos2 : Option Pos
  /-- Fixed width in 0.1 µs units. -/
  width : Nat
  gpio : BitVec 16
  dacLoad : Bool
  irqTag : Option Byte
  deriving DecidableEq, Repr

/-- One top-k entry (R187). -/
structure TopEntry where
  value : Word
  pos : BitVec 16
  deriving DecidableEq, Repr

/-- The trims a completed gap task or calibration found (R112, R134): (trim index, is-gain field, value). -/
structure TrimVal where
  index : Fin 533
  gain : Bool
  value : Nat
  deriving DecidableEq, Repr

/-- What a tile's calibration measured (R129, R137). -/
structure CalResult where
  factoryOk : Bool
  pipsOk : Bool
  fallback : Bool
  trims : List TrimVal
  clamped : Bool
  sigOk : Bool
  nWeak : Nat
  /-- Fidelity estimate, 0.25 dB units. -/
  fid : BitVec 10
  deriving DecidableEq, Repr

/-- Outcome of a margin read (R468). -/
inductive MarginResult where
  | clean
  | weakData
  | weakUnary
  | weakBase
  deriving DecidableEq, Repr

/-- A debug access (R449, R451). -/
inductive DbgOp where
  | read (addr : BitVec 24)
  | write (addr : BitVec 24) (value : Word)
  | halt (core : Fin 4)
  | resume (core : Fin 4)
  deriving DecidableEq, Repr

/-- VREF_MON at PORST_N deassertion (R500). -/
inductive VrefMode where
  | internal
  | external
  | invalid
  deriving DecidableEq, Repr

/-- The commands: one constructor per row of spec/opcode_table.json, in its order. -/
inductive Instr where
  | getStatus (tag : BitVec 16) (params : Bytes) (f2len : Nat)
  | readLog (tag : BitVec 16) (params : Bytes) (f2len : Nat)
  | readCounters (tag : BitVec 16) (params : Bytes) (f2len : Nat)
  | attest (tag : BitVec 16) (params : Bytes) (f2len : Nat)
  | loadPackage (tag : BitVec 16) (params : Bytes) (f2len : Nat)
  | programModel (tag : BitVec 16) (params : Bytes) (f2len : Nat)
  | setGraft (tag : BitVec 16) (params : Bytes) (f2len : Nat)
  | startLine (tag : BitVec 16) (params : Bytes) (f2len : Nat)
  | stopLine (tag : BitVec 16) (params : Bytes) (f2len : Nat)
  | fenceCore (tag : BitVec 16) (params : Bytes) (f2len : Nat)
  | flashWrite (tag : BitVec 16) (params : Bytes) (f2len : Nat)
  | reboot (tag : BitVec 16) (params : Bytes) (f2len : Nat)
  | replyDone
  | rebootTimeout
  | finalReply
  | f2Abort
  | f2Transfer (op : F2Op)
  | registerWrite (w : RegWrite)
  | readLatchCapture (addr : BitVec 17)
  | loReadCapture (r : LoReg)
  | cmd5
  | cmd11
  | cmd19
  /-- `setNow` are the bits that the hardware sets in the same cycle (R18). -/
  | statusBitClear (r : StatusReg) (mask setNow : Word) (who : Writer)
  | tilCtrlWrite (c : CoreIx) (t : TileIx) (value : Word)
  | testStart (c : CoreIx) (value : Word)
  /-- The codes of every MVM of the test, one list per repetition. -/
  | testComplete (c : CoreIx) (reps : List (List Int))
  | commit (c : CoreIx) (t : TileIx)
  | shadowWrite (c : CoreIx) (value : Word)
  | hwClr (c : CoreIx)
  | lwClr
  | teardown (x : CtxIx)
  | teardownDeferred (x : CtxIx)
  | suspend (x : CtxIx)
  | save (x : CtxIx)
  | resume (x : CtxIx)
  | safe
  | release
  | loadStrobe
  | dacRun (run : Byte)
  | softTrig (x : ConvIx)
  | urgent (x : ConvIx)
  | selfcal (x : ConvIx)
  /-- The nine raw zero results and the nine raw reference results of R371. -/
  | selfcalDone (x : ConvIx) (zeros refs : List Int)
  /-- `set` 0 is firmware's, 1 the host's; `value` is the word written to MON_SNAP_SEL. -/
  | snap (set : Fin 2) (value : Word)
  | monCvCtrlWrite (x : ConvIx) (value : Word)
  | pwrLock
  | thmLock
  | secLock
  | pop
  | domainWakeRequest (d : DomIx)
  | domainGate (d : DomIx)
  | domainWakeStart
  | domainAwake (d : DomIx)
  | domainWakeFail (d : DomIx)
  | dispEn
  | loadStepAck
  | loadStepTimeout
  | loadStepReqDeassert
  | slewRecover
  /-- `opening`: the write lands in the cycle in which a first flag opens the stream (R342). -/
  | cvSlotWrite (p : PortIx) (value : Word) (opening : Bool)
  | portEnable (p : PortIx)
  | portDisable (p : PortIx)
  | eventSlotWrite (e : EventSpec)
  /-- The accepted levels of A and B after the filter (R297). -/
  | encoderCount (e : EncIx) (a b : Bool)
  | indexEdge (e : EncIx)
  | velocityUpdate (e : EncIx)
  | encoderStopped (e : EncIx)
  | cutoffCrossing (slot : Fin 4096)
  | scheduledOutput (slot : Fin 4096)
  | pulseWidthEnd (slot : Fin 4096)
  | widthCut (slot : Fin 4096)
  | sync (e : EncIx)
  | syncHeartbeat (e : EncIx)
  /-- The time since the previous rising edge, in 10 ns units. -/
  | mainsEdge (period : Nat)
  | mainsLost
  | decide (inst : Nat) (isFloat : Bool) (top : List TopEntry)
  | fireRateRelease (ap : Fin 2)
  | blockLock (p : PortIx)
  | trainTimeout (p : PortIx)
  | lanesDeskewed (p : PortIx)
  | alignTimeout (p : PortIx)
  | accession (p : PortIx) (f : Frame)
  | accessionRepeat (p : PortIx)
  | accessionAck (p : PortIx) (f : Frame)
  | discoverTimeout (p : PortIx)
  | refusedTimeout (p : PortIx)
  /-- The receive lanes that still hold block lock. -/
  | blockLockLost (p : PortIx) (lanesUp : Byte)
  | keepTimeout (p : PortIx)
  | detach (p : PortIx) (f : Frame)
  | keepalive (p : PortIx)
  | line (p : PortIx) (f : Frame)
  | headStatus (p : PortIx) (f : Frame)
  | status (p : PortIx) (f : Frame)
  | folioOffer (p : PortIx) (f : Frame) (m : OfferMsg)
  | folioAccept (p : PortIx) (f : Frame) (newCall : BitVec 24)
  | folioRefuse (p : PortIx) (f : Frame) (code : BitVec 16)
  | folioData (p : PortIx) (f : Frame) (off : Nat) (data : Bytes)
  | folioDone (p : PortIx) (f : Frame) (count : Nat) (hash : Bytes)
  | folioAck (p : PortIx) (f : Frame) (newCall : BitVec 24)
  | xferTimeout (entry : Nat)
  | heartbeat (p : PortIx) (f : Frame)
  | heartbeatPeriod
  | hbMiss (member : Fin 8)
  | fenceNotice (p : PortIx) (f : Frame)
  | fmReturn
  | instanceRelease (c : CoreIx) (e : EngIx)
  | instanceComplete (inst : Nat) (op : InstOp)
  | gatherWait (x : CtxIx) (stateOp copy : Nat)
  | taskTimeout (inst : Nat)
  | mvmCycleBoundary
  /-- Codes of the columns and pips that the window delivered for the tile's oldest incomplete slice. -/
  | sliceComplete (c : CoreIx) (t : TileIx) (cols : List ColCode) (pips : List PipCode)
  | stepRise (c : CoreIx) (t : TileIx)
  | pipWindowClose (c : CoreIx) (t : TileIx)
  | epochMinWait (c : CoreIx) (t : TileIx)
  | epochBoundary (c : CoreIx) (t : TileIx)
  | forcedGap (c : CoreIx) (t : TileIx)
  | feedForward (c : CoreIx)
  | calEpochMax (c : CoreIx) (t : TileIx)
  | offsetUpdate (c : CoreIx) (t : TileIx)
  | referenceSweep (c : CoreIx) (t : TileIx)
  | gainSweep (c : CoreIx) (t : TileIx)
  | gapTaskComplete (c : CoreIx) (t : TileIx) (trims : List TrimVal) (clamped : Bool)
  /-- An entry header (R169) and its partials, arriving at a core. -/
  | meshPartialArrival (dst : CoreIx) (hdr : BitVec 64) (partials : List Int)
  | stacksRequestComplete (req : Nat) (r : EccResult)
  | stacksRequestTimeout (req : Nat)
  | patrolScrub (page : BitVec 20) (r : EccResult)
  | folioReleaseDue (call : BitVec 24)
  | folioForceClose (call : BitVec 24)
  | pageReturn
  | teardownComplete (x : CtxIx)
  | teardownTimeout (x : CtxIx)
  | sampleCopyEnd (c : CoreIx) (e : EngIx)
  | sampleCopyTimeout (c : CoreIx) (e : EngIx)
  | engineResetDone (c : CoreIx) (e : EngIx)
  | engineResetTimeout (c : CoreIx) (e : EngIx)
  | coreWake (c : CoreIx)
  | coreReturn (c : CoreIx) (ok : Bool)
  | fenceComplete (c : CoreIx)
  | fenceTimeout (c : CoreIx)
  | watchdogKick (cc : Fin 4)
  | watchdogExpiry (cc : Fin 4)
  | resetN
  | warmReset
  | faultReport (source : BitVec 16) (code : BitVec 16) (reporter : Byte) (detail : Word)
  | recordClose
  | logFlushTimeout
  /-- The 68 readings after the factory offset, 1/64 °C. -/
  | temperatureConversion (readings : List Int)
  | throttleEscalate
  | throttleLower
  | hardTrip (sensor : Fin 68) (reading : Int)
  /-- The 10 ms mean, in 10 mW units. -/
  | powerEstimate (mean : BitVec 16)
  | powerLimitEnd
  | orderlyStopDrain
  | stopComplete
  | idleStandby
  | railWaitTimeout
  /-- TRIG pin and whether the accepted edge rises. -/
  | monTrigger (pin : Fin 4) (rising : Bool)
  /-- Raw filter output and the modulator's overload flag. -/
  | conversionResult (x : ConvIx) (raw : Int) (overload : Bool)
  | sequenceDelay (x : ConvIx)
  | crossCheck
  | tileCalibrated (c : CoreIx) (t : TileIx) (r : CalResult)
  | calibrationComplete
  | archiveSlotLoad (slot : Fin 1024) (fieldsOk hashOk imageHashOk : Bool)
  | cacheWrite
  | refreshStart
  | pumpAdmission
  /-- A batch of the tile's pass ended with this many cells outside the window. -/
  | batchComplete (c : CoreIx) (t : TileIx) (failed : Nat)
  | settleAndReverify (c : CoreIx) (t : TileIx)
  | mappingSwitch (c : CoreIx) (t : TileIx)
  | pageWriteStart
  /-- Whether the read-back check passed. -/
  | pageWriteEnd (ok : Bool)
  | counterIncrement (c : Fin 6)
  | poweredHour
  | marginRead (r : MarginResult)
  | porstN (vref : VrefMode)
  /-- The channels that failed training. -/
  | hbmTrainingComplete (failed : BitVec 64)
  | vddAonLoss
  | powerFailure
  | tapReset
  | extest
  | idcode
  | samplePreload
  | dbgChallenge
  | dbgCert (cert : Bytes)
  | dbgAccess (op : DbgOp)
  | bypass
  | powerOn
  | loadStepAckDeassert
  | cccrWrite (addr : BitVec 17) (value : Byte)
  | f2DataReady
  | keepaliveReceived (p : PortIx) (f : Frame)
  deriving DecidableEq, Repr

end Sys2Proof
end

