-- ==== Sys2Proof/Decode.lean ====
section
/-! DEFINITION. The decoder of table words. No row of spec/opcode_table.json gives its command bits. -/

namespace Sys2Proof

/-- The command that a word of `nbits` bits spells: none, as the table gives no command an encoding.
DESIGN CHOICE, assumption 2. -/
def decodeTableWord (_nbits _w : Nat) : Option Instr := none

end Sys2Proof
end

