-- ==== Sys2Proof/Machine/Tab.lean ====
section
/-! DEFINITION. Sparse data by key: a list of key and value pairs in one canonical form, keys strictly rising. -/

namespace Sys2Proof.Machine

/-- A sparse table. -/
abbrev Tab (α : Type) := List (Nat × α)

/-- The value at key `k`, if the table lists one. -/
def Tab.get? {α : Type} : Tab α → Nat → Option α
  | [], _ => none
  | (j, v) :: t, k => if k = j then some v else Tab.get? t k

/-- The table with key `k` listed at value `v`. -/
def Tab.put {α : Type} : Tab α → Nat → α → Tab α
  | [], k, v => [(k, v)]
  | (j, w) :: t, k, v =>
    if k < j then (k, v) :: (j, w) :: t else if k = j then (k, v) :: t else (j, w) :: Tab.put t k v

/-- The table with key `k` not listed. -/
def Tab.del {α : Type} : Tab α → Nat → Tab α
  | [], _ => []
  | (j, w) :: t, k => if k = j then Tab.del t k else (j, w) :: Tab.del t k

/-- The value at `k`, or `d` where none is listed. -/
def Tab.getD {α : Type} (t : Tab α) (k : Nat) (d : α) : α := (t.get? k).getD d

/-- The table in which `k` reads `v` when an unlisted key reads `d`: the entry is dropped when `v` is `d`. -/
def Tab.set {α : Type} [DecidableEq α] (t : Tab α) (k : Nat) (v d : α) : Tab α :=
  if v = d then t.del k else t.put k v

/-- The keys rise strictly. -/
def Tab.sorted {α : Type} : Tab α → Bool
  | [] => true
  | [_] => true
  | (j, _) :: (k, v) :: t => decide (j < k) && Tab.sorted ((k, v) :: t)

/-- No listed entry equals what an unlisted key reads as. -/
def Tab.noDefault {α : Type} [DecidableEq α] (dflt : Nat → α) (t : Tab α) : Bool :=
  t.all (fun e => decide (e.2 ≠ dflt e.1))

/-- The canonical form: rising keys, no default entry. -/
def Tab.canon {α : Type} [DecidableEq α] (dflt : Nat → α) (t : Tab α) : Bool :=
  Tab.sorted t && Tab.noDefault dflt t

/-- The table with the value at `k` changed by `f`, if listed. -/
def Tab.modify {α : Type} (t : Tab α) (k : Nat) (f : α → α) : Tab α :=
  match t.get? k with
  | some v => t.put k (f v)
  | none => t

/-- Write a run of values from key `k` on, each dropped when it is the default `d`. -/
def Tab.setRun {α : Type} [DecidableEq α] (d : α) : Tab α → Nat → List α → Tab α
  | t, _, [] => t
  | t, k, v :: vs => Tab.setRun d (t.set k v d) (k + 1) vs

/-- Read a run of `n` values from key `k` on. -/
def Tab.getRun {α : Type} (d : α) (t : Tab α) : Nat → Nat → List α
  | _, 0 => []
  | k, n + 1 => t.getD k d :: Tab.getRun d t (k + 1) n

end Sys2Proof.Machine
end

