-- ==== Sys2Proof/Machine/Types.lean ====
section
/-! DEFINITION. The data types of the hidden state of the block's units: line clock, ports, fabric, fault aggregator. Each
type is plain data; each field names the rule that gives it. -/

namespace Sys2Proof.Machine

/-- The four ordering codes (R1): memory option and grade. -/
structure Part where
  /-- H32: 8 GiB stacks (R1). -/
  h32 : Bool
  /-- Grade C (R3). -/
  gradeC : Bool
  deriving DecidableEq, Repr

/-- A frame that Krein sends (R337): port, type, stream, sequence, payload, peer extension bytes and check value. -/
structure TxFrame where
  port : Nat
  type : Nat
  stream : Nat
  seq : Nat
  payload : Bytes
  ext : Bytes
  cv : Nat
  deriving DecidableEq, Repr

/-- What leaves the block on its pins and links, newest first (the model's own trace). -/
inductive Wire where
  /-- A frame (R337). -/
  | tx (f : TxFrame)
  /-- A level of a named output pin: FAULT_N, THERM_TRIP_N, LOAD_STEP_REQ or DAT1 (R410, R394, R386, R484). -/
  | pin (name : String) (level : Bool)
  /-- An interrupt to firmware with an event slot's tag (R318). -/
  | irq (tag : Byte)
  /-- Levels on GPIO_EVT (R318). -/
  | gpio (levels : Nat)
  /-- Bytes that the host reads on F2 (R483). -/
  | f2 (data : Bytes)
  /-- Bytes shifted out of the TAP (R449). -/
  | tap (data : Bytes)
  /-- The answer to CMD5: the voltage window and S18A (R473). -/
  | ocr (window : Nat) (s18a : Bool)
  /-- The answer to CMD19: the bus's tuning block (R473). -/
  | tuning
  deriving DecidableEq, Repr

/-! ### Line clock and actuation -/

/-- One encoder's decoder state (R297, R299, R300). -/
structure Enc where
  /-- 48-bit position (R299). -/
  pos : Pos
  /-- Accepted levels of A and B (R297). -/
  a : Bool
  b : Bool
  /-- The last count was forward (R301). -/
  lastFwd : Bool
  /-- Net counts of the current 16 µs (R300). -/
  cur : Int
  /-- Net counts of the most recent 64 updates, newest first: 1.024 ms (R300). -/
  hist : List Int
  /-- Last positive LCK_VEL since the encoder was enabled, 0 if none (R309). -/
  lastVel : Nat
  /-- Time of the last forward count, µs (R300). -/
  fwdAt : Nat
  /-- The encoder is stopped (R300). -/
  stopped : Bool
  /-- A multiple of 256 lc was crossed and its SYNC is due (R313). -/
  syncDue : Bool
  /-- Time of the last SYNC, µs (R313). -/
  syncAt : Nat
  /-- Captured position bits [47:32] for the next _HI read (R328). -/
  hiCap : Option Nat
  deriving DecidableEq, Repr

/-- What a local output does at its position (R318, R310). -/
inductive OutKind where
  | gpio (mask : Nat)
  | dacLoad
  | irq (tag : Byte)
  deriving DecidableEq, Repr

/-- One local output of a slot (R318, R319). -/
structure LocalOut where
  kind : OutKind
  /-- First position. -/
  pos : Pos
  /-- Second position of a pulse, or none for a fixed width. -/
  pos2 : Option Pos
  /-- Fixed width in 0.1 µs units. -/
  width : Nat
  /-- The first position was crossed forward and the output is due (R301). -/
  due : Bool
  /-- The pulse is asserted, since this time in µs. -/
  onAt : Option Nat
  /-- The second position was crossed forward (R318). -/
  endDue : Bool
  deriving DecidableEq, Repr

/-- States of an object slot (R305). COMMITTED and ARMED are one cycle (R308). -/
inductive SlotSt where
  | openS
  | closed
  | armed
  deriving DecidableEq, Repr

/-- An object slot's contents (R305, R307, R308). -/
structure ObjSlot where
  lane : Nat
  call : Nat
  pLead : Pos
  pSeen : Pos
  xMin : Nat
  xMax : Nat
  pTrail : Pos
  st : SlotSt
  /-- The cut-off has been registered (R307). -/
  cutReg : Bool
  /-- The cut-off position was crossed forward and its registration is due (R301). -/
  cutDue : Bool
  /-- A commit held while OPEN: action and the position at which it was made (R307). -/
  held : Option (Nat × Pos)
  /-- The object is marked defaulted (R281, R285). -/
  marked : Bool
  /-- The action, whether it is a default, open and close positions, valve range and FIRE flags (R305, R308). -/
  action : Nat
  isDefault : Bool
  openPos : Pos
  closePos : Pos
  v0 : Nat
  v1 : Nat
  flags : Nat
  deriving DecidableEq, Repr

/-- A scheduler slot (R304): an object slot or an event slot, and its pending local outputs. -/
structure Slot where
  enc : Nat
  obj : Option ObjSlot
  outs : List LocalOut
  deriving DecidableEq, Repr

/-- A FIRE frame that waits for max_rate (R317). -/
structure WaitFire where
  openPos : Pos
  minAhead : Nat
  enc : Nat
  lane : Nat
  payload : Bytes
  deriving DecidableEq, Repr

/-- One DAC channel's active set beyond ACT_DAC_ACTIVE (R322, R323). -/
structure DacCh where
  amp : Nat
  fcw : Nat
  phase : Nat
  deriving DecidableEq, Repr

/-- The line clock and actuation unit. -/
structure LckUnit where
  enc0 : Enc
  enc1 : Enc
  slots : Tab Slot
  /-- FIRE frames waiting for max_rate, per actuation port, in order of open position (R317). -/
  fireQ0 : List WaitFire
  fireQ1 : List WaitFire
  /-- Times of the FIRE frames sent in the last 100 µs (R317). -/
  fireT0 : List Nat
  fireT1 : List Nat
  /-- Time of the last mains edge, and whether its loss was reported (R302). -/
  mainsAt : Nat
  mainsLost : Bool
  dac : Tab DacCh
  /-- Hold path: safe code and gain bit per channel (R324). -/
  hold : List (Nat × Nat)
  /-- Factory and user DAC trims in force: payloads of records 0x0103 and 0x0203, empty for nominal values (R326). -/
  dacFac : Bytes
  dacUsr : Bytes
  deriving DecidableEq, Repr

/-- What R308 computes for a slot: lead, positions, valve range, and the late_open and span_clip flags. -/
structure Arm where
  lead : Nat
  openPos : Pos
  closePos : Pos
  v0 : Nat
  v1 : Nat
  lateOpen : Bool
  spanClip : Bool
  deriving DecidableEq, Repr

/-- Why a default is committed (R312): the cause counter it advances. -/
inductive WfCause where
  | late
  | refused
  | retired
  | fault
  deriving DecidableEq, Repr

/-! ### Ports and fabric -/

/-- A receive stream (R337 to R341). -/
structure RxStream where
  isOpen : Bool
  type : Nat
  /-- Payload bytes of the message so far. -/
  acc : Bytes
  /-- Running check value before the final XOR (R342). -/
  cv : Nat
  /-- Firmware's value for the next first flag (R342). -/
  seed : Option Nat
  nextSeq : Option Nat
  /-- Stamp of the message's first frame. -/
  stamp : Pos
  deriving DecidableEq, Repr

/-- A transmit stream (R337, R342). -/
structure TxStream where
  cv : Nat
  seed : Option Nat
  nextSeq : Nat
  deriving DecidableEq, Repr

/-- One port beyond its registers (R333 to R343, R516). -/
structure PortSt where
  /-- Time of entry to the present state, µs. -/
  since : Nat
  /-- Training failures in a row (R333). -/
  fails : Nat
  /-- The partner's record has been received and accepted. -/
  recOk : Bool
  /-- An ACK with status OK has been received. -/
  ackOk : Bool
  /-- The attached or accepted partner's record, 128 B, or empty (R336). -/
  record : Bytes
  /-- A record received while ATTACHED, from which the next discovery starts (R346). -/
  held : Bytes
  lastRxAt : Nat
  lastTxAt : Nat
  /-- Last ACCESSION sent, µs (R334). -/
  accAt : Nat
  rx : Tab RxStream
  txs : Tab TxStream
  /-- Algorithm and mode in force since the last TRAIN (R355). -/
  alg : Nat
  mode : Nat
  /-- Trims in force since the last TRAIN: 16 lane entries (R354). -/
  eq : List Word
  /-- Serial number and firmware revision of the last partner (R516). -/
  last : Option (Bytes × Nat)
  deriving DecidableEq, Repr

/-- A fabric member as this device knows it (R350 to R352). -/
structure Member where
  hbAt : Nat
  lost : Bool
  state : Nat
  fenced : Nat
  shelves : Nat
  /-- Start of the present run of heartbeats without a gap (R352). -/
  runSince : Nat
  deriving DecidableEq, Repr

/-- The peer link and fabric manager role (R347 to R352). -/
structure Fabric where
  members : Tab Member
  /-- (source, sequence) pairs of broadcasts already delivered (R349). -/
  seen : List (Nat × Nat)
  /-- This device's heartbeat sequence. -/
  hbSeq : Nat
  lastHbAt : Nat
  /-- The index of the acting manager, if there is one. -/
  acting : Option Nat
  deriving DecidableEq, Repr

/-- The port unit. -/
structure PrtUnit where
  ports : Tab PortSt
  /-- Equalisation in force: payloads of records 0x0104 and 0x0201, empty where absent or void (R354). -/
  eqFac : Bytes
  eqUsr : Bytes
  fab : Fabric
  deriving DecidableEq, Repr

/-! ### Faults -/

/-- An aggregator record (R416). `entry` tells whether CC3 has formed its log entry. -/
structure Rec where
  src : Nat
  code : Nat
  reporter : Nat
  detail : Nat
  count : Nat
  first : Nat
  last : Nat
  entry : Bool
  deriving DecidableEq, Repr

/-- A log entry (R418). -/
structure LogEntry where
  code : Nat
  src : Nat
  sev : Nat
  kind : Nat
  reporter : Nat
  powerOn : Nat
  first : Nat
  span : Nat
  count : Nat
  detail : Nat
  seq : Nat
  deriving DecidableEq, Repr

/-- A slot index entry of the crash dump (R413). -/
structure DumpSlot where
  code : Nat
  core : Nat
  engine : Nat
  ctx : Nat
  gen : Nat
  task : Nat
  time : Nat
  token : Nat
  call : Nat
  rung : Nat
  st : Nat
  crc : Nat
  deriving DecidableEq, Repr

/-- The crash dump header (R412). -/
structure DumpHdr where
  st : Nat
  powerOn : Nat
  written : Nat
  next : Nat
  tail : Nat
  drr : Nat
  time : Nat
  deriving DecidableEq, Repr

/-- A core's ladder state (R400 to R404). -/
structure Ladder where
  /-- Fenced engines, bit e. -/
  engines : Nat
  /-- Times at which each fenced engine was fenced, and its reset started. -/
  fencedAt : Tab Nat
  resetAt : Tab Nat
  /-- Time of each engine's last timeout-caused rung 1, and of the core's last rung 2. -/
  lastRung1 : Tab Nat
  lastRung2 : Option Nat
  /-- The dump slot of each fenced engine. -/
  slotOf : Tab Nat
  /-- Tile states held before rung 2 (R403). -/
  savedTiles : List Nat
  /-- Time at which rung 2 gated the domains, and whether their wake has been requested (R403). -/
  offAt : Option Nat
  waking : Bool
  /-- Start of a rung-3 fence that is not complete (R404). -/
  fenceAt : Option Nat
  deriving DecidableEq, Repr

/-- Faults, log, crash dump and recovery (R398 to R425). -/
structure FltUnit where
  openRecs : List Rec
  ovf : Option Rec
  closed : List Rec
  /-- Log entries that wait to be written, oldest first (R419). -/
  pending : List LogEntry
  pendSince : Nat
  logSeq : Nat
  /-- Log tail of the dump (R408). -/
  tail : List LogEntry
  dump : DumpHdr
  slots : Tab DumpSlot
  cores : Tab Ladder
  /-- Last kick of each control core's watchdog (R398). -/
  kicks : List Nat
  /-- Start times of device recovery resets in the last 60 s (R409). -/
  drrTimes : List Nat
  /-- A device recovery reset runs (R408), since this time. -/
  drrAt : Option Nat
  /-- FAULT_N is asserted (R410). -/
  faultN : Bool
  /-- Captured FLT_TIME bits [63:32] (R424). -/
  hiCap : Option Nat
  deriving DecidableEq, Repr

/-! ### Parameter store -/

/-- A page that is not BLANK (R456): VALID or TORN, its sequence number and its 256 data bytes. -/
structure Page where
  ok : Bool
  seq : Nat
  data : Bytes
  deriving DecidableEq, Repr

/-- What a queued write carries (R457 to R460, R467, R468). -/
inductive PKind where
  /-- A paired record: type and payload, and whether a mailbox command waits for it. -/
  | record (type : Nat) (payload : Bytes) (waits : Bool)
  /-- The calibration cache (R459). -/
  | cache (payload : Bytes)
  /-- A log page with its entries; `fault` tells whether one is of severity 2 or 3 (R419, R460). -/
  | log (data : Bytes) (fault : Bool)
  /-- A counter slot: counter, slot, base, and whether cell 0 is programmed after it (R467). -/
  | slot (c : Nat) (b : Bool) (base : Nat) (cell : Bool)
  /-- A page rewritten in place by scrub (R468). -/
  | rewrite (page : Nat)
  deriving DecidableEq, Repr

/-- A queued write (R463): its class, what it carries, and once begun the pages left to write and their sequence. -/
structure PJob where
  cls : Nat
  kind : PKind
  begun : Bool
  left : List (Nat × Bytes)
  seq : Nat
  deriving DecidableEq, Repr

/-- The page write that runs (R461): the job, the page, its new data, what the page held, the start, and the retry. -/
structure PRun where
  job : PJob
  page : Nat
  data : Bytes
  old : Option Page
  start : Nat
  retried : Bool
  deriving DecidableEq, Repr

/-- The parameter store (R455 to R470). -/
structure PstUnit where
  pages : Tab Page
  queue : List PJob
  run : Option PRun
  /-- End of the last page write (R462). -/
  lastEnd : Option Nat
  /-- Powered time of the last count of counter 3 (R467). -/
  hourAt : Nat
  /-- Increments that wait for the running page write to end (R470). -/
  countDue : List Nat
  deriving DecidableEq, Repr

/-! ### Packages and catalogues -/

/-- A task record (R271). `kf` are the kind-specific fields of R272, in the order of its table. -/
structure TaskRec where
  index : Nat
  kind : Nat
  budget : Nat
  flags : Nat
  layer : Nat
  anchor : Nat
  npred : Nat
  succs : List Nat
  op : Nat
  operands : List Nat
  act : Nat
  outFmt : Nat
  kf : List Nat
  deriving DecidableEq, Repr, Inhabited

/-- A buffer table entry (R273): memory, core, base and size in bytes. -/
structure Buf where
  mem : Nat
  core : Nat
  base : Nat
  size : Nat
  deriving DecidableEq, Repr, Inhabited

/-- A state op (R216, R212, R251): its layer and copy, parameters, bucket sets and score scale. -/
structure StateOp where
  layer : Nat
  copy : Nat
  heads : Nat
  rows : Nat
  b3 : Bool
  mask : Nat
  planMode : Nat
  concurrency : Nat
  l2Budget : Nat
  home : Nat
  folioBuckets : List Nat
  batchBuckets : List Nat
  sigma : Word
  deriving DecidableEq, Repr, Inhabited

/-- A level record of a descriptor table (R221). -/
structure LevelRec where
  bound : Nat
  stride : Nat
  dim : Nat
  order : Nat
  level : Nat
  rsv : Nat
  deriving DecidableEq, Repr, Inhabited

/-- A descriptor table (R221); `hdrOk` tells whether magic, version, level count and reserved fields are in order. -/
structure DescTable where
  hdrOk : Bool
  op : Nat
  folio : Nat
  batch : Nat
  levels : List LevelRec
  deriving DecidableEq, Repr, Inhabited

/-- A catalogue (R270). `bad` is 0, or the loader code of its magic or version. -/
structure Catalogue where
  bad : Nat
  ntasks : Nat
  tasks : List TaskRec
  bufs : List Buf
  ops : List StateOp
  tables : List DescTable
  deriving DecidableEq, Repr, Inhabited

/-- One weight matrix of a layer (R196, R198): layer-local index of its first tile, K, N, rotation block b, and the parts
of a split reduction. -/
structure Mat where
  first : Nat
  k : Nat
  n : Nat
  b : Nat
  parts : Nat
  deriving DecidableEq, Repr, Inhabited

/-- A static-weight layer of the package directory (R196, R198, R204): its matrices, group size, input format and copies.
Each copy lists its logical tiles by layer-local index. -/
structure Layer where
  index : Nat
  group : Nat
  inFmt : Nat
  mats : List Mat
  copies : List (List Nat)
  deriving DecidableEq, Repr, Inhabited

/-- A package directory (R433): placement table of R203 by logical tile, and layers. -/
structure PkgDir where
  homes : List (Nat × Nat)
  layers : List Layer
  deriving DecidableEq, Repr, Inhabited

/-- A package that has passed the loader. -/
structure Pkg where
  dir : PkgDir
  cats : List Catalogue
  /-- Weight image hash of R105 and the hash of its section entries (R448). -/
  weightHash : Bytes
  pkgHash : Bytes
  deriving DecidableEq, Repr, Inhabited

/-! ### Stacks -/

/-- A folio layout (R236): heads and B3 flag of each state layer. -/
structure Layout where
  layers : List (Nat × Bool)
  deriving DecidableEq, Repr

/-- A live folio: the header of R237. State 1 open, 2 closed, 3 transferring. -/
structure Folio where
  epoch : Nat
  st : Nat
  ctx : Nat
  gen : Nat
  layout : Layout
  positions : Nat
  pages : List Nat
  admitPos : Pos
  closePos : Pos
  relPos : Pos
  flags : Nat
  originDev : Nat
  originCall : Nat
  track : Bytes
  nl : List Nat
  /-- s2_K and s2_V by 16 × layer + head. -/
  s2 : Tab (Nat × Nat)
  rejoin : Pos
  /-- The release position was crossed forward and the release is due (R245). -/
  due : Bool
  deriving DecidableEq, Repr

/-- What a Stacks request does (R254 to R256). -/
inductive ReqKind where
  /-- A fetch read for instance `inst`. -/
  | fetch (inst : Nat)
  /-- A write of append `a`. -/
  | append (a : Nat)
  /-- A read or write of a catalogue buffer by instance `inst`. -/
  | buffer (inst : Nat)
  /-- Transfer data of a folio. -/
  | xfer (call : Nat)
  /-- Archive or dump traffic. -/
  | archive
  deriving DecidableEq, Repr

/-- An outstanding Stacks request: its context and generation, core, engine, page, and time (R289, R291, R399). -/
structure Req where
  kind : ReqKind
  ctx : Nat
  gen : Nat
  core : Nat
  engine : Nat
  page : Nat
  since : Nat
  deriving DecidableEq, Repr

/-- An append in progress (R249): folio, layer, entries, writes not yet acknowledged. -/
structure Append where
  call : Nat
  layer : Nat
  count : Nat
  left : Nat
  deriving DecidableEq, Repr

/-- A folio transfer (R262 to R265): role, peer fabric index, the peer's context and generation, the peer's call number once
known, target shelf, start or last data, data received. -/
structure Xfer where
  sender : Bool
  peer : Nat
  peerCtx : Nat
  peerGen : Nat
  peerCall : Option Nat
  shelf : Nat
  positions : Nat
  dataLen : Nat
  lastAt : Nat
  got : Tab Byte
  gotLen : Nat
  deriving DecidableEq, Repr

/-- An archive slot (R106, R107): loaded and verified flags, and bytes 0x00 to 0x7F of its record. -/
structure ArcSlot where
  loaded : Bool
  verified : Bool
  hdr : Bytes
  deriving DecidableEq, Repr

/-- The Stacks (R230 to R268). -/
structure StkUnit where
  /-- Live folios by call number. -/
  folios : Tab Folio
  /-- Directory epochs by call number (R234). -/
  epochs : Tab Nat
  /-- Last serial issued per shelf (R235). -/
  lastSerial : Tab Nat
  /-- Serials that stay unusable until power-up (R258). -/
  badSerials : List Nat
  /-- Pages given up, each with the number of the next request at its give-up, oldest first (R246). -/
  giveUp : List (Nat × Nat)
  /-- Retired pages (R259), and the firmware's retired-page list. -/
  retired : List Nat
  retList : List Nat
  /-- Remap table of archive and buffer-area pages (R259). -/
  remap : Tab Nat
  /-- Times of each channel's uncorrectable errors in the last second (R260). -/
  ueTimes : Tab (List Nat)
  reqs : Tab Req
  nextReq : Nat
  /-- Fetch reads that wait for a slot of their engine, oldest first (R254). -/
  fetchWait : List Req
  appends : Tab Append
  nextAppend : Nat
  xfers : Tab Xfer
  /-- Bytes of the Stacks that differ from 0, by Stacks address (R232). -/
  mem : Tab Byte
  /-- Directories and free lists stand (R438). -/
  built : Bool
  selfRefresh : Bool
  slots : Tab ArcSlot
  /-- Archive header: package and complete flag (R105, R110). -/
  arcPkg : Option Nat
  arcComplete : Bool
  deriving DecidableEq, Repr

/-! ### Dispatcher -/

/-- A token (R275): its context, generation, lane, camera head, the lc stamp of its strip's last line, its object once
known, whether tracking closed the object's folio or completed without, its position in the folio, and the copy chosen
per layer (R280). -/
structure Token where
  ctx : Nat
  gen : Nat
  lane : Nat
  head : Nat
  stamp : Pos
  call : Option Nat
  /-- Previous token of the same object (R276). -/
  prev : Option Nat
  /-- 0 tracking not complete, 1 complete without a close, 2 complete with a close. -/
  tracked : Nat
  pos : Nat
  copies : Tab Nat
  deriving DecidableEq, Repr

/-- Where an instance stands. -/
inductive InstSt where
  | waiting
  /-- A STATE instance that gathers (R283). -/
  | gathering
  | ready
  | running
  deriving DecidableEq, Repr

/-- A task instance (R275). `deps` is the dependency counter; `since` the time of release, or of joining a gather. -/
structure Inst where
  task : Nat
  ctx : Nat
  gen : Nat
  token : Nat
  deps : Nat
  st : InstSt
  core : Nat
  engine : Nat
  /-- Order in which it became ready (R278). -/
  seq : Nat
  since : Nat
  /-- The gathered task it runs in (R283). -/
  group : Nat
  deriving DecidableEq, Repr

/-- A gathered STATE task (R283): op, copy, members in order of joining, and whether it is closed. -/
structure Gather where
  ctx : Nat
  op : Nat
  copy : Nat
  members : List Nat
  since : Nat
  closed : Bool
  deriving DecidableEq, Repr

/-- Lines of a strip that is arriving on a lane from a head (R275). -/
structure Strip where
  lines : Nat
  deriving DecidableEq, Repr

/-- A context beyond its registers (R286 to R293). -/
structure CtxSt where
  layout : Layout
  /-- Start of the present teardown and time of the last generation change (R292, R293). -/
  tdAt : Nat
  genAt : Option Nat
  /-- A teardown waits for the 1 ms interval (R293). -/
  tdWait : Bool
  /-- Firmware has suspended the context and the save has not been made (R288). -/
  saving : Bool
  /-- Cores whose entries are saved (R189). -/
  saved : List Nat
  /-- What the record of R190 does not hold of a saved entry, by 1,024 × core + entry: its token, and whether it
  combined entries of different scale tags (R191: a restored sum is what it would have been). -/
  kept : Tab (Nat × Bool)
  deriving DecidableEq, Repr

/-- The dispatcher (R270 to R295). -/
structure DspUnit where
  insts : Tab Inst
  nextInst : Nat
  tokens : Tab Token
  nextToken : Nat
  seq : Nat
  gathers : Tab Gather
  nextGather : Nat
  /-- Lines received per strip, by 8 × lane + head. -/
  strips : Tab Strip
  ctxs : Tab CtxSt
  /-- Last token of each object (R276), and the objects marked defaulted (R281, R285). -/
  lastToken : Tab Nat
  defaulted : List Nat
  /-- Packages that the loader has accepted: 0 A, 1 B. -/
  pkgs : Tab Pkg
  /-- The running package (R441). -/
  running : Option Nat
  /-- Present physical place of each logical tile of the running package that is not at its home: core × 128 + tile. -/
  place : Tab Nat
  /-- Copies that a repair has dropped: layer and copy (R103). -/
  dropped : List (Nat × Nat)
  deriving DecidableEq, Repr

end Sys2Proof.Machine
end

