-- ==== Sys2Proof/Config.lean ====
section
/-! DEFINITION. Constants that the spec fixes for every part, and the free values: what the spec leaves open. A free
value is an `opaque` constant with no body; nothing in Lean can evaluate it, so a statement about it holds for every value. -/

namespace Sys2Proof.Config

/-- Which of several free units a hardware allocator takes, by draw number (R304, R240: the spec states no order).
DESIGN CHOICE, assumption 65. -/
opaque choice : Nat → Nat

/-- Whether `round` of R309 and R322 takes the greater neighbour of a tie, by the numerator (the spec states no rule).
DESIGN CHOICE, assumption 65. -/
opaque tieUp : Int → Bool

/-- Vendor name, model name and serial number that Krein sends in its own accession record, 48 B (R335 gives their
layout, not their text). DESIGN CHOICE, assumption 66. -/
opaque accessionNames : Bytes

/-- Whether PP0 leads to the member with the next higher fabric index (R349 speaks of the table's order only).
DESIGN CHOICE, assumption 67. -/
opaque pp0Up : Bool

/-- Sign of a NaN that an FP32 operation forms, by its operands' bits (R146 and R153 give only the canonical pattern).
DESIGN CHOICE, assumption 64. -/
opaque nanNeg : Nat → Nat → Bool

/-- Whether the butterfly stages of R154 go from the widest stride to the narrowest (the spec states no order).
DESIGN CHOICE, assumption 64. -/
opaque rotDescending : Bool

/-- Whether the fast transform of R154 divides by √b before its stages (the spec does not say where).
DESIGN CHOICE, assumption 64. -/
opaque rotScaleFirst : Bool

/-- An activation's result within the tolerance of R183, by activation code and argument. DESIGN CHOICE, assumption 63. -/
opaque actPick : Nat → Word → Word

/-- A row-wise result within the tolerance of R184, by operation, row and position. DESIGN CHOICE, assumption 63. -/
opaque rowPick : Nat → List Word → Nat → Word

/-- The fixed approximation of 2^x on 0 ≤ x < 1 within 1 ulp (R251). DESIGN CHOICE, assumption 64. -/
opaque exp2 : Word → Word

/-- A value that the spec leaves open, by draw number: measured or estimated by means the spec does not give.
DESIGN CHOICE, assumption 6. -/
opaque freeValue : Nat → Nat

/-- Detail of THM_MON_XCHK, from both codes (R369: both are given, and how they share the detail word is not stated).
DESIGN CHOICE, assumption 66. -/
opaque xchkDetail : Int → Int → Nat

/-- Detail of THM_MON_CFG, from the converter and the value written (R376: how they share the word is not stated).
DESIGN CHOICE, assumption 66. -/
opaque monCfgDetail : Nat → Nat → Nat

/-- The members are joined as a ring, not as a chain (R347: the installation decides). DESIGN CHOICE, assumption 67. -/
opaque ring : Bool

/-- The side taken towards a member that is equally far either way round a ring (R349 names the shorter path only).
DESIGN CHOICE, assumption 67. -/
opaque ringTieUp : Bool

/-- Bytes of a transfer message (R263 gives contents, not their layout), by message type, numbers and bytes it carries.
DESIGN CHOICE, assumption 66. -/
opaque xferBytes : Nat → List Nat → Bytes → Bytes

/-- ML-DSA-65 verification: public key, message, signature (R435; FIPS 204 is not part of the spec).
DESIGN CHOICE, assumption 61. -/
opaque verify : Bytes → Bytes → Bytes → Bool

/-- ML-DSA-65 signature of a message with the device's private key (R446, R448). DESIGN CHOICE, assumption 61. -/
opaque sign : Bytes → Bytes

/-- The device's public key, derived from its seed fuses (R446). DESIGN CHOICE, assumption 61. -/
opaque devKey : Bytes

/-- Hashes of the Alairco firmware and debug keys in the security engine's mask ROM (R435). DESIGN CHOICE, assumption 61. -/
opaque romFwHash : Bytes
opaque romDbgHash : Bytes

/-- A fresh 32 B debug challenge, by draw number (R449). DESIGN CHOICE, assumption 6. -/
opaque challenge : Nat → Bytes

/-- A package directory section's contents (R433 names them and gives no layout). DESIGN CHOICE, assumption 62. -/
opaque pkgDir : Bytes → Machine.PkgDir

/-- The state-op table of a catalogue, by count (R216 gives the parameters and no layout), and its size in bytes.
DESIGN CHOICE, assumption 62. -/
opaque stateOps : Nat → Bytes → List Machine.StateOp
opaque stateOpBytes : Nat → Nat

/-- The kind-specific fields of a task record, by kind (R272 names them and gives no layout).
DESIGN CHOICE, assumption 62. -/
opaque kindFields : Nat → Bytes → List Nat

/-- A vector operation is an epilogue; k of a top-k operation; both by operation code and kind-specific fields (R272: the
operation codes are not listed). DESIGN CHOICE, assumption 62. -/
opaque isEpilogue : Nat → Bool
opaque topKOf : Nat → List Nat → Option Nat

/-- Bytes that a task needs in the buffer of one of its operands (R227 step 8: not stated per operation).
DESIGN CHOICE, assumption 62. -/
opaque bufNeed : Machine.TaskRec → Nat → Nat

/-- Bytes of a signature-block section ahead of its hash table (R433 gives magic and version only).
DESIGN CHOICE, assumption 62. -/
opaque sigHeader : Nat

end Sys2Proof.Config
end

