-- ==== Sys2Proof/Machine/Operands.lean ====
section
/-! DEFINITION. Every operand form of the datapath: the sixteen number formats, FP32 arithmetic, narrowing, packing, the
key-value group encoding, rotation and input ranging (R143 to R166). Values are exact dyadic numbers; rounding is the one
function `roundPos`. -/

namespace Sys2Proof.Machine

/-! ### Exact values -/

/-- An exact floating-point value: `m · 2^e` with a sign, an infinity or a NaN. -/
inductive FpVal where
  | nan (neg : Bool)
  | inf (neg : Bool)
  | fin (neg : Bool) (m : Nat) (e : Int)
  deriving DecidableEq, Repr

/-- Decode an IEEE 754 binary format of `eb` exponent and `mb` mantissa bits (R146). -/
def fpDecode (eb mb : Nat) (w : Nat) : FpVal :=
  let neg := bit w (eb + mb)
  let ex := w / 2 ^ mb % 2 ^ eb
  let m := w % 2 ^ mb
  let bias : Int := 2 ^ (eb - 1) - 1
  if ex = 2 ^ eb - 1 then (if m = 0 then .inf neg else .nan neg)
  else if ex = 0 then .fin neg m (1 - bias - (mb : Int))
  else .fin neg (m + 2 ^ mb) ((ex : Int) - bias - (mb : Int))

/-- Decode E4M3 (R146): the all-ones exponent is finite, all ones in both fields is NaN. -/
def e4m3Decode (w : Nat) : FpVal :=
  let neg := bit w 7
  let ex := w / 8 % 16
  let m := w % 8
  if ex = 15 ∧ m = 7 then .nan neg
  else if ex = 0 then .fin neg m (-9) else .fin neg (m + 8) ((ex : Int) - 10)

/-- `floor(log2(p / q))` for positive `p` and `q`. -/
def floorLog2Q (p q : Nat) : Int :=
  let k : Int := (Nat.log2 p : Int) - (Nat.log2 q : Int)
  let ge := if 0 ≤ k then decide (q * 2 ^ k.toNat ≤ p) else decide (q ≤ p * 2 ^ (-k).toNat)
  if ge then k else k - 1

/-- The quotient `p · 2^e / (q · 2^u)` as a numerator and a denominator. -/
def scaleQ (p q : Nat) (e u : Int) : Nat × Nat :=
  if u ≤ e then (p * 2 ^ (e - u).toNat, q) else (p, q * 2 ^ (u - e).toNat)

/-- Round the positive value `p / q · 2^e` to `mb + 1` significant bits, exponents not below `emin`: mantissa and its unit's
exponent. `up` rounds toward +∞, otherwise to nearest with ties to even. -/
def roundPos (mb : Nat) (emin : Int) (p q : Nat) (e : Int) (up : Bool := false) : Nat × Int :=
  if p = 0 then (0, emin - mb)
  else
    let u := max (floorLog2Q p q + e) emin - (mb : Int)
    let (n, d) := scaleQ p q e u
    (if up then ceilDiv n d else (rneDiv n d).toNat, u)

/-- The bit pattern of a rounded positive value in an IEEE 754 format, infinity from overflow on. -/
def fpPack (eb mb : Nat) (neg : Bool) (m : Nat) (u : Int) : Nat :=
  let bias : Int := 2 ^ (eb - 1) - 1
  let s := b2n neg * 2 ^ (eb + mb)
  if m < 2 ^ mb then s + m
  else
    let ex := (if m = 2 ^ (mb + 1) then u + 1 else u) + (mb : Int) + bias
    let f := if m = 2 ^ (mb + 1) then 0 else m - 2 ^ mb
    if ex ≥ 2 ^ eb - 1 then s + (2 ^ eb - 1) * 2 ^ mb else s + ex.toNat * 2 ^ mb + f

/-- Least normal exponent of a format with `eb` exponent bits. -/
def fpEmin (eb : Nat) : Int := 2 - 2 ^ (eb - 1)

/-- Round an exact rational `± p / q · 2^e` to an IEEE 754 format. PRESUMED, assumption 97. -/
def fpRoundQ (eb mb : Nat) (neg : Bool) (p q : Nat) (e : Int) : Nat :=
  let (m, u) := roundPos mb (fpEmin eb) p q e
  fpPack eb mb neg m u

/-- Narrow an exact value to an IEEE 754 format with its canonical NaN (R146, R153). -/
def fpEncode (eb mb : Nat) (v : FpVal) : Nat :=
  match v with
  | .nan neg => b2n neg * 2 ^ (eb + mb) + (2 ^ eb - 1) * 2 ^ mb + 2 ^ (mb - 1)
  | .inf neg => b2n neg * 2 ^ (eb + mb) + (2 ^ eb - 1) * 2 ^ mb
  | .fin neg m e => fpRoundQ eb mb neg m 1 e

/-! ### FP32 arithmetic -/

/-- The exact value of an FP32 word. -/
def f32 (w : Word) : FpVal := fpDecode 8 23 w.toNat

/-- The FP32 word nearest to an exact value. -/
def toF32 (v : FpVal) : Word := BitVec.ofNat 32 (fpEncode 8 23 v)

/-- Canonical FP32 NaN (R146). -/
def canonNaN : Word := 0x7FC00000

/-- A NaN that an operation forms. -/
def opNaN (a b : Word) : Word := toF32 (.nan (Config.nanNeg a.toNat b.toNat))

/-- The word is a NaN. -/
def f32IsNaN (w : Word) : Bool := match f32 w with | .nan _ => true | _ => false

/-- The word is finite. -/
def f32Finite (w : Word) : Bool := match f32 w with | .fin .. => true | _ => false

/-- Sign bit. -/
def f32Neg (w : Word) : Bool := bit w.toNat 31

/-- The magnitude of a word. -/
def f32Abs (w : Word) : Word := BitVec.ofNat 32 (w.toNat % 2 ^ 31)

/-- A word with its sign changed. -/
def f32Negate (w : Word) : Word := BitVec.ofNat 32 (Nat.xor w.toNat (2 ^ 31))

/-- The signed integer `m · 2^(e - u)` of a dyadic value at a unit not above `e`. -/
def dyInt (neg : Bool) (m : Nat) (e u : Int) : Int :=
  let n : Int := (m * 2 ^ (e - u).toNat : Nat)
  if neg then -n else n

/-- FP32 addition under RNE. -/
def f32Add (a b : Word) : Word :=
  match f32 a, f32 b with
  | .fin na ma ea, .fin nb mb eb =>
    let u := min ea eb
    let s := dyInt na ma ea u + dyInt nb mb eb u
    if s = 0 then toF32 (.fin (na && nb) 0 u) else toF32 (.fin (decide (s < 0)) s.natAbs u)
  | .inf na, .inf nb => if na = nb then a else opNaN a b
  | .inf _, .fin .. => a
  | .fin .., .inf _ => b
  | .nan _, _ => opNaN a b
  | _, .nan _ => opNaN a b

/-- FP32 multiplication under RNE. -/
def f32Mul (a b : Word) : Word :=
  match f32 a, f32 b with
  | .fin na ma ea, .fin nb mb eb => toF32 (.fin (na != nb) (ma * mb) (ea + eb))
  | .inf na, .inf nb => toF32 (.inf (na != nb))
  | .inf na, .fin nb m _ => if m = 0 then opNaN a b else toF32 (.inf (na != nb))
  | .fin na m _, .inf nb => if m = 0 then opNaN a b else toF32 (.inf (na != nb))
  | .nan _, _ => opNaN a b
  | _, .nan _ => opNaN a b

/-- FP32 division under RNE. -/
def f32Div (a b : Word) : Word :=
  match f32 a, f32 b with
  | .fin na ma ea, .fin nb mb eb =>
    if mb = 0 then (if ma = 0 then opNaN a b else toF32 (.inf (na != nb)))
    else BitVec.ofNat 32 (fpRoundQ 8 23 (na != nb) ma mb (ea - eb))
  | .inf na, .fin nb _ _ => toF32 (.inf (na != nb))
  | .fin na _ e, .inf nb => toF32 (.fin (na != nb) 0 e)
  | .inf _, .inf _ => opNaN a b
  | .nan _, _ => opNaN a b
  | _, .nan _ => opNaN a b

/-- An integer as FP32 under RNE. -/
def f32OfInt (i : Int) : Word := toF32 (.fin (decide (i < 0)) i.natAbs 0)

/-- An FP16 code as FP32, exact. -/
def f16to32 (h : Nat) : Word := toF32 (fpDecode 5 10 h)

/-- Exact comparison of two non-NaN values: −1, 0 or 1 (+0 and −0 equal). -/
def fpCmp (x y : FpVal) : Int :=
  match x, y with
  | .inf a, .inf b => if a = b then 0 else if a then -1 else 1
  | .inf a, _ => if a then -1 else 1
  | _, .inf b => if b then 1 else -1
  | .fin na ma ea, .fin nb mb eb =>
    let u := min ea eb
    let d := dyInt na ma ea u - dyInt nb mb eb u
    if d < 0 then -1 else if d = 0 then 0 else 1
  | _, _ => 0

/-- The greatest magnitude of a list of words, +0 for none; NaNs are passed over. -/
def f32Amax (xs : List Word) : Word :=
  xs.foldl (fun m x => if fpCmp (f32 (f32Abs x)) (f32 m) > 0 then f32Abs x else m) 0

/-- The list holds a NaN or an infinity. -/
def hasNonFinite (xs : List Word) : Bool := xs.any (fun x => !f32Finite x)

/-- The integer nearest to an exact value, ties to even; 0 for a value that is not finite. -/
def fpToInt (v : FpVal) : Int :=
  match v with
  | .fin neg m e =>
    let n : Int := if neg then -(m : Int) else m
    if 0 ≤ e then n * 2 ^ e.toNat else rneDiv n (2 ^ (-e).toNat)
  | _ => 0

/-! ### Narrowing (R153) -/

/-- Narrowing events: VEC_QSTATUS bits (R168). -/
inductive QEvent where
  | intSat
  | fp8Sat
  | nanIn
  | kvSat
  | kvUflow
  | kvNan
  deriving DecidableEq, Repr

/-- Ends of an integer format. -/
def intEnds : Fmt → Option (Int × Int)
  | .uint8 => some (0, 255)
  | .uint12 => some (0, 4095)
  | .int4 => some (-8, 7)
  | .int8 => some (-128, 127)
  | .int16 => some (-32768, 32767)
  | .int32 => some (-2147483648, 2147483647)
  | _ => none

/-- Bits of one element (R143). -/
def fmtWidth : Fmt → Nat
  | .uint8 => 8 | .uint12 => 12 | .int4 => 4 | .int8 => 8 | .int16 => 16 | .int32 => 32
  | .fp16 => 16 | .bf16 => 16 | .fp32 => 32 | .e4m3 => 8 | .e5m2 => 8 | .mx4 => 4 | .b4 => 4 | .b3 => 3 | .s8 => 8 | .w6 => 6

/-- The 4-bit format code (R143). -/
def fmtCode : Fmt → Nat
  | .uint8 => 0 | .uint12 => 1 | .int4 => 2 | .int8 => 3 | .int16 => 4 | .int32 => 5
  | .fp16 => 6 | .bf16 => 7 | .fp32 => 8 | .e4m3 => 9 | .e5m2 => 10 | .mx4 => 11 | .b4 => 12 | .b3 => 13 | .s8 => 14 | .w6 => 15

/-- The format of a code (R143). -/
def fmtOf : Nat → Fmt
  | 0 => .uint8 | 1 => .uint12 | 2 => .int4 | 3 => .int8 | 4 => .int16 | 5 => .int32
  | 6 => .fp16 | 7 => .bf16 | 8 => .fp32 | 9 => .e4m3 | 10 => .e5m2 | 11 => .mx4 | 12 => .b4 | 13 => .b3 | 14 => .s8 | _ => .w6

/-- Saturate an exact value into an integer format (R153). -/
def narrowInt (lo hi : Int) (v : FpVal) : Int × List QEvent :=
  match v with
  | .nan _ => (0, [.nanIn])
  | .inf neg => (if neg then lo else hi, [.intSat])
  | .fin .. =>
    let i := fpToInt v
    if i < lo then (lo, [.intSat]) else if i > hi then (hi, [.intSat]) else (i, [])

/-- Narrow to E4M3 (R153): ±448 from 464 up. -/
def narrowE4m3 (v : FpVal) : Nat × List QEvent :=
  match v with
  | .nan neg => (b2n neg * 128 + 0x7F, [.nanIn])
  | .inf neg => (b2n neg * 128 + 0x7E, [.fp8Sat])
  | .fin neg m e =>
    if fpCmp (.fin false m e) (.fin false 464 0) ≥ 0 then (b2n neg * 128 + 0x7E, [.fp8Sat])
    else
      let (r, u) := roundPos 3 (-6) m 1 e
      let (r, u) := if r = 16 then (8, u + 1) else (r, u)
      (b2n neg * 128 + (if r < 8 then r else ((u + 10).toNat * 8 + (r - 8))), [])

/-- Narrow one element to any format but MX4, B4, B3, S8 and W6 (R153): code and events. -/
def narrow (f : Fmt) (w : Word) : Nat × List QEvent :=
  let v := f32 w
  let nanEv := if f32IsNaN w then [QEvent.nanIn] else []
  match f with
  | .fp32 => (fpEncode 8 23 v, nanEv)
  | .fp16 => (fpEncode 5 10 v, nanEv)
  | .bf16 => (fpEncode 8 7 v, nanEv)
  | .e5m2 => (fpEncode 5 2 v, nanEv)
  | .e4m3 => narrowE4m3 v
  | _ =>
    match intEnds f with
    | some (lo, hi) => let (i, ev) := narrowInt lo hi v; (ofInt (fmtWidth f) i, ev)
    | none => (0, [])

/-- The exact value of an element's code in a vector-unit format. -/
def decodeElem (f : Fmt) (c : Nat) : FpVal :=
  match f with
  | .fp32 => fpDecode 8 23 c
  | .fp16 => fpDecode 5 10 c
  | .bf16 => fpDecode 8 7 c
  | .e5m2 => fpDecode 5 2 c
  | .e4m3 => e4m3Decode c
  | .uint8 => .fin false (c % 256) 0
  | .uint12 => .fin false (c % 4096) 0
  | _ => let i := sext (fmtWidth f) (c % 2 ^ (fmtWidth f)); .fin (decide (i < 0)) i.natAbs 0

/-! ### MX4 (R147) -/

/-- One MX4 element: code and whether it saturated. -/
def mxElem (x : Int) (v : FpVal) : Nat × Bool :=
  match v with
  | .fin neg m e =>
    let (r, u) := roundPos 1 0 m 1 (e - x)
    let (r, u) := if r = 4 then (2, u + 1) else (r, u)
    if u > 1 then (b2n neg * 8 + 7, true)
    else (b2n neg * 8 + (if r < 2 then r else (u + 1).toNat * 2 + 2 + (r - 2)), false)
  | _ => (0, false)

/-- One MX4 block of 32 elements: 17 bytes (R147, R153). -/
def mxBlock (xs : List Word) : Bytes × List QEvent :=
  let xs := xs ++ List.replicate (32 - xs.length) 0
  if hasNonFinite xs then (leBytes 1 0xFF ++ leBytes 16 0, [.nanIn])
  else
    let x : Nat := match f32 (f32Amax xs) with
      | .fin _ m e => if m = 0 then 0 else (clampI 0 254 (floorLog2Q m 1 + e - 2 + 127)).toNat
      | _ => 0
    let es := xs.map (fun w => mxElem ((x : Int) - 127) (f32 w))
    let v := (es.zipIdx).foldl (fun a e => a + e.1.1 * 16 ^ e.2) 0
    (leBytes 1 x ++ leBytes 16 v, (es.filter (·.2)).map (fun _ => QEvent.fp8Sat))

/-! ### Packing (R5, R144, R201) -/

/-- The number whose `w`-bit digits are the codes, first lowest. -/
def packNat (w : Nat) : List Nat → Nat
  | [] => 0
  | c :: cs => c % 2 ^ w + 2 ^ w * packNat w cs

/-- Split a list into runs of `n` elements. -/
def chunks {α : Type} (n : Nat) : Nat → List α → List (List α)
  | 0, _ => []
  | _ + 1, [] => []
  | fuel + 1, xs => xs.take n :: chunks n fuel (xs.drop n)

/-- The bytes of a vector narrowed to format `f` (R144, R201), with its events. -/
def narrowVec (f : Fmt) (xs : List Word) : Bytes × List QEvent :=
  if f = .mx4 then
    let bs := (chunks 32 xs.length xs).map mxBlock
    (bs.flatMap (·.1), bs.flatMap (·.2))
  else
    let cs := xs.map (narrow f)
    let codes := cs.map (·.1)
    let ev := cs.flatMap (·.2)
    let bytes := match f with
      | .int4 => leBytes (ceilDiv codes.length 2) (packNat 4 codes)
      | .uint12 => leBytes (3 * ceilDiv codes.length 2) (packNat 12 codes)
      | _ => leBytes (codes.length * (fmtWidth f) / 8) (packNat (fmtWidth f) codes)
    (bytes, ev)

/-! ### Bell grids and scale codes (R148 to R150, R153) -/

/-- Magnitude numerators of a grid, over 16,384. -/
def gridMags (b3 : Bool) : List Nat :=
  if b3 then [0, 4016, 8708, 16384] else [0, 1493, 3028, 4676, 6529, 8747, 11708, 16384]

/-- Encoder thresholds of a grid, over 32,768. -/
def gridThr (b3 : Bool) : List Nat :=
  if b3 then [4016, 12724, 25092] else [1493, 4521, 7704, 11205, 15276, 20455, 28092]

/-- The signed numerator of a code (R148, R149). -/
def gridNum (b3 : Bool) (c : Nat) : Int :=
  let k := if b3 then 4 else 8
  let m : Int := (gridMags b3).getD (c % k) 0
  if c / k % 2 = 1 then -m else m

/-- Encode `r` to a grid (R153): thresholds exact, a value on one takes the index whose low bit is 0. -/
def gridEncode (b3 : Bool) (r : Word) : Nat :=
  match f32 r with
  | .fin neg m e =>
    let past := fun (t : Nat × Nat) =>
      let c := fpCmp (.fin false m e) (.fin false t.1 (-15))
      decide (c > 0 ∨ (c = 0 ∧ t.2 % 2 = 1))
    let i := ((gridThr b3).zipIdx.filter past).length
    if i = 0 then 0 else i + (if neg then (if b3 then 4 else 8) else 0)
  | _ => 0

/-- The value of an S8 code: mantissa and exponent (R150). -/
def s8Val (c : Nat) : Nat × Int :=
  let e := c / 8 % 32
  if e = 0 then (c % 8, -17) else (c % 8 + 8, (e : Int) - 18)

/-- The S8 code nearest to `t`, ties to even, and its event (R153, R163). -/
def s8Encode (t : Word) : Nat × List QEvent :=
  match f32 t with
  | .fin _ m e =>
    if fpCmp (.fin false m e) (.fin false 122880 0) > 0 then (0xFF, [.kvSat])
    else
      let (r, u) := roundPos 3 (-14) m 1 e
      let (r, u) := if r = 16 then (8, u + 1) else (r, u)
      let c := if r < 8 then r else (u + 18).toNat * 8 + (r - 8)
      (c, if c = 0 && m != 0 then [.kvUflow] else [])
  | _ => (0xFF, [.kvSat])

/-- The second-level scale's exponent from a first group's amax (R158). -/
def s2Exp (a0 : Word) : Int :=
  match f32 a0 with
  | .fin _ m e =>
    if m = 0 then -8
    else
      let l := floorLog2Q m 1
      let up : Int := if m = 2 ^ l.toNat then 0 else 1
      clampI (-24) 15 (l + e + up - 8)
  | _ => -8

/-- The FP16 code of `2^e` (R158). -/
def f16Pow2 (e : Int) : Nat := fpRoundQ 5 10 false 1 1 e

/-- The second-level scale that a folio's first group sets, as FP16 (R158). -/
def s2Of (g : List Word) : Nat := if hasNonFinite g then f16Pow2 (-8) else f16Pow2 (s2Exp (f32Amax g))

/-- A group's stored form: s1 and 64 codes, with events (R159, R161, R163). -/
def kvEncode (b3 : Bool) (s2 : Nat) (g : List Word) : Nat × List Nat × List QEvent :=
  let zero := g.map (fun _ => 0)
  if hasNonFinite g then (0, zero, [.kvNan])
  else
    let t := f32Div (f32Amax g) (f16to32 s2)
    let amax := f32Amax g
    let (s1, ev) := s8Encode t
    let ev := if s1 = 0 && amax != 0 then [.kvUflow] else ev
    if s1 = 0 then (0, zero, ev)
    else
      let (m, e) := s8Val s1
      let sc := f32Mul (toF32 (.fin false m e)) (f16to32 s2)
      (s1, g.map (fun x => gridEncode b3 (f32Div x sc)), ev)

/-- The stored bytes of a group: codes, 32 B or 24 B (R144, R157). -/
def kvBytes (b3 : Bool) (codes : List Nat) : Bytes :=
  if b3 then leBytes 24 (packNat 3 codes) else leBytes 32 (packNat 4 codes)

/-! ### Rotation (R154) -/

/-- One butterfly stage of stride `h`: element `i` becomes the sum or the difference of its pair. -/
def butterfly (h : Nat) (xs : List Word) : List Word :=
  (List.range xs.length).map (fun i =>
    if i / h % 2 = 0 then f32Add (xs.getD i 0) (xs.getD (i + h) 0)
    else f32Add (xs.getD (i - h) 0) (f32Negate (xs.getD i 0)))

/-- The strides of a transform of order `b`. -/
def strides (b : Nat) : List Nat :=
  let up := (List.range (Nat.log2 b)).map (fun i => 2 ^ i)
  if Config.rotDescending then up.reverse else up

/-- Rotation of one block of `b` values by H_b / √b (R154). -/
def rotateBlock (b : Nat) (xs : List Word) : List Word :=
  let sc := toF32 (.fin false 1 (-((Nat.log2 b / 2 : Nat) : Int)))
  let xs := if Config.rotScaleFirst then xs.map (fun x => f32Mul x sc) else xs
  let xs := (strides b).foldl (fun xs h => butterfly h xs) xs
  if Config.rotScaleFirst then xs else xs.map (fun x => f32Mul x sc)

/-- Block-diagonal rotation of a vector (R156); `b = 1` is none. -/
def rotateVec (b : Nat) (xs : List Word) : List Word :=
  if b ≤ 1 then xs else (chunks b xs.length xs).flatMap (rotateBlock b)

/-! ### Input ranging (R164 to R166) -/

/-- `amax / k` rounded toward +∞ to FP16, at most 65,504 (R164). -/
def rangeScale (amax : Word) (k : Nat) : Nat :=
  match f32 amax with
  | .fin _ m e =>
    let (r, u) := roundPos 10 (-14) m k e true
    let c := fpPack 5 10 false r u
    if c ≥ 0x7C00 then 0x7BFF else c
  | _ => 0x7BFF

/-- A ranged vector: FP16 scale, integer inputs and events. -/
def rangeVec (xs : List Word) (int8 : Bool) : Nat × List Int × List QEvent :=
  let k : Nat := if int8 then 127 else 7
  let sx := rangeScale (f32Amax xs) k
  let q := xs.map (fun x =>
    if sx = 0 then ((0 : Int), []) else narrowInt (-(k : Int)) k (f32 (f32Div x (f16to32 sx))))
  (sx, q.map (·.1), q.flatMap (·.2))

end Sys2Proof.Machine
end

