-- ==== Sys2Proof/Machine/Approx.lean ====
section
/-! DEFINITION. The functions that the spec bounds rather than fixes: activations (R183) and row-wise operations (R184 to
R186). The exact result is enclosed with 128 fraction bits; the result taken is a free value where it lies within the
tolerance of the spec, and the correctly rounded value otherwise. -/

namespace Sys2Proof.Machine

/-- Fraction bits of the enclosure. -/
def fxBits : Nat := 128

/-- One, in fixed point. -/
def fxOne : Int := 2 ^ fxBits

/-- ln 2 · 2^128. -/
def fxLn2 : Int := 235865763225513294137944142764154484399

/-- A dyadic value in fixed point, magnitude at most 256. -/
def toFx (neg : Bool) (m : Nat) (e : Int) : Int :=
  let sh := e + fxBits
  let n : Nat := if 0 ≤ sh then (if floorLog2Q (max m 1) 1 + e > 8 then 2 ^ (fxBits + 8) else m * 2 ^ sh.toNat)
    else m / 2 ^ (-sh).toNat
  let n : Int := min n (2 ^ (fxBits + 8))
  if neg then -n else n

/-- Taylor sum of `e^r` for `0 ≤ r < 1` in fixed point: terms `n` to 40. -/
def expSeries (r : Int) : Nat → Nat → Int → Int → Int
  | 0, _, _, acc => acc
  | fuel + 1, n, term, acc =>
    let t := term * r / (fxOne * (n : Int))
    expSeries r fuel (n + 1) t (acc + t)

/-- `e^y` for fixed-point `y`: a mantissa in fixed point and a power of two. -/
def expFx (y : Int) : Int × Int :=
  let k := y / fxLn2
  (expSeries (y - k * fxLn2) 40 1 fxOne fxOne, k)

/-- A rational `num / den` with `den > 0`. -/
abbrev Ratio := Int × Nat

/-- `e^y` as a rational. -/
def expQ (y : Int) : Ratio :=
  let (m, k) := expFx y
  if 0 ≤ k then (m * 2 ^ k.toNat, 2 ^ fxBits) else (m, 2 ^ (fxBits + (-k).toNat))

/-- Product of rationals. -/
def Ratio.mul (a b : Ratio) : Ratio := (a.1 * b.1, a.2 * b.2)

/-- Sum of rationals. -/
def Ratio.add (a b : Ratio) : Ratio :=
  if a.2 = b.2 then (a.1 + b.1, a.2) else (a.1 * b.2 + b.1 * a.2, a.2 * b.2)

/-- `a / b` for a positive `b`. -/
def Ratio.div (a b : Ratio) : Ratio := (a.1 * b.2, a.2 * b.1.toNat)

/-- The exact rational value of a finite FP32 word, 0 for one that is not finite. -/
def ratioOf (w : Word) : Ratio :=
  match f32 w with
  | .fin neg m e =>
    let m : Int := if neg then -(m : Int) else m
    if 0 ≤ e then (m * 2 ^ e.toNat, 1) else (m, 2 ^ (-e).toNat)
  | _ => (0, 1)

/-- The exact value over the common denominator 2^149, 0 for a word that is not finite. -/
def ratio149 (w : Word) : Ratio :=
  match f32 w with
  | .fin neg m e => (dyInt neg m e (-149), 2 ^ 149)
  | _ => (0, 2 ^ 149)

/-- A rational rounded to FP32 under RNE. -/
def Ratio.round (a : Ratio) : Word := BitVec.ofNat 32 (fpRoundQ 8 23 (decide (a.1 < 0)) a.1.natAbs a.2 0)

/-- `|a - b| ≤ c` for `c` not negative. -/
def Ratio.within (a b c : Ratio) : Bool :=
  let d := (a.1 * b.2 - b.1 * a.2).natAbs
  decide (d * c.2 ≤ c.1.toNat * (a.2 * b.2))

/-- `k` units in the last place of FP32 at a rational. -/
def ulpsAt (k : Nat) (a : Ratio) : Ratio :=
  let l : Int := if a.1 = 0 then -126 else max (floorLog2Q a.1.natAbs a.2) (-126)
  let e := l - 23
  if 0 ≤ e then ((k : Int) * 2 ^ e.toNat, 1) else (k, 2 ^ (-e).toNat)

/-! ### Activations (R183) -/

/-- `1 / (1 + e^(-z))`, exact to the enclosure. -/
def sigmoidQ (z : Int) : Ratio :=
  let e := expQ (-z)
  ((e.2 : Int), e.2 + e.1.toNat)

/-- `tanh z = 2 / (1 + e^(-2 z)) - 1`. -/
def tanhQ (z : Int) : Ratio :=
  let s := sigmoidQ (2 * z)
  (2 * s.1 - s.2, s.2)

/-- The GELU argument `0.7978845608 · (z + 0.044715 · z³)` in fixed point, limited to ±256. -/
def geluArg (z : Ratio) : Int :=
  let z3 := Ratio.mul z (Ratio.mul z z)
  let u := Ratio.mul (7978845608, 10000000000) (Ratio.add z (Ratio.mul (44715, 1000000) z3))
  clampI (-256 * fxOne) (256 * fxOne) (u.1 * fxOne / (u.2 : Int))

/-- The exact activation of a finite argument, codes 2 to 5. -/
def actExact (code : Nat) (w : Word) : Ratio :=
  let z := ratioOf w
  let fx := match f32 w with | .fin neg m e => toFx neg m e | _ => 0
  match code with
  | 2 => Ratio.mul (Ratio.mul (1, 2) z) (Ratio.add (1, 1) (tanhQ (geluArg z)))
  | 3 => Ratio.mul z (sigmoidQ fx)
  | 4 => tanhQ fx
  | _ => sigmoidQ fx

/-- The tolerance of R183: 2 ulp of FP32 or 2^−30, whichever is larger. -/
def actOk (exact : Ratio) (w : Word) : Bool :=
  f32Finite w && (Ratio.within (ratioOf w) exact (ulpsAt 2 exact) || Ratio.within (ratioOf w) exact (1, 2 ^ 30))

/-- The activation of `z` (R183). -/
def activate (code : Nat) (z : Word) : Word :=
  match f32 z with
  | .nan neg => toF32 (.nan neg)
  | .inf neg =>
    match code with
    | 0 => z
    | 1 => if neg then 0 else z
    | 2 => if neg then 0x80000000 else z
    | 3 => if neg then 0x80000000 else z
    | 4 => if neg then 0xBF800000 else 0x3F800000
    | _ => if neg then 0 else 0x3F800000
  | .fin neg m _ =>
    match code with
    | 0 => z
    | 1 => if neg then 0 else z
    | _ =>
      if m = 0 ∧ neg then (if code = 5 then 0x3F000000 else 0x80000000)
      else
        let x := actExact code z
        let p := Config.actPick code z
        if actOk x p then p else x.round

/-! ### Row-wise operations (R184 to R186) -/

/-- Order-preserving integer of an FP32 word. -/
def f32Ord (w : Word) : Int := if f32Neg w then -((f32Abs w).toNat : Int) else ((f32Abs w).toNat : Int)

/-- An output within 4 ulp of the exactly rounded result `r` (R184). -/
def rowPick (op : Nat) (row : List Word) (i : Nat) (r : Word) : Word :=
  let p := Config.rowPick op row i
  if f32Finite p && decide ((f32Ord p - f32Ord r).natAbs ≤ 4) then p else r

/-- Softmax of a row (R185). -/
def softmaxRow (row : List Word) : List Word :=
  if row.any f32IsNaN then row.map (fun _ => canonNaN)
  else
    let isInf := fun (neg : Bool) (x : Word) => decide (f32 x = .inf neg)
    let np := (row.filter (isInf false)).length
    if np ≠ 0 then row.map (fun x => if isInf false x then Ratio.round (1, np) else 0)
    else
      match row.filter f32Finite with
      | [] => row.map (fun _ => 0)
      | x0 :: xs =>
        let m := xs.foldl (fun m x => if fpCmp (f32 x) (f32 m) > 0 then x else m) x0
        let fx := fun w => match f32 w, f32 m with
          | .fin nx mx ex, .fin nm mm em =>
            let u := min ex em
            let d := dyInt nx mx ex u - dyInt nm mm em u
            toFx (decide (d < 0)) d.natAbs u
          | _, _ => 0
        let es := row.map (fun x => if isInf true x then ((0 : Int), 1) else expQ (fx x))
        let sum : Ratio := (es.foldl (fun a e => a + e.1 * fxOne / (e.2 : Int)) 0, 2 ^ fxBits)
        (row.zip es).zipIdx.map (fun ((x, e), i) =>
          if isInf true x then 0 else rowPick 0 row i (Ratio.div e sum).round)

/-- The integer square root by bits, `fuel` bits from the top. -/
def isqrtGo (n : Nat) : Nat → Nat → Nat
  | 0, r => r
  | fuel + 1, r =>
    let t := r + 2 ^ fuel
    isqrtGo n fuel (if t * t ≤ n then t else r)

/-- The integer square root. -/
def isqrt (n : Nat) : Nat := isqrtGo n (Nat.log2 n / 2 + 1) 0

/-- The square root of a rational, to 2^−128 of its value or better. -/
def sqrtQ (a : Ratio) : Ratio :=
  let t := 300
  ((isqrt (a.1.toNat * a.2 * 4 ^ t) : Nat), a.2 * 2 ^ t)

/-- The mean of a list of rationals over `n` elements. -/
def meanQ (xs : List Ratio) : Ratio :=
  match xs with
  | [] => (0, 1)
  | x :: rest =>
    let s := rest.foldl Ratio.add x
    (s.1, s.2 * xs.length)

/-- Layer norm or RMS norm of a row (R186): `beta` is empty for RMS norm. -/
def normRow (op : Nat) (row gamma beta : List Word) (eps : Word) : List Word :=
  if hasNonFinite row then row.map (fun _ => canonNaN)
  else
    let xs := row.map ratio149
    let mu : Ratio := if op = 1 then meanQ xs else (0, 1)
    let ds := xs.map (fun x => Ratio.add x (-mu.1, mu.2))
    let v := Ratio.add (meanQ (ds.map (fun d => Ratio.mul d d))) (ratioOf eps)
    let sd := sqrtQ v
    (ds.zipIdx).map (fun (d, i) =>
      if v.1 = 0 then (if op = 1 then beta.getD i 0 else 0)
      else
        let t := Ratio.mul (Ratio.div d sd) (ratioOf (gamma.getD i 0))
        rowPick op row i (if op = 1 then Ratio.add t (ratioOf (beta.getD i 0)) else t).round)

/-- A row-wise operation (R184). -/
def rowWise (op : RowOp) (row : List Word) : List Word :=
  match op with
  | .softmax => softmaxRow row
  | .layerNorm g b eps => normRow 1 row g b eps
  | .rmsNorm g eps => normRow 2 row g [] eps

/-! ### Top-k (R187) -/

/-- Element `a` at position `i` ranks above element `b` at position `j` (R187). -/
def ranksAbove (a : FpVal) (i : Nat) (b : FpVal) (j : Nat) : Bool :=
  match a, b with
  | .nan _, .nan _ => decide (i < j)
  | .nan _, _ => false
  | _, .nan _ => true
  | _, _ => decide (fpCmp a b > 0) || (fpCmp a b == 0 && decide (i < j))

/-- The best element of a row. -/
def bestOf : List (FpVal × Nat) → Option (FpVal × Nat)
  | [] => none
  | x :: xs =>
    match bestOf xs with
    | none => some x
    | some y => if ranksAbove x.1 x.2 y.1 y.2 then some x else some y

/-- The `k` best elements in rank order. -/
def topGo : Nat → List (FpVal × Nat) → List (FpVal × Nat)
  | 0, _ => []
  | k + 1, xs =>
    match bestOf xs with
    | none => []
    | some b => b :: topGo k (xs.filter (fun x => x.2 != b.2))

/-- The format is an integer row format (R187). -/
def fmtIsInt (f : Fmt) : Bool := (intEnds f).isSome

/-- The top-k entries of a row of codes (R187): value words and positions. -/
def topK (f : Fmt) (row : List Word) (k : Nat) : List TopEntry :=
  let xs := (row.map (fun w => decodeElem f w.toNat)).zipIdx
  let got := (topGo k xs).map (fun (v, i) =>
    (⟨if fmtIsInt f then BitVec.ofInt 32 (fpToInt v) else toF32 v, BitVec.ofNat 16 i⟩ : TopEntry))
  got ++ List.replicate (k - got.length) ⟨if fmtIsInt f then 0x80000000 else 0xFF800000, 0xFFFF⟩

/-- The 8 bytes of a top-k entry. -/
def topBytes (t : TopEntry) : Bytes := leBytes 4 t.value.toNat ++ leBytes 2 t.pos.toNat ++ leBytes 2 0

end Sys2Proof.Machine
end

