-- ==== Sys2Proof/Machine/Codes.lean ====
section
/-! DEFINITION. The error codes of the spec (R10, R11 and the table of each chapter's area), the source IDs and reporters
of R415, and the severity of a code (R417). -/

namespace Sys2Proof.Machine

namespace E

/-- OK (R11). -/
def ok : Nat := 0x0000
/-- GEN_BAD_OPCODE (R11). -/
def genBadOpcode : Nat := 0x0001
/-- GEN_BAD_LENGTH (R11). -/
def genBadLength : Nat := 0x0002
/-- GEN_BUSY (R11). -/
def genBusy : Nat := 0x0003
/-- GEN_LOCKED (R11). -/
def genLocked : Nat := 0x0004
/-- GEN_BAD_ADDRESS (R11). -/
def genBadAddress : Nat := 0x0005
/-- GEN_DENIED (R11). -/
def genDenied : Nat := 0x0006
/-- GEN_BAD_PARAM (R11). -/
def genBadParam : Nat := 0x0007
/-- BOOT_FLASH_SFDP (R454). -/
def bootFlashSfdp : Nat := 0x1001
/-- BOOT_FLASH_SIZE (R454). -/
def bootFlashSize : Nat := 0x1002
/-- BOOT_COLOPHON_BAD (R454). -/
def bootColophonBad : Nat := 0x1003
/-- BOOT_FW_SIG (R454). -/
def bootFwSig : Nat := 0x1004
/-- BOOT_FW_HASH (R454). -/
def bootFwHash : Nat := 0x1005
/-- BOOT_FW_ROLLBACK (R454). -/
def bootFwRollback : Nat := 0x1006
/-- BOOT_KEY_MISMATCH (R454). -/
def bootKeyMismatch : Nat := 0x1007
/-- BOOT_CFG_SIG (R454). -/
def bootCfgSig : Nat := 0x1008
/-- BOOT_FW_BINDING (R454). -/
def bootFwBinding : Nat := 0x1009
/-- BOOT_CFG_HASH (R454). -/
def bootCfgHash : Nat := 0x100A
/-- BOOT_CFG_ROLLBACK (R454). -/
def bootCfgRollback : Nat := 0x100B
/-- BOOT_CFG_FIELDS (R454). -/
def bootCfgFields : Nat := 0x100C
/-- BOOT_LOCK_VERIFY (R454). -/
def bootLockVerify : Nat := 0x100D
/-- BOOT_PKG_FALLBACK (R454). -/
def bootPkgFallback : Nat := 0x100E
/-- BOOT_NO_PACKAGE (R454). -/
def bootNoPackage : Nat := 0x100F
/-- BOOT_WEIGHTS_STALE (R454). -/
def bootWeightsStale : Nat := 0x1010
/-- BOOT_FLASH_VERIFY (R489). -/
def bootFlashVerify : Nat := 0x1011
/-- BOOT_VREF_MODE (R513). -/
def bootVrefMode : Nat := 0x1012
/-- SEC_KEY_ENROLLED (R454). -/
def secKeyEnrolled : Nat := 0x1101
/-- SEC_IDENTITY_BAD (R454). -/
def secIdentityBad : Nat := 0x1102
/-- SEC_DEBUG_UNLOCKED (R454). -/
def secDebugUnlocked : Nat := 0x1103
/-- SEC_DEBUG_REFUSED (R454). -/
def secDebugRefused : Nat := 0x1104
/-- LDR_BAD_MAGIC (R228). -/
def ldrBadMagic : Nat := 0x2001
/-- LDR_BAD_VERSION (R228). -/
def ldrBadVersion : Nat := 0x2002
/-- LDR_BAD_HASH (R228). -/
def ldrBadHash : Nat := 0x2003
/-- LDR_SLOT_FIELDS (R228). -/
def ldrSlotFields : Nat := 0x2004
/-- LDR_SLOT_HASH (R228). -/
def ldrSlotHash : Nat := 0x2005
/-- LDR_IMAGE_HASH (R228). -/
def ldrImageHash : Nat := 0x2006
/-- LDR_TOO_LARGE (R228). -/
def ldrTooLarge : Nat := 0x2007
/-- MAP_BLOCK_SHAPE (R228). -/
def mapBlockShape : Nat := 0x2101
/-- MAP_PLACE_RANGE (R228). -/
def mapPlaceRange : Nat := 0x2102
/-- MAP_PLACE_OVERLAP (R228). -/
def mapPlaceOverlap : Nat := 0x2103
/-- MAP_ALIGN (R228). -/
def mapAlign : Nat := 0x2104
/-- MAP_BUF_SIZE (R228). -/
def mapBufSize : Nat := 0x2105
/-- MAP_TASK_COUNT (R228). -/
def mapTaskCount : Nat := 0x2106
/-- MAP_ACCUM_SHORT (R228). -/
def mapAccumShort : Nat := 0x2107
/-- MAP_DESC_BAD (R228). -/
def mapDescBad : Nat := 0x2108
/-- MAP_DESC_COVER (R228). -/
def mapDescCover : Nat := 0x2109
/-- MAP_L1_OVER (R228). -/
def mapL1Over : Nat := 0x210A
/-- MAP_L2_OVER (R228). -/
def mapL2Over : Nat := 0x210B
/-- MAP_BUCKET_SET (R228). -/
def mapBucketSet : Nat := 0x210C
/-- MAP_FORMAT (R228). -/
def mapFormat : Nat := 0x210D
/-- MAP_CODE (R228). -/
def mapCode : Nat := 0x210E
/-- MAP_REPLICA_SHAPE (R228). -/
def mapReplicaShape : Nat := 0x210F
/-- MAP_PTR_BAD (R228). -/
def mapPtrBad : Nat := 0x2110
/-- MAP_NO_PLAN (R228). -/
def mapNoPlan : Nat := 0x2111
/-- MAP_STATE_OP (R228). -/
def mapStateOp : Nat := 0x2112
/-- DSP_TASK_TIMEOUT (R296). -/
def dspTaskTimeout : Nat := 0x3001
/-- DSP_TEARDOWN_TIMEOUT (R296). -/
def dspTeardownTimeout : Nat := 0x3002
/-- DSP_INSTANCE_FULL (R296). -/
def dspInstanceFull : Nat := 0x3003
/-- DSP_NO_COPY (R296). -/
def dspNoCopy : Nat := 0x3004
/-- DSP_CTX_STATE (R296). -/
def dspCtxState : Nat := 0x3005
/-- DSP_CAT_ORDER (R296). -/
def dspCatOrder : Nat := 0x3006
/-- DSP_SAVE_AREA (R296). -/
def dspSaveArea : Nat := 0x3007
/-- DSP_ACC_TAG_MISMATCH (R195). -/
def dspAccTagMismatch : Nat := 0x3180
/-- DSP_ACC_RESTORE_BAD (R195). -/
def dspAccRestoreBad : Nat := 0x3181
/-- DSP_ACC_RESTORE_STALE (R195). -/
def dspAccRestoreStale : Nat := 0x3182
/-- TIL_CFG_WHILE_ISSUING (R77). -/
def tilCfgWhileIssuing : Nat := 0x4001
/-- TIL_TEST_REFUSED (R77). -/
def tilTestRefused : Nat := 0x4002
/-- CAL_FACTORY_CRC (R142). -/
def calFactoryCrc : Nat := 0x4101
/-- CAL_DEVICE_CRC (R142). -/
def calDeviceCrc : Nat := 0x4102
/-- CAL_GRAFT_CRC (R142). -/
def calGraftCrc : Nat := 0x4103
/-- CAL_GRAFT_RANGE (R142). -/
def calGraftRange : Nat := 0x4104
/-- CAL_CACHE_STALE (R142). -/
def calCacheStale : Nat := 0x4105
/-- CAL_TRIM_CLAMP (R142). -/
def calTrimClamp : Nat := 0x4106
/-- CAL_PIP_LADDER (R142). -/
def calPipLadder : Nat := 0x4107
/-- CAL_VREAD_RANGE (R142). -/
def calVreadRange : Nat := 0x4108
/-- CAL_WEAK_COLUMN (R142). -/
def calWeakColumn : Nat := 0x4109
/-- CAL_SIG_MISSING (R142). -/
def calSigMissing : Nat := 0x410A
/-- CAL_PROG_FAILED (R142). -/
def calProgFailed : Nat := 0x4180
/-- CAL_WEAR_WARN (R142). -/
def calWearWarn : Nat := 0x4181
/-- CAL_RELIEF_WITHHELD (R142). -/
def calReliefWithheld : Nat := 0x4182
/-- CAL_TILE_RETIRED (R142). -/
def calTileRetired : Nat := 0x4183
/-- CAL_RELIEF_EXHAUSTED (R142). -/
def calReliefExhausted : Nat := 0x4184
/-- CAL_JOB_RESUMED (R142). -/
def calJobResumed : Nat := 0x4185
/-- CAL_REFRESH_ABANDONED (R142). -/
def calRefreshAbandoned : Nat := 0x4186
/-- CAL_REPAIR_SHORT (R142). -/
def calRepairShort : Nat := 0x4187
/-- STK_FULL (R269). -/
def stkFull : Nat := 0x5001
/-- STK_GROW_FAIL (R269). -/
def stkGrowFail : Nat := 0x5002
/-- STK_UE_FOLIO (R269). -/
def stkUeFolio : Nat := 0x5003
/-- STK_UE_FREE (R269). -/
def stkUeFree : Nat := 0x5004
/-- STK_UE_DIR (R269). -/
def stkUeDir : Nat := 0x5005
/-- STK_UE_ARCHIVE (R269). -/
def stkUeArchive : Nat := 0x5006
/-- STK_UE_BUFFER (R269). -/
def stkUeBuffer : Nat := 0x5007
/-- STK_RETIRE_LIST_FULL (R269). -/
def stkRetireListFull : Nat := 0x5008
/-- STK_CHANNEL_FAILED (R269). -/
def stkChannelFailed : Nat := 0x5009
/-- STK_JOIN_REFUSED (R269). -/
def stkJoinRefused : Nat := 0x500A
/-- STK_XFER_REFUSED (R269). -/
def stkXferRefused : Nat := 0x500B
/-- STK_XFER_LAYOUT (R269). -/
def stkXferLayout : Nat := 0x500C
/-- STK_XFER_TIMEOUT (R269). -/
def stkXferTimeout : Nat := 0x500D
/-- STK_XFER_BAD (R269). -/
def stkXferBad : Nat := 0x500E
/-- STK_FORCE_CLOSE (R269). -/
def stkForceClose : Nat := 0x500F
/-- PRT_TRAIN_FAIL (R356). -/
def prtTrainFail : Nat := 0x6001
/-- PRT_ACCESSION_BAD (R356). -/
def prtAccessionBad : Nat := 0x6002
/-- PRT_KIND_MISMATCH (R356). -/
def prtKindMismatch : Nat := 0x6003
/-- PRT_CV_UNSUPPORTED (R356). -/
def prtCvUnsupported : Nat := 0x6004
/-- PRT_PARTNER_CHANGED (R356). -/
def prtPartnerChanged : Nat := 0x6005
/-- PRT_PARTNER_LOCKED (R356). -/
def prtPartnerLocked : Nat := 0x6006
/-- PRT_DETACHED (R356). -/
def prtDetached : Nat := 0x6007
/-- PRT_GEOMETRY (R356). -/
def prtGeometry : Nat := 0x6008
/-- PRT_PEER_UNKNOWN (R356). -/
def prtPeerUnknown : Nat := 0x6009
/-- PRT_HOP_LIMIT (R356). -/
def prtHopLimit : Nat := 0x600A
/-- PRT_FM_LOST (R356). -/
def prtFmLost : Nat := 0x600B
/-- PRT_HEAD_REPORT (R356). -/
def prtHeadReport : Nat := 0x600C
/-- LCK_ENC_ERROR (R329). -/
def lckEncError : Nat := 0x7001
/-- LCK_SLOT_FULL (R329). -/
def lckSlotFull : Nat := 0x7002
/-- LCK_EVENT_MISSED (R329). -/
def lckEventMissed : Nat := 0x7003
/-- LCK_MAINS_LOST (R329). -/
def lckMainsLost : Nat := 0x7004
/-- LCK_LANE_CFG (R329). -/
def lckLaneCfg : Nat := 0x7005
/-- ACT_SPAN_CLIPPED (R329). -/
def actSpanClipped : Nat := 0x7101
/-- ACT_RATE_DROP (R329). -/
def actRateDrop : Nat := 0x7102
/-- ACT_LATE_OPEN (R329). -/
def actLateOpen : Nat := 0x7103
/-- ACT_BOARD_REPORT (R329). -/
def actBoardReport : Nat := 0x7104
/-- ACT_CLASS_RANGE (R329). -/
def actClassRange : Nat := 0x7105
/-- ACT_SAFE_ENTERED (R329). -/
def actSafeEntered : Nat := 0x7106
/-- PWR_LOADSTEP_NOACK (R397). -/
def pwrLoadstepNoack : Nat := 0x8001
/-- PWR_LIMIT_THROTTLE (R397). -/
def pwrLimitThrottle : Nat := 0x8002
/-- PWR_DOMAIN_FAIL (R397). -/
def pwrDomainFail : Nat := 0x8003
/-- PWR_RAIL_RANGE (R397). -/
def pwrRailRange : Nat := 0x8004
/-- THM_WARN (R397). -/
def thmWarn : Nat := 0x8101
/-- THM_THROTTLE (R397). -/
def thmThrottle : Nat := 0x8102
/-- THM_STOP (R397). -/
def thmStop : Nat := 0x8103
/-- THM_TRIP (R397). -/
def thmTrip : Nat := 0x8104
/-- THM_SENSOR_FAIL (R397). -/
def thmSensorFail : Nat := 0x8105
/-- THM_MON_XCHK (R377). -/
def thmMonXchk : Nat := 0x8201
/-- THM_MON_SELFCAL (R377). -/
def thmMonSelfcal : Nat := 0x8202
/-- THM_MON_CFG (R377). -/
def thmMonCfg : Nat := 0x8203
/-- PST_TORN (R472). -/
def pstTorn : Nat := 0x9001
/-- PST_WRITE_FAIL (R472). -/
def pstWriteFail : Nat := 0x9002
/-- PST_RECORD_LOST (R472). -/
def pstRecordLost : Nat := 0x9003
/-- PST_WEAK_REWRITE (R472). -/
def pstWeakRewrite : Nat := 0x9004
/-- PST_COUNTER_REPAIR (R472). -/
def pstCounterRepair : Nat := 0x9005
/-- PST_REGION_LOCKED (R472). -/
def pstRegionLocked : Nat := 0x9006
/-- PST_COUNTER_MAX (R472). -/
def pstCounterMax : Nat := 0x9007
/-- FLT_ENGINE_FENCED (R425). -/
def fltEngineFenced : Nat := 0xA001
/-- FLT_ENGINE_RESET_HANG (R425). -/
def fltEngineResetHang : Nat := 0xA002
/-- FLT_CORE_CYCLED (R425). -/
def fltCoreCycled : Nat := 0xA003
/-- FLT_CORE_FENCED (R425). -/
def fltCoreFenced : Nat := 0xA004
/-- FLT_FENCE_HANG (R425). -/
def fltFenceHang : Nat := 0xA005
/-- FLT_DRR (R425). -/
def fltDrr : Nat := 0xA006
/-- FLT_WATCHDOG (R425). -/
def fltWatchdog : Nat := 0xA007
/-- FLT_AGG_OVERFLOW (R425). -/
def fltAggOverflow : Nat := 0xA008
/-- FLT_DUMP_INVALID (R425). -/
def fltDumpInvalid : Nat := 0xA009
/-- FLT_SUMMARY (R425). -/
def fltSummary : Nat := 0xA00A
/-- FLT_RECOVERED (R425). -/
def fltRecovered : Nat := 0xA00B
/-- FLT_LOG_DROPPED (R425). -/
def fltLogDropped : Nat := 0xA00C
/-- FLT_DRR_LIMIT (R425). -/
def fltDrrLimit : Nat := 0xA00D

end E

namespace Src

/-- Engine `e` of core `c` (R415). -/
def engine (c e : Nat) : Nat := 8 * c + e
/-- Core `c`. -/
def core (c : Nat) : Nat := 0x1000 + c
/-- Stacks channel. -/
def channel (ch : Nat) : Nat := 0x2000 + ch
/-- Port. -/
def port (p : Nat) : Nat := 0x3000 + p
/-- Context. -/
def ctx (x : Nat) : Nat := 0x4000 + x
/-- Tile `t` of core `c`. -/
def tile (c t : Nat) : Nat := 0x5000 + 68 * c + t
/-- Power domain. -/
def domain (d : Nat) : Nat := 0x6000 + d
/-- Temperature sensor. -/
def sensor (i : Nat) : Nat := 0x7000 + i
/-- Peer member, by fabric index. -/
def peer (i : Nat) : Nat := 0x8000 + i
/-- Lane. -/
def lane (l : Nat) : Nat := 0x9000 + l
/-- Shelf. -/
def shelf (s : Nat) : Nat := 0xA000 + s
/-- The device. -/
def device : Nat := 0xB000

end Src

namespace Rep

/-- Engine `e` of core `c` reports (R415). -/
def engine (c e : Nat) : Nat := 8 * c + e
/-- HBM controller of a stack. -/
def hbm (stack : Nat) : Nat := 128 + stack
/-- Port. -/
def port (p : Nat) : Nat := 132 + p
/-- Dispatcher. -/
def dispatcher : Nat := 140
/-- Folio allocator and release engine. -/
def allocator : Nat := 141
/-- Line clock. -/
def lineClock : Nat := 142
/-- Power sequencer. -/
def power : Nat := 143
/-- Thermal control. -/
def thermal : Nat := 144
/-- Monitor converters. -/
def monitor : Nat := 145
/-- Parameter store. -/
def store : Nat := 146
/-- Security engine. -/
def security : Nat := 147
/-- Firmware on control core `n`. -/
def fw (n : Nat) : Nat := 148 + n
/-- Peer link. -/
def peerLink : Nat := 152
/-- Mailbox. -/
def mailbox : Nat := 153

end Rep

/-- Codes of severity 3 (R417): they start a device recovery reset, an orderly stop or a hard trip, can end a boot in boot
hold (R443), or leave the device STOPPED. -/
def fatalCodes : List Nat :=
  [E.bootFlashSfdp, E.bootColophonBad, E.bootFwSig, E.bootFwHash, E.bootFwRollback, E.bootKeyMismatch, E.bootCfgSig,
   E.bootFwBinding, E.bootCfgHash, E.bootCfgRollback, E.bootCfgFields, E.bootLockVerify, E.bootVrefMode, E.lckLaneCfg,
   E.pwrRailRange, E.thmStop, E.thmTrip, E.fltFenceHang, E.fltDrr, E.fltWatchdog, E.fltDrrLimit]

/-- Codes of severity 2 (R417): they default an object, prevent or free a due output, retire a folio, page, channel or
tile, fence an engine or core, or fault a context. -/
def errorCodes : List Nat :=
  [E.dspTaskTimeout, E.dspTeardownTimeout, E.dspNoCopy, E.dspAccTagMismatch, E.dspAccRestoreBad, E.dspAccRestoreStale,
   E.calFactoryCrc, E.calPipLadder, E.calTileRetired, E.calProgFailed, E.calReliefWithheld, E.calRepairShort,
   E.stkFull, E.stkGrowFail, E.stkUeFolio, E.stkUeFree, E.stkUeDir, E.stkUeArchive, E.stkUeBuffer, E.stkChannelFailed,
   E.prtDetached, E.lckSlotFull, E.lckEventMissed, E.actRateDrop, E.actClassRange, E.actSafeEntered,
   E.fltEngineFenced, E.fltEngineResetHang, E.fltCoreCycled, E.fltCoreFenced, E.mapPtrBad]

/-- Codes of severity 0 (R417): completed work. -/
def infoCodes : List Nat :=
  [E.calJobResumed, E.fltRecovered, E.secKeyEnrolled, E.secDebugUnlocked, E.pstWeakRewrite, E.pstCounterRepair]

/-- The severity of a code (R417); a code of no list above changes no result and prevents no output: a warning. -/
def severity (code : Nat) : Nat :=
  if fatalCodes.contains code then 3 else if errorCodes.contains code then 2
  else if infoCodes.contains code then 0 else 1

end Sys2Proof.Machine
end

