-- ==== Sys2Proof/Machine/Crc.lean ====
section
/-! DEFINITION. The check-value algorithms of R340 and the CRC-32C of the stored records, one byte at a time. -/

namespace Sys2Proof.Machine

/-- Eight shifts of a reflected register. -/
def crcShiftR (poly : Nat) : Nat → Nat → Nat
  | 0, c => c
  | n + 1, c => crcShiftR poly n (if c % 2 = 1 then Nat.xor (c / 2) poly else c / 2)

/-- Eight shifts of an unreflected register of width `w`. -/
def crcShiftL (w poly : Nat) : Nat → Nat → Nat
  | 0, c => c
  | n + 1, c =>
    crcShiftL w poly n (if c / 2 ^ (w - 1) % 2 = 1 then Nat.xor (c * 2 % 2 ^ w) poly else c * 2 % 2 ^ w)

/-- Width of algorithm `alg`: 0 CRC-32, 1 CRC-32C, 2 CRC-16/CCITT, 3 CRC-8 (R340). -/
def crcWidth (alg : Nat) : Nat := match alg with | 2 => 16 | 3 => 8 | _ => 32

/-- Initial value (R340). -/
def crcInit (alg : Nat) : Nat := match alg with | 2 => 0xFFFF | 3 => 0 | _ => 0xFFFFFFFF

/-- Final XOR (R340). -/
def crcXor (alg : Nat) : Nat := match alg with | 2 => 0 | 3 => 0 | _ => 0xFFFFFFFF

/-- The running value after one more byte (R340). -/
def crcByte (alg : Nat) (c : Nat) (b : Byte) : Nat :=
  match alg with
  | 0 => crcShiftR 0xEDB88320 8 (Nat.xor c b.toNat)
  | 2 => crcShiftL 16 0x1021 8 (Nat.xor c (b.toNat * 256))
  | 3 => crcShiftL 8 0x07 8 (Nat.xor c b.toNat)
  | _ => crcShiftR 0x82F63B78 8 (Nat.xor c b.toNat)

/-- The running value after a sequence of bytes. -/
def crcRun (alg c : Nat) (bs : Bytes) : Nat := bs.foldl (crcByte alg) c

/-- The check value of a byte sequence (R340). -/
def crcOf (alg : Nat) (bs : Bytes) : Nat := Nat.xor (crcRun alg (crcInit alg) bs) (crcXor alg)

/-- CRC-32C of a byte sequence. -/
def crc32c (bs : Bytes) : Nat := crcOf 1 bs

end Sys2Proof.Machine
end

