-- ==== Sys2Proof/Machine/RegMap.lean ====
section
/-! DEFINITION. The management register map: every register of the spec's register tables
(R76, R140, R141, R168, R194, R268, R295, R328, R355, R375, R376, R396, R424, R453, R471, R487), its address,
its fields, and one row per register group with the access masks of R13 and its reset value (R16).
`R.x` is an address, `F.x` a field. -/

namespace Sys2Proof.Machine

/-- One row of the register map: a group of registers laid out at `base + i * s1 + j * s2` for `i < n1`, `j < n2`.
The masks name the bits of each access type of R13 (`rw`, `w1c`, `w1s`, `rwl`); every other bit is RO or reserved.
`keep` names the bits that the warm reset of a device recovery reset keeps (R17, R407). -/
structure RegRow where
  base : Nat
  n1 : Nat
  s1 : Nat
  n2 : Nat
  s2 : Nat
  rw : Nat
  w1c : Nat
  w1s : Nat
  rwl : Nat
  reset : Nat
  keep : Nat
  deriving DecidableEq, Repr

namespace R

/-! An index is taken modulo the number of units, so that every address lies in its own register group. -/

/-- TIL_SUMMARY (R76). -/
def tilSummary (c : Nat) : Nat := 0x100000 + c % 16 * 0x10000
/-- TIL_THRESH (R76). -/
def tilThresh (c : Nat) : Nat := 0x100004 + c % 16 * 0x10000
/-- TIL_TEST_CTRL (R76). -/
def tilTestCtrl (c : Nat) : Nat := 0x100008 + c % 16 * 0x10000
/-- TIL_TEST_COUNT (R76). -/
def tilTestCount (c : Nat) : Nat := 0x10000C + c % 16 * 0x10000
/-- TIL_TEST_SUM (R76). -/
def tilTestSum (c : Nat) : Nat := 0x100010 + c % 16 * 0x10000
/-- TIL_TEST_SSQ_LO (R76). -/
def tilTestSsqLo (c : Nat) : Nat := 0x100014 + c % 16 * 0x10000
/-- TIL_TEST_SSQ_HI (R76). -/
def tilTestSsqHi (c : Nat) : Nat := 0x100018 + c % 16 * 0x10000
/-- TIL_CTRL (R76). -/
def tilCtrl (c t : Nat) : Nat := 0x100100 + c % 16 * 0x10000 + t % 68 * 0x40
/-- TIL_STATE (R76). -/
def tilState (c t : Nat) : Nat := 0x100104 + c % 16 * 0x10000 + t % 68 * 0x40
/-- TIL_STATUS (R76). -/
def tilStatus (c t : Nat) : Nat := 0x100108 + c % 16 * 0x10000 + t % 68 * 0x40
/-- TIL_INT_EN (R76). -/
def tilIntEn (c t : Nat) : Nat := 0x10010C + c % 16 * 0x10000 + t % 68 * 0x40
/-- TIL_FIDELITY (R76). -/
def tilFidelity (c t : Nat) : Nat := 0x100110 + c % 16 * 0x10000 + t % 68 * 0x40
/-- TIL_SAT_COUNT (R76). -/
def tilSatCount (c t : Nat) : Nat := 0x100114 + c % 16 * 0x10000 + t % 68 * 0x40
/-- TIL_RECONV_COUNT (R76). -/
def tilReconvCount (c t : Nat) : Nat := 0x100118 + c % 16 * 0x10000 + t % 68 * 0x40
/-- TIL_PIP_GAIN (R76). -/
def tilPipGain (c t : Nat) : Nat := 0x10011C + c % 16 * 0x10000 + t % 68 * 0x40
/-- TIL_SAT_EVT (R76). -/
def tilSatEvt (c t : Nat) : Nat := 0x100120 + c % 16 * 0x10000 + t % 68 * 0x40
/-- TIL_STALL_EVT (R76). -/
def tilStallEvt (c t : Nat) : Nat := 0x100124 + c % 16 * 0x10000 + t % 68 * 0x40
/-- TIL_OVR_EVT (R76). -/
def tilOvrEvt (c t : Nat) : Nat := 0x100128 + c % 16 * 0x10000 + t % 68 * 0x40
/-- TIL_CFG_EVT (R76). -/
def tilCfgEvt (c t : Nat) : Nat := 0x10012C + c % 16 * 0x10000 + t % 68 * 0x40
/-- TIL_PIPF_EVT (R76). -/
def tilPipfEvt (c t : Nat) : Nat := 0x100130 + c % 16 * 0x10000 + t % 68 * 0x40
/-- TIL_BELOW_EVT (R76). -/
def tilBelowEvt (c t : Nat) : Nat := 0x100134 + c % 16 * 0x10000 + t % 68 * 0x40
/-- TIL_RANGE (R76). -/
def tilRange (c t : Nat) : Nat := 0x100138 + c % 16 * 0x10000 + t % 68 * 0x40
/-- TIL_GAP_AGE (R76). -/
def tilGapAge (c t : Nat) : Nat := 0x10013C + c % 16 * 0x10000 + t % 68 * 0x40
/-- CAL_TRIM_SEL (R140). -/
def calTrimSel (c : Nat) : Nat := 0x102000 + c % 16 * 0x10000
/-- CAL_TRIM_DATA (R140). -/
def calTrimData (c : Nat) : Nat := 0x102004 + c % 16 * 0x10000
/-- CAL_STATUS (R140). -/
def calStatus (c : Nat) : Nat := 0x102008 + c % 16 * 0x10000
/-- CAL_FORCED_GAPS (R140). -/
def calForcedGaps (c : Nat) : Nat := 0x10200C + c % 16 * 0x10000
/-- CAL_SHB_EVT (R140). -/
def calShbEvt (c : Nat) : Nat := 0x102010 + c % 16 * 0x10000
/-- CAL_BANK_EVT (R140). -/
def calBankEvt (c : Nat) : Nat := 0x102014 + c % 16 * 0x10000
/-- CAL_CLAMP_EVT (R140). -/
def calClampEvt (c : Nat) : Nat := 0x102018 + c % 16 * 0x10000
/-- CAL_TILE_CTRL (R140). -/
def calTileCtrl (c t : Nat) : Nat := 0x102100 + c % 16 * 0x10000 + t % 68 * 0x20
/-- CAL_EPOCH (R140). -/
def calEpoch (c t : Nat) : Nat := 0x102104 + c % 16 * 0x10000 + t % 68 * 0x20
/-- CAL_TILE_INFO (R140). -/
def calTileInfo (c t : Nat) : Nat := 0x102108 + c % 16 * 0x10000 + t % 68 * 0x20
/-- CAL_OFS_AGE (R140). -/
def calOfsAge (c t : Nat) : Nat := 0x10210C + c % 16 * 0x10000 + t % 68 * 0x20
/-- CAL_REF_AGE (R140). -/
def calRefAge (c t : Nat) : Nat := 0x102110 + c % 16 * 0x10000 + t % 68 * 0x20
/-- CAL_SWEEP_AGE (R140). -/
def calSweepAge (c t : Nat) : Nat := 0x102114 + c % 16 * 0x10000 + t % 68 * 0x20
/-- CAL_SUMMARY (R141). -/
def calSummary : Nat := 0xBF000
/-- CAL_WORST (R141). -/
def calWorst : Nat := 0xBF004
/-- CAL_COUNTS (R141). -/
def calCounts : Nat := 0xBF008
/-- VEC_QSTATUS (R168). -/
def vecQstatus (c : Nat) : Nat := 0x106800 + c % 16 * 0x10000
/-- VEC_QINT_EN (R168). -/
def vecQintEn (c : Nat) : Nat := 0x106804 + c % 16 * 0x10000
/-- VEC_ZERO_VEC (R168). -/
def vecZeroVec (c : Nat) : Nat := 0x106808 + c % 16 * 0x10000
/-- VEC_KV_GROUPS (R168). -/
def vecKvGroups (c : Nat) : Nat := 0x10680C + c % 16 * 0x10000
/-- VEC_ISAT_EVT (R168). -/
def vecIsatEvt (c : Nat) : Nat := 0x106810 + c % 16 * 0x10000
/-- VEC_FSAT_EVT (R168). -/
def vecFsatEvt (c : Nat) : Nat := 0x106814 + c % 16 * 0x10000
/-- VEC_NAN_EVT (R168). -/
def vecNanEvt (c : Nat) : Nat := 0x106818 + c % 16 * 0x10000
/-- VEC_KVSAT_EVT (R168). -/
def vecKvsatEvt (c : Nat) : Nat := 0x10681C + c % 16 * 0x10000
/-- VEC_KVUF_EVT (R168). -/
def vecKvufEvt (c : Nat) : Nat := 0x106820 + c % 16 * 0x10000
/-- VEC_KVNAN_EVT (R168). -/
def vecKvnanEvt (c : Nat) : Nat := 0x106824 + c % 16 * 0x10000
/-- ACC_OCC (R194). -/
def accOcc (c : Nat) : Nat := 0x104000 + c % 16 * 0x10000
/-- ACC_STATUS (R194). -/
def accStatus (c : Nat) : Nat := 0x104004 + c % 16 * 0x10000
/-- ACC_INT_EN (R194). -/
def accIntEn (c : Nat) : Nat := 0x104008 + c % 16 * 0x10000
/-- ACC_SAVED (R194). -/
def accSaved (c : Nat) : Nat := 0x10400C + c % 16 * 0x10000
/-- ACC_WAIT_EVT (R194). -/
def accWaitEvt (c : Nat) : Nat := 0x104010 + c % 16 * 0x10000
/-- ACC_STALE_EVT (R194). -/
def accStaleEvt (c : Nat) : Nat := 0x104014 + c % 16 * 0x10000
/-- ACC_RST_EVT (R194). -/
def accRstEvt (c : Nat) : Nat := 0x104018 + c % 16 * 0x10000
/-- ACC_RESTORED (R194). -/
def accRestored (c : Nat) : Nat := 0x10401C + c % 16 * 0x10000
/-- STK_CTRL (R268). -/
def stkCtrl : Nat := 0xC0000
/-- STK_RESERVE (R268). -/
def stkReserve : Nat := 0xC0004
/-- STK_FREE (R268). -/
def stkFree : Nat := 0xC0008
/-- STK_FREE_LOW (R268). -/
def stkFreeLow : Nat := 0xC000C
/-- STK_LIVE (R268). -/
def stkLive : Nat := 0xC0010
/-- STK_STATUS (R268). -/
def stkStatus : Nat := 0xC0014
/-- STK_INT_EN (R268). -/
def stkIntEn : Nat := 0xC0018
/-- STK_RETIRED (R268). -/
def stkRetired : Nat := 0xC001C
/-- STK_FULL_EVT (R268). -/
def stkFullEvt : Nat := 0xC0020
/-- STK_GROW_EVT (R268). -/
def stkGrowEvt : Nat := 0xC0024
/-- STK_EARLY_EVT (R268). -/
def stkEarlyEvt : Nat := 0xC0028
/-- STK_UE_EVT (R268). -/
def stkUeEvt : Nat := 0xC002C
/-- STK_JOIN_EVT (R268). -/
def stkJoinEvt : Nat := 0xC0030
/-- STK_XFER_EVT (R268). -/
def stkXferEvt : Nat := 0xC0034
/-- STK_FCLOSE_EVT (R268). -/
def stkFcloseEvt : Nat := 0xC0038
/-- STK_CHF_EVT (R268). -/
def stkChfEvt : Nat := 0xC003C
/-- STK_CE_TOTAL (R268). -/
def stkCeTotal : Nat := 0xC0040
/-- STK_ADMITTED (R268). -/
def stkAdmitted : Nat := 0xC0044
/-- STK_CH_CE (R268). -/
def stkChCe (ch : Nat) : Nat := 0xC0100 + ch % 64 * 0x10
/-- STK_CH_UE (R268). -/
def stkChUe (ch : Nat) : Nat := 0xC0104 + ch % 64 * 0x10
/-- STK_CH_STATE (R268). -/
def stkChState (ch : Nat) : Nat := 0xC0108 + ch % 64 * 0x10
/-- STK_SH_CFG (R268). -/
def stkShCfg (s : Nat) : Nat := 0xC1000 + s % 64 * 0x20
/-- STK_SH_WIN_LO (R268). -/
def stkShWinLo (s : Nat) : Nat := 0xC1004 + s % 64 * 0x20
/-- STK_SH_WIN_HI (R268). -/
def stkShWinHi (s : Nat) : Nat := 0xC1008 + s % 64 * 0x20
/-- STK_SH_OPEN_MAX (R268). -/
def stkShOpenMax (s : Nat) : Nat := 0xC100C + s % 64 * 0x20
/-- STK_SH_LIVE (R268). -/
def stkShLive (s : Nat) : Nat := 0xC1010 + s % 64 * 0x20
/-- STK_SH_PAGES (R268). -/
def stkShPages (s : Nat) : Nat := 0xC1014 + s % 64 * 0x20
/-- STK_SH_REFUSED (R268). -/
def stkShRefused (s : Nat) : Nat := 0xC1018 + s % 64 * 0x20
/-- STK_SH_RETIRED (R268). -/
def stkShRetired (s : Nat) : Nat := 0xC101C + s % 64 * 0x20
/-- DSP_CTRL (R295). -/
def dspCtrl : Nat := 0xB0000
/-- DSP_INST (R295). -/
def dspInst : Nat := 0xB0004
/-- DSP_STATUS (R295). -/
def dspStatus : Nat := 0xB0008
/-- DSP_INT_EN (R295). -/
def dspIntEn : Nat := 0xB000C
/-- DSP_TMO_EVT (R295). -/
def dspTmoEvt : Nat := 0xB0010
/-- DSP_STALE_EVT (R295). -/
def dspStaleEvt : Nat := 0xB0014
/-- DSP_FULL_EVT (R295). -/
def dspFullEvt : Nat := 0xB0018
/-- DSP_TDF_EVT (R295). -/
def dspTdfEvt : Nat := 0xB001C
/-- DSP_NOCOPY_EVT (R295). -/
def dspNocopyEvt : Nat := 0xB0020
/-- DSP_LATE_EVT (R295). -/
def dspLateEvt : Nat := 0xB0024
/-- DSP_BUDGET (R295). -/
def dspBudget (i : Nat) : Nat := 0xB0100 + i % 8 * 0x4
/-- DSP_CX_CTRL (R295). -/
def dspCxCtrl (x : Nat) : Nat := 0xB1000 + x % 64 * 0x20
/-- DSP_CX_STATE (R295). -/
def dspCxState (x : Nat) : Nat := 0xB1004 + x % 64 * 0x20
/-- DSP_CX_OUTSTANDING (R295). -/
def dspCxOutstanding (x : Nat) : Nat := 0xB1008 + x % 64 * 0x20
/-- DSP_CX_INFLIGHT (R295). -/
def dspCxInflight (x : Nat) : Nat := 0xB100C + x % 64 * 0x20
/-- DSP_CX_LATE (R295). -/
def dspCxLate (x : Nat) : Nat := 0xB1010 + x % 64 * 0x20
/-- DSP_CX_TIMEOUTS (R295). -/
def dspCxTimeouts (x : Nat) : Nat := 0xB1014 + x % 64 * 0x20
/-- DSP_CX_SAVE_LO (R295). -/
def dspCxSaveLo (x : Nat) : Nat := 0xB1018 + x % 64 * 0x20
/-- DSP_CX_SAVE_HI (R295). -/
def dspCxSaveHi (x : Nat) : Nat := 0xB101C + x % 64 * 0x20
/-- DSP_CX_TD_EVT (R295). -/
def dspCxTdEvt (x : Nat) : Nat := 0xB2000 + x % 64 * 0x4
/-- LCK_CTRL (R328). -/
def lckCtrl : Nat := 0x60000
/-- LCK_POS0_LO (R328). -/
def lckPos0Lo : Nat := 0x60004
/-- LCK_POS0_HI (R328). -/
def lckPos0Hi : Nat := 0x60008
/-- LCK_POS1_LO (R328). -/
def lckPos1Lo : Nat := 0x6000C
/-- LCK_POS1_HI (R328). -/
def lckPos1Hi : Nat := 0x60010
/-- LCK_VEL0 (R328). -/
def lckVel0 : Nat := 0x60014
/-- LCK_VEL1 (R328). -/
def lckVel1 : Nat := 0x60018
/-- LCK_IDX0 (R328). -/
def lckIdx0 : Nat := 0x6001C
/-- LCK_IDX1 (R328). -/
def lckIdx1 : Nat := 0x60020
/-- LCK_STATUS (R328). -/
def lckStatus : Nat := 0x60024
/-- LCK_INT_EN (R328). -/
def lckIntEn : Nat := 0x60028
/-- LCK_SLOTS (R328). -/
def lckSlots : Nat := 0x6002C
/-- LCK_MAINS (R328). -/
def lckMains : Nat := 0x60030
/-- LCK_CFG (R328). -/
def lckCfg : Nat := 0x60034
/-- LCK_E0ERR_EVT (R328). -/
def lckE0errEvt : Nat := 0x60040
/-- LCK_E1ERR_EVT (R328). -/
def lckE1errEvt : Nat := 0x60044
/-- LCK_REV_EVT (R328). -/
def lckRevEvt : Nat := 0x60048
/-- LCK_STOP_EVT (R328). -/
def lckStopEvt : Nat := 0x6004C
/-- LCK_SLOTF_EVT (R328). -/
def lckSlotfEvt : Nat := 0x60050
/-- LCK_LATE_EVT (R328). -/
def lckLateEvt : Nat := 0x60054
/-- LCK_MISS_EVT (R328). -/
def lckMissEvt : Nat := 0x60058
/-- LCK_MAINS_EVT (R328). -/
def lckMainsEvt : Nat := 0x6005C
/-- LCK_LN_STATUS (R328). -/
def lckLnStatus (l : Nat) : Nat := 0x61000 + l % 64 * 0x20
/-- LCK_LN_WF_EVT (R328). -/
def lckLnWfEvt (l : Nat) : Nat := 0x61004 + l % 64 * 0x20
/-- LCK_LN_WF_LATE (R328). -/
def lckLnWfLate (l : Nat) : Nat := 0x61008 + l % 64 * 0x20
/-- LCK_LN_WF_REFUSED (R328). -/
def lckLnWfRefused (l : Nat) : Nat := 0x6100C + l % 64 * 0x20
/-- LCK_LN_WF_RETIRED (R328). -/
def lckLnWfRetired (l : Nat) : Nat := 0x61010 + l % 64 * 0x20
/-- LCK_LN_WF_FAULT (R328). -/
def lckLnWfFault (l : Nat) : Nat := 0x61014 + l % 64 * 0x20
/-- LCK_LN_DECIDED (R328). -/
def lckLnDecided (l : Nat) : Nat := 0x61018 + l % 64 * 0x20
/-- LCK_LN_DISCARDED (R328). -/
def lckLnDiscarded (l : Nat) : Nat := 0x6101C + l % 64 * 0x20
/-- ACT_CTRL (R328). -/
def actCtrl : Nat := 0x50000
/-- ACT_LIMITS (R328). -/
def actLimits : Nat := 0x50004
/-- ACT_GPIO_MAXW (R328). -/
def actGpioMaxw : Nat := 0x50008
/-- ACT_GPIO_STATE (R328). -/
def actGpioState : Nat := 0x5000C
/-- ACT_STATUS (R328). -/
def actStatus : Nat := 0x50010
/-- ACT_INT_EN (R328). -/
def actIntEn : Nat := 0x50014
/-- ACT_FIRE0 (R328). -/
def actFire0 : Nat := 0x50018
/-- ACT_FIRE1 (R328). -/
def actFire1 : Nat := 0x5001C
/-- ACT_CLIP_EVT (R328). -/
def actClipEvt : Nat := 0x50020
/-- ACT_DROP_EVT (R328). -/
def actDropEvt : Nat := 0x50024
/-- ACT_LATEO_EVT (R328). -/
def actLateoEvt : Nat := 0x50028
/-- ACT_BOARD_EVT (R328). -/
def actBoardEvt : Nat := 0x5002C
/-- ACT_SAFE_EVT (R328). -/
def actSafeEvt : Nat := 0x50030
/-- ACT_DCLIP_EVT (R328). -/
def actDclipEvt : Nat := 0x50034
/-- ACT_WCUT_EVT (R328). -/
def actWcutEvt : Nat := 0x50038
/-- ACT_DAC_CTRL (R328). -/
def actDacCtrl : Nat := 0x50100
/-- ACT_DAC_STROBES (R328). -/
def actDacStrobes : Nat := 0x50104
/-- ACT_DAC_MODE (R328). -/
def actDacMode (ch : Nat) : Nat := 0x50200 + ch % 8 * 0x20
/-- ACT_DAC_CODE (R328). -/
def actDacCode (ch : Nat) : Nat := 0x50204 + ch % 8 * 0x20
/-- ACT_DAC_AMP (R328). -/
def actDacAmp (ch : Nat) : Nat := 0x50208 + ch % 8 * 0x20
/-- ACT_DAC_FCW (R328). -/
def actDacFcw (ch : Nat) : Nat := 0x5020C + ch % 8 * 0x20
/-- ACT_DAC_PHASE (R328). -/
def actDacPhase (ch : Nat) : Nat := 0x50210 + ch % 8 * 0x20
/-- ACT_DAC_ACTIVE (R328). -/
def actDacActive (ch : Nat) : Nat := 0x50214 + ch % 8 * 0x20
/-- PRT_FAB (R355). -/
def prtFab : Nat := 0x70000
/-- PRT_FAB_SEQ (R355). -/
def prtFabSeq : Nat := 0x70004
/-- PRT_CTRL (R355). -/
def prtCtrl (p : Nat) : Nat := 0x70100 + p % 8 * 0x40
/-- PRT_STATE (R355). -/
def prtState (p : Nat) : Nat := 0x70104 + p % 8 * 0x40
/-- PRT_STATUS (R355). -/
def prtStatus (p : Nat) : Nat := 0x70108 + p % 8 * 0x40
/-- PRT_INT_EN (R355). -/
def prtIntEn (p : Nat) : Nat := 0x7010C + p % 8 * 0x40
/-- PRT_PARTNER_FW (R355). -/
def prtPartnerFw (p : Nat) : Nat := 0x70110 + p % 8 * 0x40
/-- PRT_DET_EVT (R355). -/
def prtDetEvt (p : Nat) : Nat := 0x70114 + p % 8 * 0x40
/-- PRT_HDR_EVT (R355). -/
def prtHdrEvt (p : Nat) : Nat := 0x70118 + p % 8 * 0x40
/-- PRT_CV_EVT (R355). -/
def prtCvEvt (p : Nat) : Nat := 0x7011C + p % 8 * 0x40
/-- PRT_SEQ_EVT (R355). -/
def prtSeqEvt (p : Nat) : Nat := 0x70120 + p % 8 * 0x40
/-- PRT_STAMP_EVT (R355). -/
def prtStampEvt (p : Nat) : Nat := 0x70124 + p % 8 * 0x40
/-- PRT_REF_EVT (R355). -/
def prtRefEvt (p : Nat) : Nat := 0x70128 + p % 8 * 0x40
/-- PRT_TXL_EVT (R355). -/
def prtTxlEvt (p : Nat) : Nat := 0x7012C + p % 8 * 0x40
/-- PRT_CVB_EVT (R355). -/
def prtCvbEvt (p : Nat) : Nat := 0x70130 + p % 8 * 0x40
/-- PRT_CV_SEL (R355). -/
def prtCvSel (p : Nat) : Nat := 0x70134 + p % 8 * 0x40
/-- PRT_CV_VAL (R355). -/
def prtCvVal (p : Nat) : Nat := 0x70138 + p % 8 * 0x40
/-- PRT_RX_MSGS (R355). -/
def prtRxMsgs (p : Nat) : Nat := 0x7013C + p % 8 * 0x40
/-- MON_STATUS (R375). -/
def monStatus : Nat := 0x40000
/-- MON_INT_EN (R375). -/
def monIntEn : Nat := 0x40004
/-- MON_TSEL (R375). -/
def monTsel : Nat := 0x40008
/-- MON_XCHK_CFG (R375). -/
def monXchkCfg : Nat := 0x4000C
/-- MON_XCHK_THR (R375). -/
def monXchkThr : Nat := 0x40010
/-- MON_XCHK_LAST (R375). -/
def monXchkLast : Nat := 0x40014
/-- MON_OVRA_EVT (R375). -/
def monOvraEvt : Nat := 0x40020
/-- MON_OVRB_EVT (R375). -/
def monOvrbEvt : Nat := 0x40024
/-- MON_TOA_EVT (R375). -/
def monToaEvt : Nat := 0x40028
/-- MON_TOB_EVT (R375). -/
def monTobEvt : Nat := 0x4002C
/-- MON_XCHK_EVT (R375). -/
def monXchkEvt : Nat := 0x40030
/-- MON_CALF_EVT (R375). -/
def monCalfEvt : Nat := 0x40034
/-- MON_CV_CTRL (R375). -/
def monCvCtrl (x : Nat) : Nat := 0x40100 + x % 2 * 0x40
/-- MON_CV_CHAN (R376). -/
def monCvChan (x : Nat) : Nat := 0x40104 + x % 2 * 0x40
/-- MON_CV_URG (R376). -/
def monCvUrg (x : Nat) : Nat := 0x40108 + x % 2 * 0x40
/-- MON_CV_CMD (R376). -/
def monCvCmd (x : Nat) : Nat := 0x4010C + x % 2 * 0x40
/-- MON_CV_STATE (R376). -/
def monCvState (x : Nat) : Nat := 0x40110 + x % 2 * 0x40
/-- MON_CV_OFS_SELF (R376). -/
def monCvOfsSelf (x : Nat) : Nat := 0x40114 + x % 2 * 0x40
/-- MON_CV_OFS_FAC (R376). -/
def monCvOfsFac (x : Nat) : Nat := 0x4011C + x % 2 * 0x40
/-- MON_CV_OFS_USER (R376). -/
def monCvOfsUser (x : Nat) : Nat := 0x40124 + x % 2 * 0x40
/-- MON_CV_GAIN_SELF (R376). -/
def monCvGainSelf (x : Nat) : Nat := 0x40118 + x % 2 * 0x40
/-- MON_CV_GAIN_FAC (R376). -/
def monCvGainFac (x : Nat) : Nat := 0x40120 + x % 2 * 0x40
/-- MON_CV_GAIN_USER (R376). -/
def monCvGainUser (x : Nat) : Nat := 0x40128 + x % 2 * 0x40
/-- MON_SEQ (R376). -/
def monSeq (x i : Nat) : Nat := 0x40400 + x % 2 * 0x100 + i % 64 * 0x4
/-- MON_SNAP_SEL (R376). -/
def monSnapSel (s : Nat) : Nat := 0x40800 + s % 2 * 0x20
/-- MON_SNAP_SUM_LO (R376). -/
def monSnapSumLo (s : Nat) : Nat := 0x40804 + s % 2 * 0x20
/-- MON_SNAP_SUM_HI (R376). -/
def monSnapSumHi (s : Nat) : Nat := 0x40808 + s % 2 * 0x20
/-- MON_SNAP_COUNT (R376). -/
def monSnapCount (s : Nat) : Nat := 0x4080C + s % 2 * 0x20
/-- MON_SNAP_MIN (R376). -/
def monSnapMin (s : Nat) : Nat := 0x40810 + s % 2 * 0x20
/-- MON_SNAP_MAX (R376). -/
def monSnapMax (s : Nat) : Nat := 0x40814 + s % 2 * 0x20
/-- PWR_STATE (R396). -/
def pwrState : Nat := 0x20000
/-- PWR_LOCK (R396). -/
def pwrLock : Nat := 0x20004
/-- PWR_INRUSH_BUDGET (R396). -/
def pwrInrushBudget : Nat := 0x20008
/-- PWR_SLEW (R396). -/
def pwrSlew : Nat := 0x2000C
/-- PWR_LIMIT (R396). -/
def pwrLimit : Nat := 0x20014
/-- PWR_LOADSTEP (R396). -/
def pwrLoadstep : Nat := 0x20010
/-- PWR_PUMP_LIM (R396). -/
def pwrPumpLim : Nat := 0x20018
/-- PWR_EST (R396). -/
def pwrEst : Nat := 0x2001C
/-- PWR_STATUS (R396). -/
def pwrStatus : Nat := 0x20020
/-- PWR_INT_EN (R396). -/
def pwrIntEn : Nat := 0x20024
/-- PWR_INR_EVT (R396). -/
def pwrInrEvt : Nat := 0x20030
/-- PWR_SLEW_EVT (R396). -/
def pwrSlewEvt : Nat := 0x20034
/-- PWR_NOACK_EVT (R396). -/
def pwrNoackEvt : Nat := 0x20038
/-- PWR_PLIM_EVT (R396). -/
def pwrPlimEvt : Nat := 0x2003C
/-- PWR_DOMF_EVT (R396). -/
def pwrDomfEvt : Nat := 0x20040
/-- PWR_DOM_REQ (R396). -/
def pwrDomReq (i : Nat) : Nat := 0x20050 + i % 3 * 0x4
/-- PWR_DOM_ON (R396). -/
def pwrDomOn (i : Nat) : Nat := 0x20060 + i % 3 * 0x4
/-- THM_LOCK (R396). -/
def thmLock : Nat := 0x30000
/-- THM_THR (R396). -/
def thmThr : Nat := 0x30004
/-- THM_LEVEL (R396). -/
def thmLevel : Nat := 0x30008
/-- THM_MAX (R396). -/
def thmMax : Nat := 0x3000C
/-- THM_STATUS (R396). -/
def thmStatus : Nat := 0x30010
/-- THM_INT_EN (R396). -/
def thmIntEn : Nat := 0x30014
/-- THM_TRIP_CAUSE (R396). -/
def thmTripCause : Nat := 0x30018
/-- THM_THR_EVT (R396). -/
def thmThrEvt : Nat := 0x30020
/-- THM_L2_EVT (R396). -/
def thmL2Evt : Nat := 0x30024
/-- THM_STOP_EVT (R396). -/
def thmStopEvt : Nat := 0x30028
/-- THM_SENF_EVT (R396). -/
def thmSenfEvt : Nat := 0x3002C
/-- THM_TEMP (R396). -/
def thmTemp (i : Nat) : Nat := 0x30100 + i % 68 * 0x4
/-- FLT_STATUS (R424). -/
def fltStatus : Nat := 0x90000
/-- FLT_INT_EN (R424). -/
def fltIntEn : Nat := 0x90004
/-- FLT_OPEN (R424). -/
def fltOpen : Nat := 0x90008
/-- FLT_REC_CTRL (R424). -/
def fltRecCtrl : Nat := 0x9000C
/-- FLT_CORE_STATE (R424). -/
def fltCoreState : Nat := 0x90010
/-- FLT_DRR (R424). -/
def fltDrr : Nat := 0x90014
/-- FLT_HOST_STATUS (R424). -/
def fltHostStatus : Nat := 0x90018
/-- FLT_HOST_INT_EN (R424). -/
def fltHostIntEn : Nat := 0x9001C
/-- FLT_NEWSRC_EVT (R424). -/
def fltNewsrcEvt : Nat := 0x90020
/-- FLT_OVF_EVT (R424). -/
def fltOvfEvt : Nat := 0x90024
/-- FLT_ENG_EVT (R424). -/
def fltEngEvt : Nat := 0x90028
/-- FLT_CYC_EVT (R424). -/
def fltCycEvt : Nat := 0x9002C
/-- FLT_CFEN_EVT (R424). -/
def fltCfenEvt : Nat := 0x90030
/-- FLT_DRR_EVT (R424). -/
def fltDrrEvt : Nat := 0x90034
/-- FLT_HFLT_EVT (R424). -/
def fltHfltEvt : Nat := 0x90060
/-- FLT_HFEN_EVT (R424). -/
def fltHfenEvt : Nat := 0x90064
/-- FLT_HDRR_EVT (R424). -/
def fltHdrrEvt : Nat := 0x90068
/-- FLT_HDMP_EVT (R424). -/
def fltHdmpEvt : Nat := 0x9006C
/-- FLT_HPER_EVT (R424). -/
def fltHperEvt : Nat := 0x90070
/-- FLT_TIME_LO (R424). -/
def fltTimeLo : Nat := 0x90038
/-- FLT_TIME_HI (R424). -/
def fltTimeHi : Nat := 0x9003C
/-- FLT_REC (R424). -/
def fltRec (i : Nat) : Nat := 0x90040 + i % 8 * 0x4
/-- ID_DEVICE_ID (R453). -/
def idDeviceId (i : Nat) : Nat := 0x10000 + i % 4 * 0x4
/-- ID_LOT_LO (R453). -/
def idLotLo : Nat := 0x10010
/-- ID_LOT_HI (R453). -/
def idLotHi : Nat := 0x10014
/-- ID_DIE (R453). -/
def idDie : Nat := 0x10018
/-- ID_PART (R453). -/
def idPart : Nat := 0x1001C
/-- ID_TEST_DATE (R453). -/
def idTestDate : Nat := 0x10020
/-- ID_FCAL_REV (R453). -/
def idFcalRev : Nat := 0x10024
/-- ID_FW_REV (R453). -/
def idFwRev : Nat := 0x10028
/-- ID_BOOT (R453). -/
def idBoot : Nat := 0x1002C
/-- ID_SVN (R453). -/
def idSvn : Nat := 0x10030
/-- ID_SVN_FLOOR (R453). -/
def idSvnFloor : Nat := 0x10034
/-- SEC_LOCK (R453). -/
def secLock : Nat := 0xA0000
/-- PST_STATE (R471). -/
def pstState : Nat := 0x80000
/-- PST_STATUS (R471). -/
def pstStatus : Nat := 0x80004
/-- PST_INT_EN (R471). -/
def pstIntEn : Nat := 0x80008
/-- PST_WRITES (R471). -/
def pstWrites : Nat := 0x8000C
/-- PST_TORN_EVT (R471). -/
def pstTornEvt : Nat := 0x80010
/-- PST_WFAIL_EVT (R471). -/
def pstWfailEvt : Nat := 0x80014
/-- PST_WEAK_EVT (R471). -/
def pstWeakEvt : Nat := 0x80018
/-- PST_LOST_EVT (R471). -/
def pstLostEvt : Nat := 0x8001C
/-- PST_SCRUB (R471). -/
def pstScrub : Nat := 0x80020
/-- SDM_ID (R487). -/
def sdmId : Nat := 0x0
/-- SDM_PAGE (R487). -/
def sdmPage : Nat := 0x4
/-- SDM_MB_CTRL (R487). -/
def sdmMbCtrl : Nat := 0x8
/-- SDM_MB_STATE (R487). -/
def sdmMbState : Nat := 0xC
/-- SDM_HOST_STATUS (R487). -/
def sdmHostStatus : Nat := 0x10
/-- SDM_HOST_INT_EN (R487). -/
def sdmHostIntEn : Nat := 0x14
/-- SDM_DISCARD_ADDR (R487). -/
def sdmDiscardAddr : Nat := 0x18
/-- SDM_F2_STATE (R487). -/
def sdmF2State : Nat := 0x1C
/-- SDM_F2_LEFT (R487). -/
def sdmF2Left : Nat := 0x20
/-- SDM_REPLY_EVT (R487). -/
def sdmReplyEvt : Nat := 0x40
/-- SDM_F2R_EVT (R487). -/
def sdmF2rEvt : Nat := 0x44
/-- SDM_WDIS_EVT (R487). -/
def sdmWdisEvt : Nat := 0x48
/-- SDM_F2OV_EVT (R487). -/
def sdmF2ovEvt : Nat := 0x4C

end R

namespace F

/-- TIL_SUMMARY.n_cal, bits [7:0], RO. -/
def tilSummaryNCal : Field := ⟨0, 8⟩
/-- TIL_SUMMARY.n_below, bits [15:8], RO. -/
def tilSummaryNBelow : Field := ⟨8, 8⟩
/-- TIL_SUMMARY.n_other, bits [23:16], RO. -/
def tilSummaryNOther : Field := ⟨16, 8⟩
/-- TIL_THRESH.thresh, bits [9:0], RW. -/
def tilThreshThresh : Field := ⟨0, 10⟩
/-- TIL_TEST_CTRL.tile, bits [6:0], RW. -/
def tilTestCtrlTile : Field := ⟨0, 7⟩
/-- TIL_TEST_CTRL.mode, bits [9:8], RW. -/
def tilTestCtrlMode : Field := ⟨8, 2⟩
/-- TIL_TEST_CTRL.step, bits [13:12], RW. -/
def tilTestCtrlStep : Field := ⟨12, 2⟩
/-- TIL_TEST_CTRL.start, bits [16:16], W1S. -/
def tilTestCtrlStart : Field := ⟨16, 1⟩
/-- TIL_TEST_CTRL.runs, bits [31:20], RW. -/
def tilTestCtrlRuns : Field := ⟨20, 12⟩
/-- TIL_TEST_COUNT.count, bits [31:0], RO. -/
def tilTestCountCount : Field := ⟨0, 32⟩
/-- TIL_TEST_SUM.sum, bits [31:0], RO. -/
def tilTestSumSum : Field := ⟨0, 32⟩
/-- TIL_TEST_SSQ_LO.ssq, bits [31:0], RO. -/
def tilTestSsqLoSsq : Field := ⟨0, 32⟩
/-- TIL_TEST_SSQ_HI.ssq, bits [31:0], RO. -/
def tilTestSsqHiSsq : Field := ⟨0, 32⟩
/-- TIL_CTRL.grp_size, bits [1:0], RW. -/
def tilCtrlGrpSize : Field := ⟨0, 2⟩
/-- TIL_CTRL.trk_en, bits [2:2], RW. -/
def tilCtrlTrkEn : Field := ⟨2, 1⟩
/-- TIL_CTRL.gain_fix, bits [5:4], RW. -/
def tilCtrlGainFix : Field := ⟨4, 2⟩
/-- TIL_CTRL.issue_en, bits [8:8], RW. -/
def tilCtrlIssueEn : Field := ⟨8, 1⟩
/-- TIL_STATE.state, bits [2:0], RO. -/
def tilStateState : Field := ⟨0, 3⟩
/-- TIL_STATE.step, bits [5:4], RO. -/
def tilStateStep : Field := ⟨4, 2⟩
/-- TIL_STATE.stands_for, bits [13:8], RO. -/
def tilStateStandsFor : Field := ⟨8, 6⟩
/-- TIL_STATE.subst, bits [14:14], RO. -/
def tilStateSubst : Field := ⟨14, 1⟩
/-- TIL_STATUS.sat, bits [0:0], W1C. -/
def tilStatusSat : Field := ⟨0, 1⟩
/-- TIL_STATUS.stall, bits [1:1], W1C. -/
def tilStatusStall : Field := ⟨1, 1⟩
/-- TIL_STATUS.ovr, bits [2:2], W1C. -/
def tilStatusOvr : Field := ⟨2, 1⟩
/-- TIL_STATUS.cfg_err, bits [3:3], W1C. -/
def tilStatusCfgErr : Field := ⟨3, 1⟩
/-- TIL_STATUS.pip_fail, bits [4:4], W1C. -/
def tilStatusPipFail : Field := ⟨4, 1⟩
/-- TIL_STATUS.below, bits [5:5], W1C. -/
def tilStatusBelow : Field := ⟨5, 1⟩
/-- TIL_INT_EN.en, bits [5:0], RW. -/
def tilIntEnEn : Field := ⟨0, 6⟩
/-- TIL_FIDELITY.fid, bits [9:0], RO. -/
def tilFidelityFid : Field := ⟨0, 10⟩
/-- TIL_FIDELITY.valid, bits [15:15], RO. -/
def tilFidelityValid : Field := ⟨15, 1⟩
/-- TIL_SAT_COUNT.count, bits [31:0], RO. -/
def tilSatCountCount : Field := ⟨0, 32⟩
/-- TIL_RECONV_COUNT.count, bits [31:0], RO. -/
def tilReconvCountCount : Field := ⟨0, 32⟩
/-- TIL_PIP_GAIN.ratio, bits [15:0], RO. -/
def tilPipGainRatio : Field := ⟨0, 16⟩
/-- TIL_PIP_GAIN.used, bits [28:16], RO. -/
def tilPipGainUsed : Field := ⟨16, 13⟩
/-- TIL_SAT_EVT.count, bits [31:0], RO. -/
def tilSatEvtCount : Field := ⟨0, 32⟩
/-- TIL_STALL_EVT.count, bits [31:0], RO. -/
def tilStallEvtCount : Field := ⟨0, 32⟩
/-- TIL_OVR_EVT.count, bits [31:0], RO. -/
def tilOvrEvtCount : Field := ⟨0, 32⟩
/-- TIL_CFG_EVT.count, bits [31:0], RO. -/
def tilCfgEvtCount : Field := ⟨0, 32⟩
/-- TIL_PIPF_EVT.count, bits [31:0], RO. -/
def tilPipfEvtCount : Field := ⟨0, 32⟩
/-- TIL_BELOW_EVT.count, bits [31:0], RO. -/
def tilBelowEvtCount : Field := ⟨0, 32⟩
/-- TIL_RANGE.step, bits [1:0], RO. -/
def tilRangeStep : Field := ⟨0, 2⟩
/-- TIL_RANGE.quiet, bits [12:4], RO. -/
def tilRangeQuiet : Field := ⟨4, 9⟩
/-- TIL_RANGE.last_max, bits [24:16], RO. -/
def tilRangeLastMax : Field := ⟨16, 9⟩
/-- TIL_GAP_AGE.age, bits [31:0], RO. -/
def tilGapAgeAge : Field := ⟨0, 32⟩
/-- CAL_TRIM_SEL.index, bits [9:0], RW. -/
def calTrimSelIndex : Field := ⟨0, 10⟩
/-- CAL_TRIM_SEL.tile, bits [22:16], RW. -/
def calTrimSelTile : Field := ⟨16, 7⟩
/-- CAL_TRIM_SEL.bank, bits [24:24], RW. -/
def calTrimSelBank : Field := ⟨24, 1⟩
/-- CAL_TRIM_SEL.field, bits [25:25], RW. -/
def calTrimSelField : Field := ⟨25, 1⟩
/-- CAL_TRIM_DATA.value, bits [9:0], RW. -/
def calTrimDataValue : Field := ⟨0, 10⟩
/-- CAL_STATUS.shadow_busy, bits [0:0], W1C. -/
def calStatusShadowBusy : Field := ⟨0, 1⟩
/-- CAL_STATUS.bank_err, bits [1:1], W1C. -/
def calStatusBankErr : Field := ⟨1, 1⟩
/-- CAL_STATUS.clamp, bits [2:2], W1C. -/
def calStatusClamp : Field := ⟨2, 1⟩
/-- CAL_FORCED_GAPS.count, bits [31:0], RO. -/
def calForcedGapsCount : Field := ⟨0, 32⟩
/-- CAL_SHB_EVT.count, bits [31:0], RO. -/
def calShbEvtCount : Field := ⟨0, 32⟩
/-- CAL_BANK_EVT.count, bits [31:0], RO. -/
def calBankEvtCount : Field := ⟨0, 32⟩
/-- CAL_CLAMP_EVT.count, bits [31:0], RO. -/
def calClampEvtCount : Field := ⟨0, 32⟩
/-- CAL_TILE_CTRL.commit, bits [0:0], W1S. -/
def calTileCtrlCommit : Field := ⟨0, 1⟩
/-- CAL_EPOCH.epoch, bits [31:0], RO. -/
def calEpochEpoch : Field := ⟨0, 32⟩
/-- CAL_TILE_INFO.factory_ok, bits [0:0], RO. -/
def calTileInfoFactoryOk : Field := ⟨0, 1⟩
/-- CAL_TILE_INFO.seeded, bits [1:1], RO. -/
def calTileInfoSeeded : Field := ⟨1, 1⟩
/-- CAL_TILE_INFO.fallback, bits [2:2], RO. -/
def calTileInfoFallback : Field := ⟨2, 1⟩
/-- CAL_TILE_INFO.n_null, bits [17:8], RO. -/
def calTileInfoNNull : Field := ⟨8, 10⟩
/-- CAL_TILE_INFO.n_weak, bits [27:18], RO. -/
def calTileInfoNWeak : Field := ⟨18, 10⟩
/-- CAL_OFS_AGE.age, bits [31:0], RO. -/
def calOfsAgeAge : Field := ⟨0, 32⟩
/-- CAL_REF_AGE.age, bits [31:0], RO. -/
def calRefAgeAge : Field := ⟨0, 32⟩
/-- CAL_SWEEP_AGE.age, bits [31:0], RO. -/
def calSweepAgeAge : Field := ⟨0, 32⟩
/-- CAL_SUMMARY.worst, bits [9:0], RO. -/
def calSummaryWorst : Field := ⟨0, 10⟩
/-- CAL_SUMMARY.median, bits [19:10], RO. -/
def calSummaryMedian : Field := ⟨10, 10⟩
/-- CAL_SUMMARY.summary_seq, bits [27:20], RO. -/
def calSummarySummarySeq : Field := ⟨20, 8⟩
/-- CAL_SUMMARY.valid, bits [31:31], RO. -/
def calSummaryValid : Field := ⟨31, 1⟩
/-- CAL_WORST.core, bits [3:0], RO. -/
def calWorstCore : Field := ⟨0, 4⟩
/-- CAL_WORST.tile, bits [10:4], RO. -/
def calWorstTile : Field := ⟨4, 7⟩
/-- CAL_WORST.summary_seq, bits [23:16], RO. -/
def calWorstSummarySeq : Field := ⟨16, 8⟩
/-- CAL_COUNTS.n_below, bits [10:0], RO. -/
def calCountsNBelow : Field := ⟨0, 11⟩
/-- CAL_COUNTS.n_incl, bits [22:12], RO. -/
def calCountsNIncl : Field := ⟨12, 11⟩
/-- CAL_COUNTS.summary_seq, bits [31:24], RO. -/
def calCountsSummarySeq : Field := ⟨24, 8⟩
/-- VEC_QSTATUS.int_sat, bits [0:0], W1C. -/
def vecQstatusIntSat : Field := ⟨0, 1⟩
/-- VEC_QSTATUS.fp8_sat, bits [1:1], W1C. -/
def vecQstatusFp8Sat : Field := ⟨1, 1⟩
/-- VEC_QSTATUS.nan_in, bits [2:2], W1C. -/
def vecQstatusNanIn : Field := ⟨2, 1⟩
/-- VEC_QSTATUS.kv_sat, bits [3:3], W1C. -/
def vecQstatusKvSat : Field := ⟨3, 1⟩
/-- VEC_QSTATUS.kv_uflow, bits [4:4], W1C. -/
def vecQstatusKvUflow : Field := ⟨4, 1⟩
/-- VEC_QSTATUS.kv_nan, bits [5:5], W1C. -/
def vecQstatusKvNan : Field := ⟨5, 1⟩
/-- VEC_QINT_EN.en, bits [5:0], RW. -/
def vecQintEnEn : Field := ⟨0, 6⟩
/-- VEC_ZERO_VEC.count, bits [31:0], RO. -/
def vecZeroVecCount : Field := ⟨0, 32⟩
/-- VEC_KV_GROUPS.count, bits [31:0], RO. -/
def vecKvGroupsCount : Field := ⟨0, 32⟩
/-- VEC_ISAT_EVT.count, bits [31:0], RO. -/
def vecIsatEvtCount : Field := ⟨0, 32⟩
/-- VEC_FSAT_EVT.count, bits [31:0], RO. -/
def vecFsatEvtCount : Field := ⟨0, 32⟩
/-- VEC_NAN_EVT.count, bits [31:0], RO. -/
def vecNanEvtCount : Field := ⟨0, 32⟩
/-- VEC_KVSAT_EVT.count, bits [31:0], RO. -/
def vecKvsatEvtCount : Field := ⟨0, 32⟩
/-- VEC_KVUF_EVT.count, bits [31:0], RO. -/
def vecKvufEvtCount : Field := ⟨0, 32⟩
/-- VEC_KVNAN_EVT.count, bits [31:0], RO. -/
def vecKvnanEvtCount : Field := ⟨0, 32⟩
/-- ACC_OCC.in_use, bits [10:0], RO. -/
def accOccInUse : Field := ⟨0, 11⟩
/-- ACC_OCC.high_water, bits [26:16], RO. -/
def accOccHighWater : Field := ⟨16, 11⟩
/-- ACC_OCC.hw_clr, bits [31:31], W1S. -/
def accOccHwClr : Field := ⟨31, 1⟩
/-- ACC_STATUS.alloc_wait, bits [0:0], W1C. -/
def accStatusAllocWait : Field := ⟨0, 1⟩
/-- ACC_STATUS.stale, bits [1:1], W1C. -/
def accStatusStale : Field := ⟨1, 1⟩
/-- ACC_STATUS.restore_err, bits [2:2], W1C. -/
def accStatusRestoreErr : Field := ⟨2, 1⟩
/-- ACC_INT_EN.en, bits [2:0], RW. -/
def accIntEnEn : Field := ⟨0, 3⟩
/-- ACC_SAVED.count, bits [31:0], RO. -/
def accSavedCount : Field := ⟨0, 32⟩
/-- ACC_WAIT_EVT.count, bits [31:0], RO. -/
def accWaitEvtCount : Field := ⟨0, 32⟩
/-- ACC_STALE_EVT.count, bits [31:0], RO. -/
def accStaleEvtCount : Field := ⟨0, 32⟩
/-- ACC_RST_EVT.count, bits [31:0], RO. -/
def accRstEvtCount : Field := ⟨0, 32⟩
/-- ACC_RESTORED.count, bits [31:0], RO. -/
def accRestoredCount : Field := ⟨0, 32⟩
/-- STK_CTRL.admit_en, bits [0:0], RW. -/
def stkCtrlAdmitEn : Field := ⟨0, 1⟩
/-- STK_CTRL.early_release, bits [1:1], RW. -/
def stkCtrlEarlyRelease : Field := ⟨1, 1⟩
/-- STK_CTRL.scrub_en, bits [2:2], RW. -/
def stkCtrlScrubEn : Field := ⟨2, 1⟩
/-- STK_RESERVE.pages, bits [16:0], RW. -/
def stkReservePages : Field := ⟨0, 17⟩
/-- STK_FREE.free, bits [19:0], RO. -/
def stkFreeFree : Field := ⟨0, 20⟩
/-- STK_FREE_LOW.low, bits [19:0], RO. -/
def stkFreeLowLow : Field := ⟨0, 20⟩
/-- STK_FREE_LOW.lw_clr, bits [31:31], W1S. -/
def stkFreeLowLwClr : Field := ⟨31, 1⟩
/-- STK_LIVE.live, bits [19:0], RO. -/
def stkLiveLive : Field := ⟨0, 20⟩
/-- STK_STATUS.full, bits [0:0], W1C. -/
def stkStatusFull : Field := ⟨0, 1⟩
/-- STK_STATUS.grow_fail, bits [1:1], W1C. -/
def stkStatusGrowFail : Field := ⟨1, 1⟩
/-- STK_STATUS.early, bits [2:2], W1C. -/
def stkStatusEarly : Field := ⟨2, 1⟩
/-- STK_STATUS.ue, bits [3:3], W1C. -/
def stkStatusUe : Field := ⟨3, 1⟩
/-- STK_STATUS.join_refused, bits [4:4], W1C. -/
def stkStatusJoinRefused : Field := ⟨4, 1⟩
/-- STK_STATUS.xfer_fail, bits [5:5], W1C. -/
def stkStatusXferFail : Field := ⟨5, 1⟩
/-- STK_STATUS.force_close, bits [6:6], W1C. -/
def stkStatusForceClose : Field := ⟨6, 1⟩
/-- STK_STATUS.ch_failed, bits [7:7], W1C. -/
def stkStatusChFailed : Field := ⟨7, 1⟩
/-- STK_INT_EN.en, bits [7:0], RW. -/
def stkIntEnEn : Field := ⟨0, 8⟩
/-- STK_RETIRED.pages, bits [19:0], RO. -/
def stkRetiredPages : Field := ⟨0, 20⟩
/-- STK_FULL_EVT.count, bits [31:0], RO. -/
def stkFullEvtCount : Field := ⟨0, 32⟩
/-- STK_GROW_EVT.count, bits [31:0], RO. -/
def stkGrowEvtCount : Field := ⟨0, 32⟩
/-- STK_EARLY_EVT.count, bits [31:0], RO. -/
def stkEarlyEvtCount : Field := ⟨0, 32⟩
/-- STK_UE_EVT.count, bits [31:0], RO. -/
def stkUeEvtCount : Field := ⟨0, 32⟩
/-- STK_JOIN_EVT.count, bits [31:0], RO. -/
def stkJoinEvtCount : Field := ⟨0, 32⟩
/-- STK_XFER_EVT.count, bits [31:0], RO. -/
def stkXferEvtCount : Field := ⟨0, 32⟩
/-- STK_FCLOSE_EVT.count, bits [31:0], RO. -/
def stkFcloseEvtCount : Field := ⟨0, 32⟩
/-- STK_CHF_EVT.count, bits [31:0], RO. -/
def stkChfEvtCount : Field := ⟨0, 32⟩
/-- STK_CE_TOTAL.count, bits [31:0], RO. -/
def stkCeTotalCount : Field := ⟨0, 32⟩
/-- STK_ADMITTED.count, bits [31:0], RO. -/
def stkAdmittedCount : Field := ⟨0, 32⟩
/-- STK_CH_CE.count, bits [31:0], RO. -/
def stkChCeCount : Field := ⟨0, 32⟩
/-- STK_CH_UE.count, bits [31:0], RO. -/
def stkChUeCount : Field := ⟨0, 32⟩
/-- STK_CH_STATE.failed, bits [0:0], RO. -/
def stkChStateFailed : Field := ⟨0, 1⟩
/-- STK_CH_STATE.free, bits [15:1], RO. -/
def stkChStateFree : Field := ⟨1, 15⟩
/-- STK_CH_STATE.retired, bits [27:16], RO. -/
def stkChStateRetired : Field := ⟨16, 12⟩
/-- STK_SH_CFG.en, bits [0:0], RW. -/
def stkShCfgEn : Field := ⟨0, 1⟩
/-- STK_SH_CFG.max_pos, bits [14:4], RW. -/
def stkShCfgMaxPos : Field := ⟨4, 11⟩
/-- STK_SH_CFG.ctx, bits [21:16], RO. -/
def stkShCfgCtx : Field := ⟨16, 6⟩
/-- STK_SH_WIN_LO.win, bits [31:0], RW. -/
def stkShWinLoWin : Field := ⟨0, 32⟩
/-- STK_SH_WIN_HI.win, bits [31:0], RW. -/
def stkShWinHiWin : Field := ⟨0, 32⟩
/-- STK_SH_OPEN_MAX.lc, bits [31:0], RW. -/
def stkShOpenMaxLc : Field := ⟨0, 32⟩
/-- STK_SH_LIVE.live, bits [18:0], RO. -/
def stkShLiveLive : Field := ⟨0, 19⟩
/-- STK_SH_PAGES.pages, bits [19:0], RO. -/
def stkShPagesPages : Field := ⟨0, 20⟩
/-- STK_SH_REFUSED.count, bits [31:0], RO. -/
def stkShRefusedCount : Field := ⟨0, 32⟩
/-- STK_SH_RETIRED.count, bits [31:0], RO. -/
def stkShRetiredCount : Field := ⟨0, 32⟩
/-- DSP_CTRL.disp_en, bits [0:0], RW. -/
def dspCtrlDispEn : Field := ⟨0, 1⟩
/-- DSP_INST.in_use, bits [15:0], RO. -/
def dspInstInUse : Field := ⟨0, 16⟩
/-- DSP_INST.high_water, bits [31:16], RO. -/
def dspInstHighWater : Field := ⟨16, 16⟩
/-- DSP_STATUS.timeout, bits [0:0], W1C. -/
def dspStatusTimeout : Field := ⟨0, 1⟩
/-- DSP_STATUS.stale, bits [1:1], W1C. -/
def dspStatusStale : Field := ⟨1, 1⟩
/-- DSP_STATUS.inst_full, bits [2:2], W1C. -/
def dspStatusInstFull : Field := ⟨2, 1⟩
/-- DSP_STATUS.td_fault, bits [3:3], W1C. -/
def dspStatusTdFault : Field := ⟨3, 1⟩
/-- DSP_STATUS.no_copy, bits [4:4], W1C. -/
def dspStatusNoCopy : Field := ⟨4, 1⟩
/-- DSP_STATUS.late, bits [5:5], W1C. -/
def dspStatusLate : Field := ⟨5, 1⟩
/-- DSP_INT_EN.en, bits [5:0], RW. -/
def dspIntEnEn : Field := ⟨0, 6⟩
/-- DSP_TMO_EVT.count, bits [31:0], RO. -/
def dspTmoEvtCount : Field := ⟨0, 32⟩
/-- DSP_STALE_EVT.count, bits [31:0], RO. -/
def dspStaleEvtCount : Field := ⟨0, 32⟩
/-- DSP_FULL_EVT.count, bits [31:0], RO. -/
def dspFullEvtCount : Field := ⟨0, 32⟩
/-- DSP_TDF_EVT.count, bits [31:0], RO. -/
def dspTdfEvtCount : Field := ⟨0, 32⟩
/-- DSP_NOCOPY_EVT.count, bits [31:0], RO. -/
def dspNocopyEvtCount : Field := ⟨0, 32⟩
/-- DSP_LATE_EVT.count, bits [31:0], RO. -/
def dspLateEvtCount : Field := ⟨0, 32⟩
/-- DSP_BUDGET.timeout, bits [16:0], RW. -/
def dspBudgetTimeout : Field := ⟨0, 17⟩
/-- DSP_CX_CTRL.teardown, bits [0:0], W1S. -/
def dspCxCtrlTeardown : Field := ⟨0, 1⟩
/-- DSP_CX_CTRL.suspend, bits [1:1], RW. -/
def dspCxCtrlSuspend : Field := ⟨1, 1⟩
/-- DSP_CX_CTRL.gather_wait, bits [16:8], RW. -/
def dspCxCtrlGatherWait : Field := ⟨8, 9⟩
/-- DSP_CX_STATE.state, bits [2:0], RO. -/
def dspCxStateState : Field := ⟨0, 3⟩
/-- DSP_CX_STATE.td_done, bits [3:3], W1C. -/
def dspCxStateTdDone : Field := ⟨3, 1⟩
/-- DSP_CX_STATE.gen, bits [7:4], RO. -/
def dspCxStateGen : Field := ⟨4, 4⟩
/-- DSP_CX_STATE.package, bits [8:8], RO. -/
def dspCxStatePackage : Field := ⟨8, 1⟩
/-- DSP_CX_STATE.catalogue, bits [23:16], RO. -/
def dspCxStateCatalogue : Field := ⟨16, 8⟩
/-- DSP_CX_OUTSTANDING.count, bits [15:0], RO. -/
def dspCxOutstandingCount : Field := ⟨0, 16⟩
/-- DSP_CX_INFLIGHT.tokens, bits [11:0], RO. -/
def dspCxInflightTokens : Field := ⟨0, 12⟩
/-- DSP_CX_INFLIGHT.td_count, bits [15:12], RO. -/
def dspCxInflightTdCount : Field := ⟨12, 4⟩
/-- DSP_CX_INFLIGHT.instances, bits [31:16], RO. -/
def dspCxInflightInstances : Field := ⟨16, 16⟩
/-- DSP_CX_LATE.count, bits [31:0], RO. -/
def dspCxLateCount : Field := ⟨0, 32⟩
/-- DSP_CX_TIMEOUTS.count, bits [31:0], RO. -/
def dspCxTimeoutsCount : Field := ⟨0, 32⟩
/-- DSP_CX_SAVE_LO.base, bits [31:0], RW. -/
def dspCxSaveLoBase : Field := ⟨0, 32⟩
/-- DSP_CX_SAVE_HI.base, bits [31:0], RW. -/
def dspCxSaveHiBase : Field := ⟨0, 32⟩
/-- DSP_CX_TD_EVT.count, bits [31:0], RO. -/
def dspCxTdEvtCount : Field := ⟨0, 32⟩
/-- LCK_CTRL.enc0_en, bits [0:0], RW. -/
def lckCtrlEnc0En : Field := ⟨0, 1⟩
/-- LCK_CTRL.enc1_en, bits [1:1], RW. -/
def lckCtrlEnc1En : Field := ⟨1, 1⟩
/-- LCK_CTRL.dir0, bits [2:2], RW. -/
def lckCtrlDir0 : Field := ⟨2, 1⟩
/-- LCK_CTRL.dir1, bits [3:3], RW. -/
def lckCtrlDir1 : Field := ⟨3, 1⟩
/-- LCK_CTRL.filt0, bits [7:4], RW. -/
def lckCtrlFilt0 : Field := ⟨4, 4⟩
/-- LCK_CTRL.filt1, bits [11:8], RW. -/
def lckCtrlFilt1 : Field := ⟨8, 4⟩
/-- LCK_CTRL.sched_en, bits [12:12], RW. -/
def lckCtrlSchedEn : Field := ⟨12, 1⟩
/-- LCK_POS0_LO.pos, bits [31:0], RO. -/
def lckPos0LoPos : Field := ⟨0, 32⟩
/-- LCK_POS0_HI.pos, bits [31:0], RO. -/
def lckPos0HiPos : Field := ⟨0, 32⟩
/-- LCK_POS1_LO.pos, bits [31:0], RO. -/
def lckPos1LoPos : Field := ⟨0, 32⟩
/-- LCK_POS1_HI.pos, bits [31:0], RO. -/
def lckPos1HiPos : Field := ⟨0, 32⟩
/-- LCK_VEL0.vel, bits [31:0], RO. -/
def lckVel0Vel : Field := ⟨0, 32⟩
/-- LCK_VEL1.vel, bits [31:0], RO. -/
def lckVel1Vel : Field := ⟨0, 32⟩
/-- LCK_IDX0.pos, bits [31:0], RO. -/
def lckIdx0Pos : Field := ⟨0, 32⟩
/-- LCK_IDX1.pos, bits [31:0], RO. -/
def lckIdx1Pos : Field := ⟨0, 32⟩
/-- LCK_STATUS.enc0_err, bits [0:0], W1C. -/
def lckStatusEnc0Err : Field := ⟨0, 1⟩
/-- LCK_STATUS.enc1_err, bits [1:1], W1C. -/
def lckStatusEnc1Err : Field := ⟨1, 1⟩
/-- LCK_STATUS.reverse, bits [2:2], W1C. -/
def lckStatusReverse : Field := ⟨2, 1⟩
/-- LCK_STATUS.stop, bits [3:3], W1C. -/
def lckStatusStop : Field := ⟨3, 1⟩
/-- LCK_STATUS.slot_full, bits [4:4], W1C. -/
def lckStatusSlotFull : Field := ⟨4, 1⟩
/-- LCK_STATUS.late, bits [5:5], W1C. -/
def lckStatusLate : Field := ⟨5, 1⟩
/-- LCK_STATUS.missed, bits [6:6], W1C. -/
def lckStatusMissed : Field := ⟨6, 1⟩
/-- LCK_STATUS.mains_lost, bits [7:7], W1C. -/
def lckStatusMainsLost : Field := ⟨7, 1⟩
/-- LCK_INT_EN.en, bits [7:0], RW. -/
def lckIntEnEn : Field := ⟨0, 8⟩
/-- LCK_SLOTS.in_use, bits [12:0], RO. -/
def lckSlotsInUse : Field := ⟨0, 13⟩
/-- LCK_SLOTS.high_water, bits [28:16], RO. -/
def lckSlotsHighWater : Field := ⟨16, 13⟩
/-- LCK_MAINS.period, bits [23:0], RO. -/
def lckMainsPeriod : Field := ⟨0, 24⟩
/-- LCK_MAINS.valid, bits [31:31], RO. -/
def lckMainsValid : Field := ⟨31, 1⟩
/-- LCK_CFG.stop_ms, bits [9:0], RW. -/
def lckCfgStopMs : Field := ⟨0, 10⟩
/-- LCK_CFG.late_tol, bits [23:16], RW. -/
def lckCfgLateTol : Field := ⟨16, 8⟩
/-- LCK_CFG.strobe_mains, bits [24:24], RW. -/
def lckCfgStrobeMains : Field := ⟨24, 1⟩
/-- LCK_E0ERR_EVT.count, bits [31:0], RO. -/
def lckE0errEvtCount : Field := ⟨0, 32⟩
/-- LCK_E1ERR_EVT.count, bits [31:0], RO. -/
def lckE1errEvtCount : Field := ⟨0, 32⟩
/-- LCK_REV_EVT.count, bits [31:0], RO. -/
def lckRevEvtCount : Field := ⟨0, 32⟩
/-- LCK_STOP_EVT.count, bits [31:0], RO. -/
def lckStopEvtCount : Field := ⟨0, 32⟩
/-- LCK_SLOTF_EVT.count, bits [31:0], RO. -/
def lckSlotfEvtCount : Field := ⟨0, 32⟩
/-- LCK_LATE_EVT.count, bits [31:0], RO. -/
def lckLateEvtCount : Field := ⟨0, 32⟩
/-- LCK_MISS_EVT.count, bits [31:0], RO. -/
def lckMissEvtCount : Field := ⟨0, 32⟩
/-- LCK_MAINS_EVT.count, bits [31:0], RO. -/
def lckMainsEvtCount : Field := ⟨0, 32⟩
/-- LCK_LN_STATUS.windfall, bits [0:0], W1C. -/
def lckLnStatusWindfall : Field := ⟨0, 1⟩
/-- LCK_LN_WF_EVT.count, bits [31:0], RO. -/
def lckLnWfEvtCount : Field := ⟨0, 32⟩
/-- LCK_LN_WF_LATE.count, bits [31:0], RO. -/
def lckLnWfLateCount : Field := ⟨0, 32⟩
/-- LCK_LN_WF_REFUSED.count, bits [31:0], RO. -/
def lckLnWfRefusedCount : Field := ⟨0, 32⟩
/-- LCK_LN_WF_RETIRED.count, bits [31:0], RO. -/
def lckLnWfRetiredCount : Field := ⟨0, 32⟩
/-- LCK_LN_WF_FAULT.count, bits [31:0], RO. -/
def lckLnWfFaultCount : Field := ⟨0, 32⟩
/-- LCK_LN_DECIDED.count, bits [31:0], RO. -/
def lckLnDecidedCount : Field := ⟨0, 32⟩
/-- LCK_LN_DISCARDED.count, bits [31:0], RO. -/
def lckLnDiscardedCount : Field := ⟨0, 32⟩
/-- ACT_CTRL.ap0_en, bits [0:0], RW. -/
def actCtrlAp0En : Field := ⟨0, 1⟩
/-- ACT_CTRL.ap1_en, bits [1:1], RW. -/
def actCtrlAp1En : Field := ⟨1, 1⟩
/-- ACT_CTRL.safe, bits [2:2], W1S. -/
def actCtrlSafe : Field := ⟨2, 1⟩
/-- ACT_CTRL.release, bits [3:3], W1S. -/
def actCtrlRelease : Field := ⟨3, 1⟩
/-- ACT_CTRL.safe_state, bits [8:8], RO. -/
def actCtrlSafeState : Field := ⟨8, 1⟩
/-- ACT_LIMITS.max_span, bits [19:0], RW-L. -/
def actLimitsMaxSpan : Field := ⟨0, 20⟩
/-- ACT_LIMITS.max_rate, bits [27:20], RW-L. -/
def actLimitsMaxRate : Field := ⟨20, 8⟩
/-- ACT_GPIO_MAXW.max_width, bits [15:0], RW-L. -/
def actGpioMaxwMaxWidth : Field := ⟨0, 16⟩
/-- ACT_GPIO_MAXW.pol, bits [31:16], RW. -/
def actGpioMaxwPol : Field := ⟨16, 16⟩
/-- ACT_GPIO_STATE.level, bits [15:0], RO. -/
def actGpioStateLevel : Field := ⟨0, 16⟩
/-- ACT_GPIO_STATE.safe, bits [31:16], RO. -/
def actGpioStateSafe : Field := ⟨16, 16⟩
/-- ACT_STATUS.span_clip, bits [0:0], W1C. -/
def actStatusSpanClip : Field := ⟨0, 1⟩
/-- ACT_STATUS.rate_drop, bits [1:1], W1C. -/
def actStatusRateDrop : Field := ⟨1, 1⟩
/-- ACT_STATUS.late_open, bits [2:2], W1C. -/
def actStatusLateOpen : Field := ⟨2, 1⟩
/-- ACT_STATUS.board_report, bits [3:3], W1C. -/
def actStatusBoardReport : Field := ⟨3, 1⟩
/-- ACT_STATUS.safe_entry, bits [4:4], W1C. -/
def actStatusSafeEntry : Field := ⟨4, 1⟩
/-- ACT_STATUS.dac_clip, bits [5:5], W1C. -/
def actStatusDacClip : Field := ⟨5, 1⟩
/-- ACT_STATUS.width_cut, bits [6:6], W1C. -/
def actStatusWidthCut : Field := ⟨6, 1⟩
/-- ACT_INT_EN.en, bits [6:0], RW. -/
def actIntEnEn : Field := ⟨0, 7⟩
/-- ACT_FIRE0.count, bits [31:0], RO. -/
def actFire0Count : Field := ⟨0, 32⟩
/-- ACT_FIRE1.count, bits [31:0], RO. -/
def actFire1Count : Field := ⟨0, 32⟩
/-- ACT_CLIP_EVT.count, bits [31:0], RO. -/
def actClipEvtCount : Field := ⟨0, 32⟩
/-- ACT_DROP_EVT.count, bits [31:0], RO. -/
def actDropEvtCount : Field := ⟨0, 32⟩
/-- ACT_LATEO_EVT.count, bits [31:0], RO. -/
def actLateoEvtCount : Field := ⟨0, 32⟩
/-- ACT_BOARD_EVT.count, bits [31:0], RO. -/
def actBoardEvtCount : Field := ⟨0, 32⟩
/-- ACT_SAFE_EVT.count, bits [31:0], RO. -/
def actSafeEvtCount : Field := ⟨0, 32⟩
/-- ACT_DCLIP_EVT.count, bits [31:0], RO. -/
def actDclipEvtCount : Field := ⟨0, 32⟩
/-- ACT_WCUT_EVT.count, bits [31:0], RO. -/
def actWcutEvtCount : Field := ⟨0, 32⟩
/-- ACT_DAC_CTRL.load, bits [0:0], W1S. -/
def actDacCtrlLoad : Field := ⟨0, 1⟩
/-- ACT_DAC_CTRL.run, bits [15:8], RW. -/
def actDacCtrlRun : Field := ⟨8, 8⟩
/-- ACT_DAC_STROBES.count, bits [31:0], RO. -/
def actDacStrobesCount : Field := ⟨0, 32⟩
/-- ACT_DAC_MODE.sine, bits [0:0], RW. -/
def actDacModeSine : Field := ⟨0, 1⟩
/-- ACT_DAC_MODE.gain2, bits [1:1], RW. -/
def actDacModeGain2 : Field := ⟨1, 1⟩
/-- ACT_DAC_MODE.phase_set, bits [2:2], RW. -/
def actDacModePhaseSet : Field := ⟨2, 1⟩
/-- ACT_DAC_CODE.value, bits [19:0], RW. -/
def actDacCodeValue : Field := ⟨0, 20⟩
/-- ACT_DAC_AMP.value, bits [19:0], RW. -/
def actDacAmpValue : Field := ⟨0, 20⟩
/-- ACT_DAC_FCW.value, bits [31:0], RW. -/
def actDacFcwValue : Field := ⟨0, 32⟩
/-- ACT_DAC_PHASE.value, bits [31:0], RW. -/
def actDacPhaseValue : Field := ⟨0, 32⟩
/-- ACT_DAC_ACTIVE.code, bits [19:0], RO. -/
def actDacActiveCode : Field := ⟨0, 20⟩
/-- ACT_DAC_ACTIVE.sine, bits [20:20], RO. -/
def actDacActiveSine : Field := ⟨20, 1⟩
/-- ACT_DAC_ACTIVE.gain2, bits [21:21], RO. -/
def actDacActiveGain2 : Field := ⟨21, 1⟩
/-- ACT_DAC_ACTIVE.hold, bits [22:22], RO. -/
def actDacActiveHold : Field := ⟨22, 1⟩
/-- PRT_FAB.index, bits [2:0], RW. -/
def prtFabIndex : Field := ⟨0, 3⟩
/-- PRT_FAB.fm, bits [3:3], RO. -/
def prtFabFm : Field := ⟨3, 1⟩
/-- PRT_FAB.backup, bits [4:4], RW. -/
def prtFabBackup : Field := ⟨4, 1⟩
/-- PRT_FAB.alive, bits [15:8], RO. -/
def prtFabAlive : Field := ⟨8, 8⟩
/-- PRT_FAB_SEQ.seq, bits [31:0], RO. -/
def prtFabSeqSeq : Field := ⟨0, 32⟩
/-- PRT_CTRL.en, bits [0:0], RW. -/
def prtCtrlEn : Field := ⟨0, 1⟩
/-- PRT_CTRL.rate, bits [1:1], RW. -/
def prtCtrlRate : Field := ⟨1, 1⟩
/-- PRT_CTRL.cv_alg, bits [3:2], RW. -/
def prtCtrlCvAlg : Field := ⟨2, 2⟩
/-- PRT_CTRL.cv_mode, bits [4:4], RW. -/
def prtCtrlCvMode : Field := ⟨4, 1⟩
/-- PRT_CTRL.partner_lock, bits [5:5], RW. -/
def prtCtrlPartnerLock : Field := ⟨5, 1⟩
/-- PRT_CTRL.streams, bits [14:8], RW. -/
def prtCtrlStreams : Field := ⟨8, 7⟩
/-- PRT_CTRL.keep_to, bits [31:16], RW. -/
def prtCtrlKeepTo : Field := ⟨16, 16⟩
/-- PRT_STATE.state, bits [2:0], RO. -/
def prtStateState : Field := ⟨0, 3⟩
/-- PRT_STATE.lanes_up, bits [11:4], RO. -/
def prtStateLanesUp : Field := ⟨4, 8⟩
/-- PRT_STATE.kind, bits [13:12], RO. -/
def prtStateKind : Field := ⟨12, 2⟩
/-- PRT_STATE.attach_count, bits [31:16], RO. -/
def prtStateAttachCount : Field := ⟨16, 16⟩
/-- PRT_STATUS.detach, bits [0:0], W1C. -/
def prtStatusDetach : Field := ⟨0, 1⟩
/-- PRT_STATUS.hdr_err, bits [1:1], W1C. -/
def prtStatusHdrErr : Field := ⟨1, 1⟩
/-- PRT_STATUS.cv_err, bits [2:2], W1C. -/
def prtStatusCvErr : Field := ⟨2, 1⟩
/-- PRT_STATUS.seq_gap, bits [3:3], W1C. -/
def prtStatusSeqGap : Field := ⟨3, 1⟩
/-- PRT_STATUS.stamp_err, bits [4:4], W1C. -/
def prtStatusStampErr : Field := ⟨4, 1⟩
/-- PRT_STATUS.refused, bits [5:5], W1C. -/
def prtStatusRefused : Field := ⟨5, 1⟩
/-- PRT_STATUS.tx_lost, bits [6:6], W1C. -/
def prtStatusTxLost : Field := ⟨6, 1⟩
/-- PRT_STATUS.cv_busy, bits [7:7], W1C. -/
def prtStatusCvBusy : Field := ⟨7, 1⟩
/-- PRT_INT_EN.en, bits [7:0], RW. -/
def prtIntEnEn : Field := ⟨0, 8⟩
/-- PRT_PARTNER_FW.revision, bits [31:0], RO. -/
def prtPartnerFwRevision : Field := ⟨0, 32⟩
/-- PRT_DET_EVT.count, bits [31:0], RO. -/
def prtDetEvtCount : Field := ⟨0, 32⟩
/-- PRT_HDR_EVT.count, bits [31:0], RO. -/
def prtHdrEvtCount : Field := ⟨0, 32⟩
/-- PRT_CV_EVT.count, bits [31:0], RO. -/
def prtCvEvtCount : Field := ⟨0, 32⟩
/-- PRT_SEQ_EVT.count, bits [31:0], RO. -/
def prtSeqEvtCount : Field := ⟨0, 32⟩
/-- PRT_STAMP_EVT.count, bits [31:0], RO. -/
def prtStampEvtCount : Field := ⟨0, 32⟩
/-- PRT_REF_EVT.count, bits [31:0], RO. -/
def prtRefEvtCount : Field := ⟨0, 32⟩
/-- PRT_TXL_EVT.count, bits [31:0], RO. -/
def prtTxlEvtCount : Field := ⟨0, 32⟩
/-- PRT_CVB_EVT.count, bits [31:0], RO. -/
def prtCvbEvtCount : Field := ⟨0, 32⟩
/-- PRT_CV_SEL.stream, bits [5:0], RW. -/
def prtCvSelStream : Field := ⟨0, 6⟩
/-- PRT_CV_SEL.dir, bits [6:6], RW. -/
def prtCvSelDir : Field := ⟨6, 1⟩
/-- PRT_CV_VAL.value, bits [31:0], RW. -/
def prtCvValValue : Field := ⟨0, 32⟩
/-- PRT_RX_MSGS.count, bits [31:0], RO. -/
def prtRxMsgsCount : Field := ⟨0, 32⟩
/-- MON_STATUS.ovr_a, bits [0:0], W1C. -/
def monStatusOvrA : Field := ⟨0, 1⟩
/-- MON_STATUS.ovr_b, bits [1:1], W1C. -/
def monStatusOvrB : Field := ⟨1, 1⟩
/-- MON_STATUS.trig_ovr_a, bits [2:2], W1C. -/
def monStatusTrigOvrA : Field := ⟨2, 1⟩
/-- MON_STATUS.trig_ovr_b, bits [3:3], W1C. -/
def monStatusTrigOvrB : Field := ⟨3, 1⟩
/-- MON_STATUS.xchk_fail, bits [4:4], W1C. -/
def monStatusXchkFail : Field := ⟨4, 1⟩
/-- MON_STATUS.cal_fail, bits [5:5], W1C. -/
def monStatusCalFail : Field := ⟨5, 1⟩
/-- MON_INT_EN.en, bits [5:0], RW. -/
def monIntEnEn : Field := ⟨0, 6⟩
/-- MON_TSEL.sensor, bits [6:0], RW. -/
def monTselSensor : Field := ⟨0, 7⟩
/-- MON_XCHK_CFG.chan, bits [4:0], RW. -/
def monXchkCfgChan : Field := ⟨0, 5⟩
/-- MON_XCHK_CFG.rate, bits [11:8], RW. -/
def monXchkCfgRate : Field := ⟨8, 4⟩
/-- MON_XCHK_CFG.period, bits [27:16], RW. -/
def monXchkCfgPeriod : Field := ⟨16, 12⟩
/-- MON_XCHK_THR.codes, bits [23:0], RW. -/
def monXchkThrCodes : Field := ⟨0, 24⟩
/-- MON_XCHK_THR.valid, bits [31:31], RO. -/
def monXchkThrValid : Field := ⟨31, 1⟩
/-- MON_XCHK_LAST.codes, bits [23:0], RO. -/
def monXchkLastCodes : Field := ⟨0, 24⟩
/-- MON_XCHK_LAST.valid, bits [31:31], RO. -/
def monXchkLastValid : Field := ⟨31, 1⟩
/-- MON_OVRA_EVT.count, bits [31:0], RO. -/
def monOvraEvtCount : Field := ⟨0, 32⟩
/-- MON_OVRB_EVT.count, bits [31:0], RO. -/
def monOvrbEvtCount : Field := ⟨0, 32⟩
/-- MON_TOA_EVT.count, bits [31:0], RO. -/
def monToaEvtCount : Field := ⟨0, 32⟩
/-- MON_TOB_EVT.count, bits [31:0], RO. -/
def monTobEvtCount : Field := ⟨0, 32⟩
/-- MON_XCHK_EVT.count, bits [31:0], RO. -/
def monXchkEvtCount : Field := ⟨0, 32⟩
/-- MON_CALF_EVT.count, bits [31:0], RO. -/
def monCalfEvtCount : Field := ⟨0, 32⟩
/-- MON_CV_CTRL.run, bits [0:0], RW. -/
def monCvCtrlRun : Field := ⟨0, 1⟩
/-- MON_CV_CTRL.mode, bits [1:1], RW. -/
def monCvCtrlMode : Field := ⟨1, 1⟩
/-- MON_CV_CTRL.lp, bits [2:2], RW. -/
def monCvCtrlLp : Field := ⟨2, 1⟩
/-- MON_CV_CTRL.rate, bits [7:4], RW. -/
def monCvCtrlRate : Field := ⟨4, 4⟩
/-- MON_CV_CTRL.trig, bits [10:8], RW. -/
def monCvCtrlTrig : Field := ⟨8, 3⟩
/-- MON_CV_CTRL.edge, bits [13:12], RW. -/
def monCvCtrlEdge : Field := ⟨12, 2⟩
/-- MON_CV_CTRL.seq_len, bits [21:16], RW. -/
def monCvCtrlSeqLen : Field := ⟨16, 6⟩
/-- MON_CV_CHAN.chan, bits [4:0], RW. -/
def monCvChanChan : Field := ⟨0, 5⟩
/-- MON_CV_URG.chan, bits [4:0], RW. -/
def monCvUrgChan : Field := ⟨0, 5⟩
/-- MON_CV_CMD.soft_trig, bits [0:0], W1S. -/
def monCvCmdSoftTrig : Field := ⟨0, 1⟩
/-- MON_CV_CMD.urgent, bits [1:1], W1S. -/
def monCvCmdUrgent : Field := ⟨1, 1⟩
/-- MON_CV_CMD.selfcal, bits [2:2], W1S. -/
def monCvCmdSelfcal : Field := ⟨2, 1⟩
/-- MON_CV_STATE.state, bits [2:0], RO. -/
def monCvStateState : Field := ⟨0, 3⟩
/-- MON_CV_STATE.chan, bits [12:8], RO. -/
def monCvStateChan : Field := ⟨8, 5⟩
/-- MON_CV_STATE.entry, bits [21:16], RO. -/
def monCvStateEntry : Field := ⟨16, 6⟩
/-- MON_CV_STATE.left, bits [31:24], RO. -/
def monCvStateLeft : Field := ⟨24, 8⟩
/-- MON_CV_OFS_SELF.offset, bits [31:0], RO. -/
def monCvOfsSelfOffset : Field := ⟨0, 32⟩
/-- MON_CV_OFS_FAC.offset, bits [31:0], RO. -/
def monCvOfsFacOffset : Field := ⟨0, 32⟩
/-- MON_CV_OFS_USER.offset, bits [31:0], RW. -/
def monCvOfsUserOffset : Field := ⟨0, 32⟩
/-- MON_CV_GAIN_SELF.gain, bits [31:0], RO. -/
def monCvGainSelfGain : Field := ⟨0, 32⟩
/-- MON_CV_GAIN_FAC.gain, bits [31:0], RO. -/
def monCvGainFacGain : Field := ⟨0, 32⟩
/-- MON_CV_GAIN_USER.gain, bits [31:0], RW. -/
def monCvGainUserGain : Field := ⟨0, 32⟩
/-- MON_SEQ.entry, bits [31:0], RW. -/
def monSeqEntry : Field := ⟨0, 32⟩
/-- MON_SNAP_SEL.chan, bits [4:0], RW. -/
def monSnapSelChan : Field := ⟨0, 5⟩
/-- MON_SNAP_SEL.conv, bits [8:8], RW. -/
def monSnapSelConv : Field := ⟨8, 1⟩
/-- MON_SNAP_SEL.snap, bits [31:31], W1S. -/
def monSnapSelSnap : Field := ⟨31, 1⟩
/-- MON_SNAP_SUM_LO.sum, bits [31:0], RO. -/
def monSnapSumLoSum : Field := ⟨0, 32⟩
/-- MON_SNAP_SUM_HI.sum, bits [31:0], RO. -/
def monSnapSumHiSum : Field := ⟨0, 32⟩
/-- MON_SNAP_COUNT.count, bits [15:0], RO. -/
def monSnapCountCount : Field := ⟨0, 16⟩
/-- MON_SNAP_COUNT.ovr, bits [31:16], RO. -/
def monSnapCountOvr : Field := ⟨16, 16⟩
/-- MON_SNAP_MIN.value, bits [31:0], RO. -/
def monSnapMinValue : Field := ⟨0, 32⟩
/-- MON_SNAP_MAX.value, bits [31:0], RO. -/
def monSnapMaxValue : Field := ⟨0, 32⟩
/-- PWR_STATE.state, bits [2:0], RO. -/
def pwrStateState : Field := ⟨0, 3⟩
/-- PWR_STATE.ramping, bits [15:8], RO. -/
def pwrStateRamping : Field := ⟨8, 8⟩
/-- PWR_STATE.queued, bits [22:16], RO. -/
def pwrStateQueued : Field := ⟨16, 7⟩
/-- PWR_LOCK.lock, bits [0:0], W1S. -/
def pwrLockLock : Field := ⟨0, 1⟩
/-- PWR_INRUSH_BUDGET.value, bits [10:0], RW-L. -/
def pwrInrushBudgetValue : Field := ⟨0, 11⟩
/-- PWR_SLEW.value, bits [10:0], RW-L. -/
def pwrSlewValue : Field := ⟨0, 11⟩
/-- PWR_LIMIT.value, bits [10:0], RW-L. -/
def pwrLimitValue : Field := ⟨0, 11⟩
/-- PWR_LOADSTEP.en, bits [0:0], RW-L. -/
def pwrLoadstepEn : Field := ⟨0, 1⟩
/-- PWR_LOADSTEP.amps, bits [13:8], RW-L. -/
def pwrLoadstepAmps : Field := ⟨8, 6⟩
/-- PWR_LOADSTEP.timeout, bits [25:16], RW-L. -/
def pwrLoadstepTimeout : Field := ⟨16, 10⟩
/-- PWR_PUMP_LIM.amp, bits [8:0], RW-L. -/
def pwrPumpLimAmp : Field := ⟨0, 9⟩
/-- PWR_PUMP_LIM.budget, bits [20:16], RW-L. -/
def pwrPumpLimBudget : Field := ⟨16, 5⟩
/-- PWR_PUMP_LIM.tiles, bits [29:24], RW-L. -/
def pwrPumpLimTiles : Field := ⟨24, 6⟩
/-- PWR_EST.mw10, bits [15:0], RO. -/
def pwrEstMw10 : Field := ⟨0, 16⟩
/-- PWR_STATUS.inrush_wait, bits [0:0], W1C. -/
def pwrStatusInrushWait : Field := ⟨0, 1⟩
/-- PWR_STATUS.slew_hold, bits [1:1], W1C. -/
def pwrStatusSlewHold : Field := ⟨1, 1⟩
/-- PWR_STATUS.noack, bits [2:2], W1C. -/
def pwrStatusNoack : Field := ⟨2, 1⟩
/-- PWR_STATUS.plimit, bits [3:3], W1C. -/
def pwrStatusPlimit : Field := ⟨3, 1⟩
/-- PWR_STATUS.dom_fail, bits [4:4], W1C. -/
def pwrStatusDomFail : Field := ⟨4, 1⟩
/-- PWR_INT_EN.en, bits [4:0], RW. -/
def pwrIntEnEn : Field := ⟨0, 5⟩
/-- PWR_INR_EVT.count, bits [31:0], RO. -/
def pwrInrEvtCount : Field := ⟨0, 32⟩
/-- PWR_SLEW_EVT.count, bits [31:0], RO. -/
def pwrSlewEvtCount : Field := ⟨0, 32⟩
/-- PWR_NOACK_EVT.count, bits [31:0], RO. -/
def pwrNoackEvtCount : Field := ⟨0, 32⟩
/-- PWR_PLIM_EVT.count, bits [31:0], RO. -/
def pwrPlimEvtCount : Field := ⟨0, 32⟩
/-- PWR_DOMF_EVT.count, bits [31:0], RO. -/
def pwrDomfEvtCount : Field := ⟨0, 32⟩
/-- PWR_DOM_REQ.dom, bits [31:0], RW. -/
def pwrDomReqDom : Field := ⟨0, 32⟩
/-- PWR_DOM_ON.dom, bits [31:0], RO. -/
def pwrDomOnDom : Field := ⟨0, 32⟩
/-- THM_LOCK.lock, bits [0:0], W1S. -/
def thmLockLock : Field := ⟨0, 1⟩
/-- THM_THR.celsius, bits [6:0], RW-L. -/
def thmThrCelsius : Field := ⟨0, 7⟩
/-- THM_LEVEL.level, bits [1:0], RO. -/
def thmLevelLevel : Field := ⟨0, 2⟩
/-- THM_LEVEL.thermal, bits [2:2], RO. -/
def thmLevelThermal : Field := ⟨2, 1⟩
/-- THM_LEVEL.power, bits [3:3], RO. -/
def thmLevelPower : Field := ⟨3, 1⟩
/-- THM_LEVEL.stopping, bits [4:4], RO. -/
def thmLevelStopping : Field := ⟨4, 1⟩
/-- THM_MAX.temp, bits [15:0], RO. -/
def thmMaxTemp : Field := ⟨0, 16⟩
/-- THM_MAX.sensor, bits [22:16], RO. -/
def thmMaxSensor : Field := ⟨16, 7⟩
/-- THM_STATUS.throttle, bits [0:0], W1C. -/
def thmStatusThrottle : Field := ⟨0, 1⟩
/-- THM_STATUS.level2, bits [1:1], W1C. -/
def thmStatusLevel2 : Field := ⟨1, 1⟩
/-- THM_STATUS.stop, bits [2:2], W1C. -/
def thmStatusStop : Field := ⟨2, 1⟩
/-- THM_STATUS.sensor_fail, bits [3:3], W1C. -/
def thmStatusSensorFail : Field := ⟨3, 1⟩
/-- THM_INT_EN.en, bits [3:0], RW. -/
def thmIntEnEn : Field := ⟨0, 4⟩
/-- THM_TRIP_CAUSE.temp, bits [15:0], RO. -/
def thmTripCauseTemp : Field := ⟨0, 16⟩
/-- THM_TRIP_CAUSE.sensor, bits [22:16], RO. -/
def thmTripCauseSensor : Field := ⟨16, 7⟩
/-- THM_TRIP_CAUSE.logged, bits [30:30], RW. -/
def thmTripCauseLogged : Field := ⟨30, 1⟩
/-- THM_TRIP_CAUSE.valid, bits [31:31], RO. -/
def thmTripCauseValid : Field := ⟨31, 1⟩
/-- THM_THR_EVT.count, bits [31:0], RO. -/
def thmThrEvtCount : Field := ⟨0, 32⟩
/-- THM_L2_EVT.count, bits [31:0], RO. -/
def thmL2EvtCount : Field := ⟨0, 32⟩
/-- THM_STOP_EVT.count, bits [31:0], RO. -/
def thmStopEvtCount : Field := ⟨0, 32⟩
/-- THM_SENF_EVT.count, bits [31:0], RO. -/
def thmSenfEvtCount : Field := ⟨0, 32⟩
/-- THM_TEMP.temp, bits [15:0], RO. -/
def thmTempTemp : Field := ⟨0, 16⟩
/-- THM_TEMP.failed, bits [16:16], RO. -/
def thmTempFailed : Field := ⟨16, 1⟩
/-- FLT_STATUS.new_src, bits [0:0], W1C. -/
def fltStatusNewSrc : Field := ⟨0, 1⟩
/-- FLT_STATUS.overflow, bits [1:1], W1C. -/
def fltStatusOverflow : Field := ⟨1, 1⟩
/-- FLT_STATUS.eng_fence, bits [2:2], W1C. -/
def fltStatusEngFence : Field := ⟨2, 1⟩
/-- FLT_STATUS.core_cycle, bits [3:3], W1C. -/
def fltStatusCoreCycle : Field := ⟨3, 1⟩
/-- FLT_STATUS.core_fence, bits [4:4], W1C. -/
def fltStatusCoreFence : Field := ⟨4, 1⟩
/-- FLT_STATUS.drr, bits [5:5], W1C. -/
def fltStatusDrr : Field := ⟨5, 1⟩
/-- FLT_INT_EN.en, bits [5:0], RW. -/
def fltIntEnEn : Field := ⟨0, 6⟩
/-- FLT_OPEN.open, bits [8:0], RO. -/
def fltOpenOpen : Field := ⟨0, 9⟩
/-- FLT_OPEN.high_water, bits [24:16], RO. -/
def fltOpenHighWater : Field := ⟨16, 9⟩
/-- FLT_REC_CTRL.avail, bits [6:0], RO. -/
def fltRecCtrlAvail : Field := ⟨0, 7⟩
/-- FLT_REC_CTRL.pop, bits [31:31], W1S. -/
def fltRecCtrlPop : Field := ⟨31, 1⟩
/-- FLT_CORE_STATE.core, bits [31:0], RO. -/
def fltCoreStateCore : Field := ⟨0, 32⟩
/-- FLT_DRR.count, bits [15:0], RO. -/
def fltDrrCount : Field := ⟨0, 16⟩
/-- FLT_DRR.cause, bits [19:16], RO. -/
def fltDrrCause : Field := ⟨16, 4⟩
/-- FLT_HOST_STATUS.fault, bits [0:0], W1C. -/
def fltHostStatusFault : Field := ⟨0, 1⟩
/-- FLT_HOST_STATUS.fenced, bits [1:1], W1C. -/
def fltHostStatusFenced : Field := ⟨1, 1⟩
/-- FLT_HOST_STATUS.drr, bits [2:2], W1C. -/
def fltHostStatusDrr : Field := ⟨2, 1⟩
/-- FLT_HOST_STATUS.dump, bits [3:3], W1C. -/
def fltHostStatusDump : Field := ⟨3, 1⟩
/-- FLT_HOST_STATUS.peer, bits [4:4], W1C. -/
def fltHostStatusPeer : Field := ⟨4, 1⟩
/-- FLT_HOST_INT_EN.en, bits [4:0], RW. -/
def fltHostIntEnEn : Field := ⟨0, 5⟩
/-- FLT_NEWSRC_EVT.count, bits [31:0], RO. -/
def fltNewsrcEvtCount : Field := ⟨0, 32⟩
/-- FLT_OVF_EVT.count, bits [31:0], RO. -/
def fltOvfEvtCount : Field := ⟨0, 32⟩
/-- FLT_ENG_EVT.count, bits [31:0], RO. -/
def fltEngEvtCount : Field := ⟨0, 32⟩
/-- FLT_CYC_EVT.count, bits [31:0], RO. -/
def fltCycEvtCount : Field := ⟨0, 32⟩
/-- FLT_CFEN_EVT.count, bits [31:0], RO. -/
def fltCfenEvtCount : Field := ⟨0, 32⟩
/-- FLT_DRR_EVT.count, bits [31:0], RO. -/
def fltDrrEvtCount : Field := ⟨0, 32⟩
/-- FLT_HFLT_EVT.count, bits [31:0], RO. -/
def fltHfltEvtCount : Field := ⟨0, 32⟩
/-- FLT_HFEN_EVT.count, bits [31:0], RO. -/
def fltHfenEvtCount : Field := ⟨0, 32⟩
/-- FLT_HDRR_EVT.count, bits [31:0], RO. -/
def fltHdrrEvtCount : Field := ⟨0, 32⟩
/-- FLT_HDMP_EVT.count, bits [31:0], RO. -/
def fltHdmpEvtCount : Field := ⟨0, 32⟩
/-- FLT_HPER_EVT.count, bits [31:0], RO. -/
def fltHperEvtCount : Field := ⟨0, 32⟩
/-- FLT_TIME_LO.time, bits [31:0], RO. -/
def fltTimeLoTime : Field := ⟨0, 32⟩
/-- FLT_TIME_HI.time, bits [31:0], RO. -/
def fltTimeHiTime : Field := ⟨0, 32⟩
/-- FLT_REC.word, bits [31:0], RO. -/
def fltRecWord : Field := ⟨0, 32⟩
/-- ID_DEVICE_ID.id, bits [31:0], RO. -/
def idDeviceIdId : Field := ⟨0, 32⟩
/-- ID_LOT_LO.lot, bits [31:0], RO. -/
def idLotLoLot : Field := ⟨0, 32⟩
/-- ID_LOT_HI.lot, bits [31:0], RO. -/
def idLotHiLot : Field := ⟨0, 32⟩
/-- ID_DIE.wafer, bits [7:0], RO. -/
def idDieWafer : Field := ⟨0, 8⟩
/-- ID_DIE.x, bits [15:8], RO. -/
def idDieX : Field := ⟨8, 8⟩
/-- ID_DIE.y, bits [23:16], RO. -/
def idDieY : Field := ⟨16, 8⟩
/-- ID_DIE.site, bits [31:24], RO. -/
def idDieSite : Field := ⟨24, 8⟩
/-- ID_PART.grade, bits [0:0], RO. -/
def idPartGrade : Field := ⟨0, 1⟩
/-- ID_PART.mem, bits [1:1], RO. -/
def idPartMem : Field := ⟨1, 1⟩
/-- ID_PART.rev, bits [15:8], RO. -/
def idPartRev : Field := ⟨8, 8⟩
/-- ID_TEST_DATE.value, bits [31:0], RO. -/
def idTestDateValue : Field := ⟨0, 32⟩
/-- ID_FCAL_REV.value, bits [31:0], RO. -/
def idFcalRevValue : Field := ⟨0, 32⟩
/-- ID_FW_REV.value, bits [31:0], RO. -/
def idFwRevValue : Field := ⟨0, 32⟩
/-- ID_BOOT.stage, bits [3:0], RO. -/
def idBootStage : Field := ⟨0, 4⟩
/-- ID_BOOT.pkg, bits [4:4], RO. -/
def idBootPkg : Field := ⟨4, 1⟩
/-- ID_BOOT.fallback, bits [5:5], RO. -/
def idBootFallback : Field := ⟨5, 1⟩
/-- ID_BOOT.unenrolled, bits [6:6], RO. -/
def idBootUnenrolled : Field := ⟨6, 1⟩
/-- ID_BOOT.debug, bits [7:7], RO. -/
def idBootDebug : Field := ⟨7, 1⟩
/-- ID_BOOT.superseded, bits [8:8], RO. -/
def idBootSuperseded : Field := ⟨8, 1⟩
/-- ID_BOOT.err_logged, bits [9:9], RW. -/
def idBootErrLogged : Field := ⟨9, 1⟩
/-- ID_BOOT.error, bits [31:16], RO. -/
def idBootError : Field := ⟨16, 16⟩
/-- ID_SVN.fw, bits [15:0], RO. -/
def idSvnFw : Field := ⟨0, 16⟩
/-- ID_SVN.integ, bits [31:16], RO. -/
def idSvnInteg : Field := ⟨16, 16⟩
/-- ID_SVN_FLOOR.fw, bits [15:0], RO. -/
def idSvnFloorFw : Field := ⟨0, 16⟩
/-- ID_SVN_FLOOR.integ, bits [31:16], RO. -/
def idSvnFloorInteg : Field := ⟨16, 16⟩
/-- SEC_LOCK.act, bits [0:0], W1S. -/
def secLockAct : Field := ⟨0, 1⟩
/-- SEC_LOCK.pwr, bits [1:1], RO. -/
def secLockPwr : Field := ⟨1, 1⟩
/-- SEC_LOCK.thm, bits [2:2], RO. -/
def secLockThm : Field := ⟨2, 1⟩
/-- PST_STATE.busy, bits [0:0], RO. -/
def pstStateBusy : Field := ⟨0, 1⟩
/-- PST_STATE.queued, bits [15:8], RO. -/
def pstStateQueued : Field := ⟨8, 8⟩
/-- PST_STATE.page, bits [26:16], RO. -/
def pstStatePage : Field := ⟨16, 11⟩
/-- PST_STATUS.torn, bits [0:0], W1C. -/
def pstStatusTorn : Field := ⟨0, 1⟩
/-- PST_STATUS.write_fail, bits [1:1], W1C. -/
def pstStatusWriteFail : Field := ⟨1, 1⟩
/-- PST_STATUS.weak, bits [2:2], W1C. -/
def pstStatusWeak : Field := ⟨2, 1⟩
/-- PST_STATUS.lost, bits [3:3], W1C. -/
def pstStatusLost : Field := ⟨3, 1⟩
/-- PST_INT_EN.en, bits [3:0], RW. -/
def pstIntEnEn : Field := ⟨0, 4⟩
/-- PST_WRITES.count, bits [31:0], RO. -/
def pstWritesCount : Field := ⟨0, 32⟩
/-- PST_TORN_EVT.count, bits [31:0], RO. -/
def pstTornEvtCount : Field := ⟨0, 32⟩
/-- PST_WFAIL_EVT.count, bits [31:0], RO. -/
def pstWfailEvtCount : Field := ⟨0, 32⟩
/-- PST_WEAK_EVT.count, bits [31:0], RO. -/
def pstWeakEvtCount : Field := ⟨0, 32⟩
/-- PST_LOST_EVT.count, bits [31:0], RO. -/
def pstLostEvtCount : Field := ⟨0, 32⟩
/-- PST_SCRUB.next, bits [10:0], RO. -/
def pstScrubNext : Field := ⟨0, 11⟩
/-- PST_SCRUB.passes, bits [31:16], RO. -/
def pstScrubPasses : Field := ⟨16, 16⟩
/-- SDM_ID.part, bits [15:0], RO. -/
def sdmIdPart : Field := ⟨0, 16⟩
/-- SDM_ID.map, bits [23:16], RO. -/
def sdmIdMap : Field := ⟨16, 8⟩
/-- SDM_PAGE.page, bits [7:0], RW. -/
def sdmPagePage : Field := ⟨0, 8⟩
/-- SDM_MB_CTRL.doorbell, bits [0:0], W1S. -/
def sdmMbCtrlDoorbell : Field := ⟨0, 1⟩
/-- SDM_MB_CTRL.reply_done, bits [1:1], W1S. -/
def sdmMbCtrlReplyDone : Field := ⟨1, 1⟩
/-- SDM_MB_CTRL.f2_abort, bits [2:2], W1S. -/
def sdmMbCtrlF2Abort : Field := ⟨2, 1⟩
/-- SDM_MB_STATE.state, bits [1:0], RO. -/
def sdmMbStateState : Field := ⟨0, 2⟩
/-- SDM_MB_STATE.long_busy, bits [2:2], RO. -/
def sdmMbStateLongBusy : Field := ⟨2, 1⟩
/-- SDM_MB_STATE.tag, bits [31:16], RO. -/
def sdmMbStateTag : Field := ⟨16, 16⟩
/-- SDM_HOST_STATUS.reply, bits [0:0], W1C. -/
def sdmHostStatusReply : Field := ⟨0, 1⟩
/-- SDM_HOST_STATUS.f2_ready, bits [1:1], W1C. -/
def sdmHostStatusF2Ready : Field := ⟨1, 1⟩
/-- SDM_HOST_STATUS.wr_discard, bits [2:2], W1C. -/
def sdmHostStatusWrDiscard : Field := ⟨2, 1⟩
/-- SDM_HOST_STATUS.f2_overrun, bits [3:3], W1C. -/
def sdmHostStatusF2Overrun : Field := ⟨3, 1⟩
/-- SDM_HOST_INT_EN.en, bits [3:0], RW. -/
def sdmHostIntEnEn : Field := ⟨0, 4⟩
/-- SDM_DISCARD_ADDR.addr, bits [23:0], RO. -/
def sdmDiscardAddrAddr : Field := ⟨0, 24⟩
/-- SDM_DISCARD_ADDR.reason, bits [26:24], RO. -/
def sdmDiscardAddrReason : Field := ⟨24, 3⟩
/-- SDM_F2_STATE.tag, bits [15:0], RO. -/
def sdmF2StateTag : Field := ⟨0, 16⟩
/-- SDM_F2_STATE.dir, bits [16:16], RO. -/
def sdmF2StateDir : Field := ⟨16, 1⟩
/-- SDM_F2_STATE.open, bits [17:17], RO. -/
def sdmF2StateOpen : Field := ⟨17, 1⟩
/-- SDM_F2_LEFT.bytes, bits [31:0], RO. -/
def sdmF2LeftBytes : Field := ⟨0, 32⟩
/-- SDM_REPLY_EVT.count, bits [31:0], RO. -/
def sdmReplyEvtCount : Field := ⟨0, 32⟩
/-- SDM_F2R_EVT.count, bits [31:0], RO. -/
def sdmF2rEvtCount : Field := ⟨0, 32⟩
/-- SDM_WDIS_EVT.count, bits [31:0], RO. -/
def sdmWdisEvtCount : Field := ⟨0, 32⟩
/-- SDM_F2OV_EVT.count, bits [31:0], RO. -/
def sdmF2ovEvtCount : Field := ⟨0, 32⟩

end F

/-- The register rows of the SDM page. -/
def rowsSdm : List RegRow :=
  [⟨0x0, 1, 0x0, 1, 0x0, 0x0, 0x0, 0x0, 0x0, 0x11640, 0x0⟩,
   ⟨0x4, 1, 0x0, 1, 0x0, 0xFF, 0x0, 0x0, 0x0, 0x0, 0x0⟩,
   ⟨0x8, 1, 0x0, 1, 0x0, 0x0, 0x0, 0x7, 0x0, 0x0, 0x0⟩,
   ⟨0xC, 1, 0x0, 1, 0x0, 0x0, 0x0, 0x0, 0x0, 0x0, 0x0⟩,
   ⟨0x10, 1, 0x0, 1, 0x0, 0x0, 0xF, 0x0, 0x0, 0x0, 0x0⟩,
   ⟨0x14, 1, 0x0, 1, 0x0, 0xF, 0x0, 0x0, 0x0, 0x3, 0x0⟩,
   ⟨0x18, 1, 0x0, 1, 0x0, 0x0, 0x0, 0x0, 0x0, 0x0, 0x0⟩,
   ⟨0x1C, 1, 0x0, 1, 0x0, 0x0, 0x0, 0x0, 0x0, 0x0, 0x0⟩,
   ⟨0x20, 1, 0x0, 1, 0x0, 0x0, 0x0, 0x0, 0x0, 0x0, 0x0⟩,
   ⟨0x40, 1, 0x0, 1, 0x0, 0x0, 0x0, 0x0, 0x0, 0x0, 0xFFFFFFFF⟩,
   ⟨0x44, 1, 0x0, 1, 0x0, 0x0, 0x0, 0x0, 0x0, 0x0, 0xFFFFFFFF⟩,
   ⟨0x48, 1, 0x0, 1, 0x0, 0x0, 0x0, 0x0, 0x0, 0x0, 0xFFFFFFFF⟩] ++
  [⟨0x4C, 1, 0x0, 1, 0x0, 0x0, 0x0, 0x0, 0x0, 0x0, 0xFFFFFFFF⟩]

/-- The register rows of the ID page. -/
def rowsId : List RegRow :=
  [⟨0x10000, 4, 0x4, 1, 0x0, 0x0, 0x0, 0x0, 0x0, 0x0, 0x0⟩,
   ⟨0x10010, 1, 0x0, 1, 0x0, 0x0, 0x0, 0x0, 0x0, 0x0, 0x0⟩,
   ⟨0x10014, 1, 0x0, 1, 0x0, 0x0, 0x0, 0x0, 0x0, 0x0, 0x0⟩,
   ⟨0x10018, 1, 0x0, 1, 0x0, 0x0, 0x0, 0x0, 0x0, 0x0, 0x0⟩,
   ⟨0x1001C, 1, 0x0, 1, 0x0, 0x0, 0x0, 0x0, 0x0, 0x0, 0x0⟩,
   ⟨0x10020, 1, 0x0, 1, 0x0, 0x0, 0x0, 0x0, 0x0, 0x0, 0x0⟩,
   ⟨0x10024, 1, 0x0, 1, 0x0, 0x0, 0x0, 0x0, 0x0, 0x0, 0x0⟩,
   ⟨0x10028, 1, 0x0, 1, 0x0, 0x0, 0x0, 0x0, 0x0, 0x0, 0x0⟩,
   ⟨0x1002C, 1, 0x0, 1, 0x0, 0x200, 0x0, 0x0, 0x0, 0x0, 0x0⟩,
   ⟨0x10030, 1, 0x0, 1, 0x0, 0x0, 0x0, 0x0, 0x0, 0x0, 0x0⟩,
   ⟨0x10034, 1, 0x0, 1, 0x0, 0x0, 0x0, 0x0, 0x0, 0x0, 0x0⟩]

/-- The register rows of the PWR page. -/
def rowsPwr : List RegRow :=
  [⟨0x20000, 1, 0x0, 1, 0x0, 0x0, 0x0, 0x0, 0x0, 0x0, 0x0⟩,
   ⟨0x20004, 1, 0x0, 1, 0x0, 0x0, 0x0, 0x1, 0x0, 0x0, 0x0⟩,
   ⟨0x20008, 1, 0x0, 1, 0x0, 0x0, 0x0, 0x0, 0x7FF, 0x40, 0x0⟩,
   ⟨0x2000C, 1, 0x0, 1, 0x0, 0x0, 0x0, 0x0, 0x7FF, 0x1A, 0x0⟩,
   ⟨0x20014, 1, 0x0, 1, 0x0, 0x0, 0x0, 0x0, 0x7FF, 0x4B, 0x0⟩,
   ⟨0x20010, 1, 0x0, 1, 0x0, 0x0, 0x0, 0x0, 0x3FF3F01, 0x640A00, 0x0⟩,
   ⟨0x20018, 1, 0x0, 1, 0x0, 0x0, 0x0, 0x0, 0x3F1F01FF, 0x20180140, 0x0⟩,
   ⟨0x2001C, 1, 0x0, 1, 0x0, 0x0, 0x0, 0x0, 0x0, 0x0, 0x0⟩,
   ⟨0x20020, 1, 0x0, 1, 0x0, 0x0, 0x1F, 0x0, 0x0, 0x0, 0x0⟩,
   ⟨0x20024, 1, 0x0, 1, 0x0, 0x1F, 0x0, 0x0, 0x0, 0x1C, 0x0⟩,
   ⟨0x20030, 1, 0x0, 1, 0x0, 0x0, 0x0, 0x0, 0x0, 0x0, 0xFFFFFFFF⟩,
   ⟨0x20034, 1, 0x0, 1, 0x0, 0x0, 0x0, 0x0, 0x0, 0x0, 0xFFFFFFFF⟩] ++
  [⟨0x20038, 1, 0x0, 1, 0x0, 0x0, 0x0, 0x0, 0x0, 0x0, 0xFFFFFFFF⟩,
   ⟨0x2003C, 1, 0x0, 1, 0x0, 0x0, 0x0, 0x0, 0x0, 0x0, 0xFFFFFFFF⟩,
   ⟨0x20040, 1, 0x0, 1, 0x0, 0x0, 0x0, 0x0, 0x0, 0x0, 0xFFFFFFFF⟩,
   ⟨0x20050, 3, 0x4, 1, 0x0, 0xFFFFFFFF, 0x0, 0x0, 0x0, 0x0, 0x0⟩,
   ⟨0x20060, 3, 0x4, 1, 0x0, 0x0, 0x0, 0x0, 0x0, 0x0, 0x0⟩]

/-- The register rows of the THM page. -/
def rowsThm : List RegRow :=
  [⟨0x30000, 1, 0x0, 1, 0x0, 0x0, 0x0, 0x1, 0x0, 0x0, 0x0⟩,
   ⟨0x30004, 1, 0x0, 1, 0x0, 0x0, 0x0, 0x0, 0x7F, 0x64, 0x0⟩,
   ⟨0x30008, 1, 0x0, 1, 0x0, 0x0, 0x0, 0x0, 0x0, 0x0, 0x0⟩,
   ⟨0x3000C, 1, 0x0, 1, 0x0, 0x0, 0x0, 0x0, 0x0, 0x0, 0x0⟩,
   ⟨0x30010, 1, 0x0, 1, 0x0, 0x0, 0xF, 0x0, 0x0, 0x0, 0x0⟩,
   ⟨0x30014, 1, 0x0, 1, 0x0, 0xF, 0x0, 0x0, 0x0, 0xF, 0x0⟩,
   ⟨0x30018, 1, 0x0, 1, 0x0, 0x40000000, 0x0, 0x0, 0x0, 0x0, 0x0⟩,
   ⟨0x30020, 1, 0x0, 1, 0x0, 0x0, 0x0, 0x0, 0x0, 0x0, 0xFFFFFFFF⟩,
   ⟨0x30024, 1, 0x0, 1, 0x0, 0x0, 0x0, 0x0, 0x0, 0x0, 0xFFFFFFFF⟩,
   ⟨0x30028, 1, 0x0, 1, 0x0, 0x0, 0x0, 0x0, 0x0, 0x0, 0xFFFFFFFF⟩,
   ⟨0x3002C, 1, 0x0, 1, 0x0, 0x0, 0x0, 0x0, 0x0, 0x0, 0xFFFFFFFF⟩,
   ⟨0x30100, 68, 0x4, 1, 0x0, 0x0, 0x0, 0x0, 0x0, 0x0, 0x0⟩]

/-- The register rows of the MON page. -/
def rowsMon : List RegRow :=
  [⟨0x40000, 1, 0x0, 1, 0x0, 0x0, 0x3F, 0x0, 0x0, 0x0, 0x0⟩,
   ⟨0x40004, 1, 0x0, 1, 0x0, 0x3F, 0x0, 0x0, 0x0, 0x30, 0x0⟩,
   ⟨0x40008, 1, 0x0, 1, 0x0, 0x7F, 0x0, 0x0, 0x0, 0x0, 0x0⟩,
   ⟨0x4000C, 1, 0x0, 1, 0x0, 0xFFF0F1F, 0x0, 0x0, 0x0, 0x0, 0x0⟩,
   ⟨0x40010, 1, 0x0, 1, 0x0, 0xFFFFFF, 0x0, 0x0, 0x0, 0x0, 0x0⟩,
   ⟨0x40014, 1, 0x0, 1, 0x0, 0x0, 0x0, 0x0, 0x0, 0x0, 0x0⟩,
   ⟨0x40020, 1, 0x0, 1, 0x0, 0x0, 0x0, 0x0, 0x0, 0x0, 0xFFFFFFFF⟩,
   ⟨0x40024, 1, 0x0, 1, 0x0, 0x0, 0x0, 0x0, 0x0, 0x0, 0xFFFFFFFF⟩,
   ⟨0x40028, 1, 0x0, 1, 0x0, 0x0, 0x0, 0x0, 0x0, 0x0, 0xFFFFFFFF⟩,
   ⟨0x4002C, 1, 0x0, 1, 0x0, 0x0, 0x0, 0x0, 0x0, 0x0, 0xFFFFFFFF⟩,
   ⟨0x40030, 1, 0x0, 1, 0x0, 0x0, 0x0, 0x0, 0x0, 0x0, 0xFFFFFFFF⟩,
   ⟨0x40034, 1, 0x0, 1, 0x0, 0x0, 0x0, 0x0, 0x0, 0x0, 0xFFFFFFFF⟩] ++
  [⟨0x40100, 2, 0x40, 1, 0x0, 0x3F37F7, 0x0, 0x0, 0x0, 0x430, 0x0⟩,
   ⟨0x40104, 2, 0x40, 1, 0x0, 0x1F, 0x0, 0x0, 0x0, 0x0, 0x0⟩,
   ⟨0x40108, 2, 0x40, 1, 0x0, 0x1F, 0x0, 0x0, 0x0, 0x0, 0x0⟩,
   ⟨0x4010C, 2, 0x40, 1, 0x0, 0x0, 0x0, 0x7, 0x0, 0x0, 0x0⟩,
   ⟨0x40110, 2, 0x40, 1, 0x0, 0x0, 0x0, 0x0, 0x0, 0x0, 0x0⟩,
   ⟨0x40114, 2, 0x40, 1, 0x0, 0x0, 0x0, 0x0, 0x0, 0x0, 0x0⟩,
   ⟨0x4011C, 2, 0x40, 1, 0x0, 0x0, 0x0, 0x0, 0x0, 0x0, 0x0⟩,
   ⟨0x40124, 2, 0x40, 1, 0x0, 0xFFFFFFFF, 0x0, 0x0, 0x0, 0x0, 0x0⟩,
   ⟨0x40118, 2, 0x40, 1, 0x0, 0x0, 0x0, 0x0, 0x0, 0x40000000, 0x0⟩,
   ⟨0x40120, 2, 0x40, 1, 0x0, 0x0, 0x0, 0x0, 0x0, 0x0, 0x0⟩,
   ⟨0x40128, 2, 0x40, 1, 0x0, 0xFFFFFFFF, 0x0, 0x0, 0x0, 0x40000000, 0x0⟩,
   ⟨0x40400, 2, 0x100, 64, 0x4, 0xFFFFFFFF, 0x0, 0x0, 0x0, 0x0, 0x0⟩] ++
  [⟨0x40800, 2, 0x20, 1, 0x0, 0x11F, 0x0, 0x80000000, 0x0, 0x0, 0x0⟩,
   ⟨0x40804, 2, 0x20, 1, 0x0, 0x0, 0x0, 0x0, 0x0, 0x0, 0x0⟩,
   ⟨0x40808, 2, 0x20, 1, 0x0, 0x0, 0x0, 0x0, 0x0, 0x0, 0x0⟩,
   ⟨0x4080C, 2, 0x20, 1, 0x0, 0x0, 0x0, 0x0, 0x0, 0x0, 0x0⟩,
   ⟨0x40810, 2, 0x20, 1, 0x0, 0x0, 0x0, 0x0, 0x0, 0x0, 0x0⟩,
   ⟨0x40814, 2, 0x20, 1, 0x0, 0x0, 0x0, 0x0, 0x0, 0x0, 0x0⟩]

/-- The register rows of the ACT page. -/
def rowsAct : List RegRow :=
  [⟨0x50000, 1, 0x0, 1, 0x0, 0x3, 0x0, 0xC, 0x0, 0x100, 0x0⟩,
   ⟨0x50004, 1, 0x0, 1, 0x0, 0x0, 0x0, 0x0, 0xFFFFFFF, 0x0, 0x0⟩,
   ⟨0x50008, 1, 0x0, 1, 0x0, 0xFFFF0000, 0x0, 0x0, 0xFFFF, 0x0, 0x0⟩,
   ⟨0x5000C, 1, 0x0, 1, 0x0, 0x0, 0x0, 0x0, 0x0, 0x0, 0x0⟩,
   ⟨0x50010, 1, 0x0, 1, 0x0, 0x0, 0x7F, 0x0, 0x0, 0x0, 0x0⟩,
   ⟨0x50014, 1, 0x0, 1, 0x0, 0x7F, 0x0, 0x0, 0x0, 0x1A, 0x0⟩,
   ⟨0x50018, 1, 0x0, 1, 0x0, 0x0, 0x0, 0x0, 0x0, 0x0, 0xFFFFFFFF⟩,
   ⟨0x5001C, 1, 0x0, 1, 0x0, 0x0, 0x0, 0x0, 0x0, 0x0, 0xFFFFFFFF⟩,
   ⟨0x50020, 1, 0x0, 1, 0x0, 0x0, 0x0, 0x0, 0x0, 0x0, 0xFFFFFFFF⟩,
   ⟨0x50024, 1, 0x0, 1, 0x0, 0x0, 0x0, 0x0, 0x0, 0x0, 0xFFFFFFFF⟩,
   ⟨0x50028, 1, 0x0, 1, 0x0, 0x0, 0x0, 0x0, 0x0, 0x0, 0xFFFFFFFF⟩,
   ⟨0x5002C, 1, 0x0, 1, 0x0, 0x0, 0x0, 0x0, 0x0, 0x0, 0xFFFFFFFF⟩] ++
  [⟨0x50030, 1, 0x0, 1, 0x0, 0x0, 0x0, 0x0, 0x0, 0x0, 0xFFFFFFFF⟩,
   ⟨0x50034, 1, 0x0, 1, 0x0, 0x0, 0x0, 0x0, 0x0, 0x0, 0xFFFFFFFF⟩,
   ⟨0x50038, 1, 0x0, 1, 0x0, 0x0, 0x0, 0x0, 0x0, 0x0, 0xFFFFFFFF⟩,
   ⟨0x50100, 1, 0x0, 1, 0x0, 0xFF00, 0x0, 0x1, 0x0, 0x0, 0x0⟩,
   ⟨0x50104, 1, 0x0, 1, 0x0, 0x0, 0x0, 0x0, 0x0, 0x0, 0xFFFFFFFF⟩,
   ⟨0x50200, 8, 0x20, 1, 0x0, 0x7, 0x0, 0x0, 0x0, 0x0, 0x0⟩,
   ⟨0x50204, 8, 0x20, 1, 0x0, 0xFFFFF, 0x0, 0x0, 0x0, 0x0, 0x0⟩,
   ⟨0x50208, 8, 0x20, 1, 0x0, 0xFFFFF, 0x0, 0x0, 0x0, 0x0, 0x0⟩,
   ⟨0x5020C, 8, 0x20, 1, 0x0, 0xFFFFFFFF, 0x0, 0x0, 0x0, 0x0, 0x0⟩,
   ⟨0x50210, 8, 0x20, 1, 0x0, 0xFFFFFFFF, 0x0, 0x0, 0x0, 0x0, 0x0⟩,
   ⟨0x50214, 8, 0x20, 1, 0x0, 0x0, 0x0, 0x0, 0x0, 0x400000, 0x0⟩]

/-- The register rows of the LCK page. -/
def rowsLck : List RegRow :=
  [⟨0x60000, 1, 0x0, 1, 0x0, 0x1FFF, 0x0, 0x0, 0x0, 0x330, 0x0⟩,
   ⟨0x60004, 1, 0x0, 1, 0x0, 0x0, 0x0, 0x0, 0x0, 0x0, 0x0⟩,
   ⟨0x60008, 1, 0x0, 1, 0x0, 0x0, 0x0, 0x0, 0x0, 0x0, 0x0⟩,
   ⟨0x6000C, 1, 0x0, 1, 0x0, 0x0, 0x0, 0x0, 0x0, 0x0, 0x0⟩,
   ⟨0x60010, 1, 0x0, 1, 0x0, 0x0, 0x0, 0x0, 0x0, 0x0, 0x0⟩,
   ⟨0x60014, 1, 0x0, 1, 0x0, 0x0, 0x0, 0x0, 0x0, 0x0, 0x0⟩,
   ⟨0x60018, 1, 0x0, 1, 0x0, 0x0, 0x0, 0x0, 0x0, 0x0, 0x0⟩,
   ⟨0x6001C, 1, 0x0, 1, 0x0, 0x0, 0x0, 0x0, 0x0, 0x0, 0x0⟩,
   ⟨0x60020, 1, 0x0, 1, 0x0, 0x0, 0x0, 0x0, 0x0, 0x0, 0x0⟩,
   ⟨0x60024, 1, 0x0, 1, 0x0, 0x0, 0xFF, 0x0, 0x0, 0x0, 0x0⟩,
   ⟨0x60028, 1, 0x0, 1, 0x0, 0xFF, 0x0, 0x0, 0x0, 0xD3, 0x0⟩,
   ⟨0x6002C, 1, 0x0, 1, 0x0, 0x0, 0x0, 0x0, 0x0, 0x0, 0x1FFF0000⟩] ++
  [⟨0x60030, 1, 0x0, 1, 0x0, 0x0, 0x0, 0x0, 0x0, 0x0, 0x0⟩,
   ⟨0x60034, 1, 0x0, 1, 0x0, 0x1FF03FF, 0x0, 0x0, 0x0, 0x0, 0x0⟩,
   ⟨0x60040, 1, 0x0, 1, 0x0, 0x0, 0x0, 0x0, 0x0, 0x0, 0xFFFFFFFF⟩,
   ⟨0x60044, 1, 0x0, 1, 0x0, 0x0, 0x0, 0x0, 0x0, 0x0, 0xFFFFFFFF⟩,
   ⟨0x60048, 1, 0x0, 1, 0x0, 0x0, 0x0, 0x0, 0x0, 0x0, 0xFFFFFFFF⟩,
   ⟨0x6004C, 1, 0x0, 1, 0x0, 0x0, 0x0, 0x0, 0x0, 0x0, 0xFFFFFFFF⟩,
   ⟨0x60050, 1, 0x0, 1, 0x0, 0x0, 0x0, 0x0, 0x0, 0x0, 0xFFFFFFFF⟩,
   ⟨0x60054, 1, 0x0, 1, 0x0, 0x0, 0x0, 0x0, 0x0, 0x0, 0xFFFFFFFF⟩,
   ⟨0x60058, 1, 0x0, 1, 0x0, 0x0, 0x0, 0x0, 0x0, 0x0, 0xFFFFFFFF⟩,
   ⟨0x6005C, 1, 0x0, 1, 0x0, 0x0, 0x0, 0x0, 0x0, 0x0, 0xFFFFFFFF⟩,
   ⟨0x61000, 64, 0x20, 1, 0x0, 0x0, 0x1, 0x0, 0x0, 0x0, 0x0⟩,
   ⟨0x61004, 64, 0x20, 1, 0x0, 0x0, 0x0, 0x0, 0x0, 0x0, 0xFFFFFFFF⟩] ++
  [⟨0x61008, 64, 0x20, 1, 0x0, 0x0, 0x0, 0x0, 0x0, 0x0, 0xFFFFFFFF⟩,
   ⟨0x6100C, 64, 0x20, 1, 0x0, 0x0, 0x0, 0x0, 0x0, 0x0, 0xFFFFFFFF⟩,
   ⟨0x61010, 64, 0x20, 1, 0x0, 0x0, 0x0, 0x0, 0x0, 0x0, 0xFFFFFFFF⟩,
   ⟨0x61014, 64, 0x20, 1, 0x0, 0x0, 0x0, 0x0, 0x0, 0x0, 0xFFFFFFFF⟩,
   ⟨0x61018, 64, 0x20, 1, 0x0, 0x0, 0x0, 0x0, 0x0, 0x0, 0xFFFFFFFF⟩,
   ⟨0x6101C, 64, 0x20, 1, 0x0, 0x0, 0x0, 0x0, 0x0, 0x0, 0xFFFFFFFF⟩]

/-- The register rows of the PRT page. -/
def rowsPrt : List RegRow :=
  [⟨0x70000, 1, 0x0, 1, 0x0, 0x17, 0x0, 0x0, 0x0, 0x0, 0x0⟩,
   ⟨0x70004, 1, 0x0, 1, 0x0, 0x0, 0x0, 0x0, 0x0, 0x0, 0x0⟩,
   ⟨0x70100, 8, 0x40, 1, 0x0, 0xFFFF7F3F, 0x0, 0x0, 0x0, 0x0, 0x0⟩,
   ⟨0x70104, 8, 0x40, 1, 0x0, 0x0, 0x0, 0x0, 0x0, 0x0, 0xFFFF0000⟩,
   ⟨0x70108, 8, 0x40, 1, 0x0, 0x0, 0xFF, 0x0, 0x0, 0x0, 0x0⟩,
   ⟨0x7010C, 8, 0x40, 1, 0x0, 0xFF, 0x0, 0x0, 0x0, 0x25, 0x0⟩,
   ⟨0x70110, 8, 0x40, 1, 0x0, 0x0, 0x0, 0x0, 0x0, 0x0, 0x0⟩,
   ⟨0x70114, 8, 0x40, 1, 0x0, 0x0, 0x0, 0x0, 0x0, 0x0, 0xFFFFFFFF⟩,
   ⟨0x70118, 8, 0x40, 1, 0x0, 0x0, 0x0, 0x0, 0x0, 0x0, 0xFFFFFFFF⟩,
   ⟨0x7011C, 8, 0x40, 1, 0x0, 0x0, 0x0, 0x0, 0x0, 0x0, 0xFFFFFFFF⟩,
   ⟨0x70120, 8, 0x40, 1, 0x0, 0x0, 0x0, 0x0, 0x0, 0x0, 0xFFFFFFFF⟩,
   ⟨0x70124, 8, 0x40, 1, 0x0, 0x0, 0x0, 0x0, 0x0, 0x0, 0xFFFFFFFF⟩] ++
  [⟨0x70128, 8, 0x40, 1, 0x0, 0x0, 0x0, 0x0, 0x0, 0x0, 0xFFFFFFFF⟩,
   ⟨0x7012C, 8, 0x40, 1, 0x0, 0x0, 0x0, 0x0, 0x0, 0x0, 0xFFFFFFFF⟩,
   ⟨0x70130, 8, 0x40, 1, 0x0, 0x0, 0x0, 0x0, 0x0, 0x0, 0xFFFFFFFF⟩,
   ⟨0x70134, 8, 0x40, 1, 0x0, 0x7F, 0x0, 0x0, 0x0, 0x0, 0x0⟩,
   ⟨0x70138, 8, 0x40, 1, 0x0, 0xFFFFFFFF, 0x0, 0x0, 0x0, 0x0, 0x0⟩,
   ⟨0x7013C, 8, 0x40, 1, 0x0, 0x0, 0x0, 0x0, 0x0, 0x0, 0xFFFFFFFF⟩]

/-- The register rows of the PST page. -/
def rowsPst : List RegRow :=
  [⟨0x80000, 1, 0x0, 1, 0x0, 0x0, 0x0, 0x0, 0x0, 0x0, 0x0⟩,
   ⟨0x80004, 1, 0x0, 1, 0x0, 0x0, 0xF, 0x0, 0x0, 0x0, 0x0⟩,
   ⟨0x80008, 1, 0x0, 1, 0x0, 0xF, 0x0, 0x0, 0x0, 0xA, 0x0⟩,
   ⟨0x8000C, 1, 0x0, 1, 0x0, 0x0, 0x0, 0x0, 0x0, 0x0, 0xFFFFFFFF⟩,
   ⟨0x80010, 1, 0x0, 1, 0x0, 0x0, 0x0, 0x0, 0x0, 0x0, 0xFFFFFFFF⟩,
   ⟨0x80014, 1, 0x0, 1, 0x0, 0x0, 0x0, 0x0, 0x0, 0x0, 0xFFFFFFFF⟩,
   ⟨0x80018, 1, 0x0, 1, 0x0, 0x0, 0x0, 0x0, 0x0, 0x0, 0xFFFFFFFF⟩,
   ⟨0x8001C, 1, 0x0, 1, 0x0, 0x0, 0x0, 0x0, 0x0, 0x0, 0xFFFFFFFF⟩,
   ⟨0x80020, 1, 0x0, 1, 0x0, 0x0, 0x0, 0x0, 0x0, 0x0, 0xFFFF0000⟩]

/-- The register rows of the FLT page. -/
def rowsFlt : List RegRow :=
  [⟨0x90000, 1, 0x0, 1, 0x0, 0x0, 0x3F, 0x0, 0x0, 0x0, 0x0⟩,
   ⟨0x90004, 1, 0x0, 1, 0x0, 0x3F, 0x0, 0x0, 0x0, 0x3F, 0x0⟩,
   ⟨0x90008, 1, 0x0, 1, 0x0, 0x0, 0x0, 0x0, 0x0, 0x0, 0x1FF0000⟩,
   ⟨0x9000C, 1, 0x0, 1, 0x0, 0x0, 0x0, 0x80000000, 0x0, 0x0, 0x0⟩,
   ⟨0x90010, 1, 0x0, 1, 0x0, 0x0, 0x0, 0x0, 0x0, 0x0, 0x0⟩,
   ⟨0x90014, 1, 0x0, 1, 0x0, 0x0, 0x0, 0x0, 0x0, 0x0, 0xFFFF⟩,
   ⟨0x90018, 1, 0x0, 1, 0x0, 0x0, 0x1F, 0x0, 0x0, 0x0, 0x0⟩,
   ⟨0x9001C, 1, 0x0, 1, 0x0, 0x1F, 0x0, 0x0, 0x0, 0x7, 0x0⟩,
   ⟨0x90020, 1, 0x0, 1, 0x0, 0x0, 0x0, 0x0, 0x0, 0x0, 0xFFFFFFFF⟩,
   ⟨0x90024, 1, 0x0, 1, 0x0, 0x0, 0x0, 0x0, 0x0, 0x0, 0xFFFFFFFF⟩,
   ⟨0x90028, 1, 0x0, 1, 0x0, 0x0, 0x0, 0x0, 0x0, 0x0, 0xFFFFFFFF⟩,
   ⟨0x9002C, 1, 0x0, 1, 0x0, 0x0, 0x0, 0x0, 0x0, 0x0, 0xFFFFFFFF⟩] ++
  [⟨0x90030, 1, 0x0, 1, 0x0, 0x0, 0x0, 0x0, 0x0, 0x0, 0xFFFFFFFF⟩,
   ⟨0x90034, 1, 0x0, 1, 0x0, 0x0, 0x0, 0x0, 0x0, 0x0, 0xFFFFFFFF⟩,
   ⟨0x90060, 1, 0x0, 1, 0x0, 0x0, 0x0, 0x0, 0x0, 0x0, 0xFFFFFFFF⟩,
   ⟨0x90064, 1, 0x0, 1, 0x0, 0x0, 0x0, 0x0, 0x0, 0x0, 0xFFFFFFFF⟩,
   ⟨0x90068, 1, 0x0, 1, 0x0, 0x0, 0x0, 0x0, 0x0, 0x0, 0xFFFFFFFF⟩,
   ⟨0x9006C, 1, 0x0, 1, 0x0, 0x0, 0x0, 0x0, 0x0, 0x0, 0xFFFFFFFF⟩,
   ⟨0x90070, 1, 0x0, 1, 0x0, 0x0, 0x0, 0x0, 0x0, 0x0, 0xFFFFFFFF⟩,
   ⟨0x90038, 1, 0x0, 1, 0x0, 0x0, 0x0, 0x0, 0x0, 0x0, 0xFFFFFFFF⟩,
   ⟨0x9003C, 1, 0x0, 1, 0x0, 0x0, 0x0, 0x0, 0x0, 0x0, 0xFFFFFFFF⟩,
   ⟨0x90040, 8, 0x4, 1, 0x0, 0x0, 0x0, 0x0, 0x0, 0x0, 0x0⟩]

/-- The register rows of the SEC page. -/
def rowsSec : List RegRow :=
  [⟨0xA0000, 1, 0x0, 1, 0x0, 0x0, 0x0, 0x1, 0x0, 0x0, 0x0⟩]

/-- The register rows of the DSP page. -/
def rowsDsp : List RegRow :=
  [⟨0xBF000, 1, 0x0, 1, 0x0, 0x0, 0x0, 0x0, 0x0, 0x0, 0x0⟩,
   ⟨0xBF004, 1, 0x0, 1, 0x0, 0x0, 0x0, 0x0, 0x0, 0x0, 0x0⟩,
   ⟨0xBF008, 1, 0x0, 1, 0x0, 0x0, 0x0, 0x0, 0x0, 0x0, 0x0⟩,
   ⟨0xB0000, 1, 0x0, 1, 0x0, 0x1, 0x0, 0x0, 0x0, 0x0, 0x0⟩,
   ⟨0xB0004, 1, 0x0, 1, 0x0, 0x0, 0x0, 0x0, 0x0, 0x0, 0xFFFF0000⟩,
   ⟨0xB0008, 1, 0x0, 1, 0x0, 0x0, 0x3F, 0x0, 0x0, 0x0, 0x0⟩,
   ⟨0xB000C, 1, 0x0, 1, 0x0, 0x3F, 0x0, 0x0, 0x0, 0x1D, 0x0⟩,
   ⟨0xB0010, 1, 0x0, 1, 0x0, 0x0, 0x0, 0x0, 0x0, 0x0, 0xFFFFFFFF⟩,
   ⟨0xB0014, 1, 0x0, 1, 0x0, 0x0, 0x0, 0x0, 0x0, 0x0, 0xFFFFFFFF⟩,
   ⟨0xB0018, 1, 0x0, 1, 0x0, 0x0, 0x0, 0x0, 0x0, 0x0, 0xFFFFFFFF⟩,
   ⟨0xB001C, 1, 0x0, 1, 0x0, 0x0, 0x0, 0x0, 0x0, 0x0, 0xFFFFFFFF⟩,
   ⟨0xB0020, 1, 0x0, 1, 0x0, 0x0, 0x0, 0x0, 0x0, 0x0, 0xFFFFFFFF⟩] ++
  [⟨0xB0024, 1, 0x0, 1, 0x0, 0x0, 0x0, 0x0, 0x0, 0x0, 0xFFFFFFFF⟩,
   ⟨0xB0100, 8, 0x4, 1, 0x0, 0x1FFFF, 0x0, 0x0, 0x0, 0x0, 0x0⟩,
   ⟨0xB1000, 64, 0x20, 1, 0x0, 0x1FF02, 0x0, 0x1, 0x0, 0x0, 0x0⟩,
   ⟨0xB1004, 64, 0x20, 1, 0x0, 0x0, 0x8, 0x0, 0x0, 0x0, 0x0⟩,
   ⟨0xB1008, 64, 0x20, 1, 0x0, 0x0, 0x0, 0x0, 0x0, 0x0, 0x0⟩,
   ⟨0xB100C, 64, 0x20, 1, 0x0, 0x0, 0x0, 0x0, 0x0, 0x0, 0xF000⟩,
   ⟨0xB1010, 64, 0x20, 1, 0x0, 0x0, 0x0, 0x0, 0x0, 0x0, 0xFFFFFFFF⟩,
   ⟨0xB1014, 64, 0x20, 1, 0x0, 0x0, 0x0, 0x0, 0x0, 0x0, 0xFFFFFFFF⟩,
   ⟨0xB1018, 64, 0x20, 1, 0x0, 0xFFFFFFFF, 0x0, 0x0, 0x0, 0x0, 0x0⟩,
   ⟨0xB101C, 64, 0x20, 1, 0x0, 0xFFFFFFFF, 0x0, 0x0, 0x0, 0x0, 0x0⟩,
   ⟨0xB2000, 64, 0x4, 1, 0x0, 0x0, 0x0, 0x0, 0x0, 0x0, 0xFFFFFFFF⟩]

/-- The register rows of the STK page. -/
def rowsStk : List RegRow :=
  [⟨0xC0000, 1, 0x0, 1, 0x0, 0x7, 0x0, 0x0, 0x0, 0x4, 0x0⟩,
   ⟨0xC0004, 1, 0x0, 1, 0x0, 0x1FFFF, 0x0, 0x0, 0x0, 0x0, 0x0⟩,
   ⟨0xC0008, 1, 0x0, 1, 0x0, 0x0, 0x0, 0x0, 0x0, 0x0, 0x0⟩,
   ⟨0xC000C, 1, 0x0, 1, 0x0, 0x0, 0x0, 0x80000000, 0x0, 0x0, 0x0⟩,
   ⟨0xC0010, 1, 0x0, 1, 0x0, 0x0, 0x0, 0x0, 0x0, 0x0, 0x0⟩,
   ⟨0xC0014, 1, 0x0, 1, 0x0, 0x0, 0xFF, 0x0, 0x0, 0x0, 0x0⟩,
   ⟨0xC0018, 1, 0x0, 1, 0x0, 0xFF, 0x0, 0x0, 0x0, 0x8B, 0x0⟩,
   ⟨0xC001C, 1, 0x0, 1, 0x0, 0x0, 0x0, 0x0, 0x0, 0x0, 0x0⟩,
   ⟨0xC0020, 1, 0x0, 1, 0x0, 0x0, 0x0, 0x0, 0x0, 0x0, 0xFFFFFFFF⟩,
   ⟨0xC0024, 1, 0x0, 1, 0x0, 0x0, 0x0, 0x0, 0x0, 0x0, 0xFFFFFFFF⟩,
   ⟨0xC0028, 1, 0x0, 1, 0x0, 0x0, 0x0, 0x0, 0x0, 0x0, 0xFFFFFFFF⟩,
   ⟨0xC002C, 1, 0x0, 1, 0x0, 0x0, 0x0, 0x0, 0x0, 0x0, 0xFFFFFFFF⟩] ++
  [⟨0xC0030, 1, 0x0, 1, 0x0, 0x0, 0x0, 0x0, 0x0, 0x0, 0xFFFFFFFF⟩,
   ⟨0xC0034, 1, 0x0, 1, 0x0, 0x0, 0x0, 0x0, 0x0, 0x0, 0xFFFFFFFF⟩,
   ⟨0xC0038, 1, 0x0, 1, 0x0, 0x0, 0x0, 0x0, 0x0, 0x0, 0xFFFFFFFF⟩,
   ⟨0xC003C, 1, 0x0, 1, 0x0, 0x0, 0x0, 0x0, 0x0, 0x0, 0xFFFFFFFF⟩,
   ⟨0xC0040, 1, 0x0, 1, 0x0, 0x0, 0x0, 0x0, 0x0, 0x0, 0xFFFFFFFF⟩,
   ⟨0xC0044, 1, 0x0, 1, 0x0, 0x0, 0x0, 0x0, 0x0, 0x0, 0xFFFFFFFF⟩,
   ⟨0xC0100, 64, 0x10, 1, 0x0, 0x0, 0x0, 0x0, 0x0, 0x0, 0xFFFFFFFF⟩,
   ⟨0xC0104, 64, 0x10, 1, 0x0, 0x0, 0x0, 0x0, 0x0, 0x0, 0xFFFFFFFF⟩,
   ⟨0xC0108, 64, 0x10, 1, 0x0, 0x0, 0x0, 0x0, 0x0, 0x0, 0x0⟩,
   ⟨0xC1000, 64, 0x20, 1, 0x0, 0x7FF1, 0x0, 0x0, 0x0, 0x0, 0x0⟩,
   ⟨0xC1004, 64, 0x20, 1, 0x0, 0xFFFFFFFF, 0x0, 0x0, 0x0, 0x0, 0x0⟩,
   ⟨0xC1008, 64, 0x20, 1, 0x0, 0xFFFFFFFF, 0x0, 0x0, 0x0, 0x0, 0x0⟩] ++
  [⟨0xC100C, 64, 0x20, 1, 0x0, 0xFFFFFFFF, 0x0, 0x0, 0x0, 0x0, 0x0⟩,
   ⟨0xC1010, 64, 0x20, 1, 0x0, 0x0, 0x0, 0x0, 0x0, 0x0, 0x0⟩,
   ⟨0xC1014, 64, 0x20, 1, 0x0, 0x0, 0x0, 0x0, 0x0, 0x0, 0x0⟩,
   ⟨0xC1018, 64, 0x20, 1, 0x0, 0x0, 0x0, 0x0, 0x0, 0x0, 0xFFFFFFFF⟩,
   ⟨0xC101C, 64, 0x20, 1, 0x0, 0x0, 0x0, 0x0, 0x0, 0x0, 0xFFFFFFFF⟩]

/-- The register rows of the CORE pages (core windows). -/
def rowsCore : List RegRow :=
  [⟨0x100000, 16, 0x10000, 1, 0x0, 0x0, 0x0, 0x0, 0x0, 0x440000, 0x0⟩,
   ⟨0x100004, 16, 0x10000, 1, 0x0, 0x3FF, 0x0, 0x0, 0x0, 0x0, 0x0⟩,
   ⟨0x100008, 16, 0x10000, 1, 0x0, 0xFFF0337F, 0x0, 0x10000, 0x0, 0x0, 0x0⟩,
   ⟨0x10000C, 16, 0x10000, 1, 0x0, 0x0, 0x0, 0x0, 0x0, 0x0, 0x0⟩,
   ⟨0x100010, 16, 0x10000, 1, 0x0, 0x0, 0x0, 0x0, 0x0, 0x0, 0x0⟩,
   ⟨0x100014, 16, 0x10000, 1, 0x0, 0x0, 0x0, 0x0, 0x0, 0x0, 0x0⟩,
   ⟨0x100018, 16, 0x10000, 1, 0x0, 0x0, 0x0, 0x0, 0x0, 0x0, 0x0⟩,
   ⟨0x100100, 16, 0x10000, 68, 0x40, 0x137, 0x0, 0x0, 0x0, 0x4, 0x0⟩,
   ⟨0x100104, 16, 0x10000, 68, 0x40, 0x0, 0x0, 0x0, 0x0, 0x0, 0x0⟩,
   ⟨0x100108, 16, 0x10000, 68, 0x40, 0x0, 0x3F, 0x0, 0x0, 0x0, 0x0⟩,
   ⟨0x10010C, 16, 0x10000, 68, 0x40, 0x3F, 0x0, 0x0, 0x0, 0x39, 0x0⟩,
   ⟨0x100110, 16, 0x10000, 68, 0x40, 0x0, 0x0, 0x0, 0x0, 0x0, 0x0⟩] ++
  [⟨0x100114, 16, 0x10000, 68, 0x40, 0x0, 0x0, 0x0, 0x0, 0x0, 0xFFFFFFFF⟩,
   ⟨0x100118, 16, 0x10000, 68, 0x40, 0x0, 0x0, 0x0, 0x0, 0x0, 0xFFFFFFFF⟩,
   ⟨0x10011C, 16, 0x10000, 68, 0x40, 0x0, 0x0, 0x0, 0x0, 0x4000, 0x0⟩,
   ⟨0x100120, 16, 0x10000, 68, 0x40, 0x0, 0x0, 0x0, 0x0, 0x0, 0xFFFFFFFF⟩,
   ⟨0x100124, 16, 0x10000, 68, 0x40, 0x0, 0x0, 0x0, 0x0, 0x0, 0xFFFFFFFF⟩,
   ⟨0x100128, 16, 0x10000, 68, 0x40, 0x0, 0x0, 0x0, 0x0, 0x0, 0xFFFFFFFF⟩,
   ⟨0x10012C, 16, 0x10000, 68, 0x40, 0x0, 0x0, 0x0, 0x0, 0x0, 0xFFFFFFFF⟩,
   ⟨0x100130, 16, 0x10000, 68, 0x40, 0x0, 0x0, 0x0, 0x0, 0x0, 0xFFFFFFFF⟩,
   ⟨0x100134, 16, 0x10000, 68, 0x40, 0x0, 0x0, 0x0, 0x0, 0x0, 0xFFFFFFFF⟩,
   ⟨0x100138, 16, 0x10000, 68, 0x40, 0x0, 0x0, 0x0, 0x0, 0x0, 0x0⟩,
   ⟨0x10013C, 16, 0x10000, 68, 0x40, 0x0, 0x0, 0x0, 0x0, 0x0, 0x0⟩,
   ⟨0x102000, 16, 0x10000, 1, 0x0, 0x37F03FF, 0x0, 0x0, 0x0, 0x0, 0x0⟩] ++
  [⟨0x102004, 16, 0x10000, 1, 0x0, 0x3FF, 0x0, 0x0, 0x0, 0x0, 0x0⟩,
   ⟨0x102008, 16, 0x10000, 1, 0x0, 0x0, 0x7, 0x0, 0x0, 0x0, 0x0⟩,
   ⟨0x10200C, 16, 0x10000, 1, 0x0, 0x0, 0x0, 0x0, 0x0, 0x0, 0xFFFFFFFF⟩,
   ⟨0x102010, 16, 0x10000, 1, 0x0, 0x0, 0x0, 0x0, 0x0, 0x0, 0xFFFFFFFF⟩,
   ⟨0x102014, 16, 0x10000, 1, 0x0, 0x0, 0x0, 0x0, 0x0, 0x0, 0xFFFFFFFF⟩,
   ⟨0x102018, 16, 0x10000, 1, 0x0, 0x0, 0x0, 0x0, 0x0, 0x0, 0xFFFFFFFF⟩,
   ⟨0x102100, 16, 0x10000, 68, 0x20, 0x0, 0x0, 0x1, 0x0, 0x0, 0x0⟩,
   ⟨0x102104, 16, 0x10000, 68, 0x20, 0x0, 0x0, 0x0, 0x0, 0x0, 0xFFFFFFFF⟩,
   ⟨0x102108, 16, 0x10000, 68, 0x20, 0x0, 0x0, 0x0, 0x0, 0x0, 0x0⟩,
   ⟨0x10210C, 16, 0x10000, 68, 0x20, 0x0, 0x0, 0x0, 0x0, 0x0, 0x0⟩,
   ⟨0x102110, 16, 0x10000, 68, 0x20, 0x0, 0x0, 0x0, 0x0, 0x0, 0x0⟩,
   ⟨0x102114, 16, 0x10000, 68, 0x20, 0x0, 0x0, 0x0, 0x0, 0x0, 0x0⟩] ++
  [⟨0x106800, 16, 0x10000, 1, 0x0, 0x0, 0x3F, 0x0, 0x0, 0x0, 0x0⟩,
   ⟨0x106804, 16, 0x10000, 1, 0x0, 0x3F, 0x0, 0x0, 0x0, 0x24, 0x0⟩,
   ⟨0x106808, 16, 0x10000, 1, 0x0, 0x0, 0x0, 0x0, 0x0, 0x0, 0xFFFFFFFF⟩,
   ⟨0x10680C, 16, 0x10000, 1, 0x0, 0x0, 0x0, 0x0, 0x0, 0x0, 0xFFFFFFFF⟩,
   ⟨0x106810, 16, 0x10000, 1, 0x0, 0x0, 0x0, 0x0, 0x0, 0x0, 0xFFFFFFFF⟩,
   ⟨0x106814, 16, 0x10000, 1, 0x0, 0x0, 0x0, 0x0, 0x0, 0x0, 0xFFFFFFFF⟩,
   ⟨0x106818, 16, 0x10000, 1, 0x0, 0x0, 0x0, 0x0, 0x0, 0x0, 0xFFFFFFFF⟩,
   ⟨0x10681C, 16, 0x10000, 1, 0x0, 0x0, 0x0, 0x0, 0x0, 0x0, 0xFFFFFFFF⟩,
   ⟨0x106820, 16, 0x10000, 1, 0x0, 0x0, 0x0, 0x0, 0x0, 0x0, 0xFFFFFFFF⟩,
   ⟨0x106824, 16, 0x10000, 1, 0x0, 0x0, 0x0, 0x0, 0x0, 0x0, 0xFFFFFFFF⟩,
   ⟨0x104000, 16, 0x10000, 1, 0x0, 0x0, 0x0, 0x80000000, 0x0, 0x0, 0x7FF0000⟩,
   ⟨0x104004, 16, 0x10000, 1, 0x0, 0x0, 0x7, 0x0, 0x0, 0x0, 0x0⟩] ++
  [⟨0x104008, 16, 0x10000, 1, 0x0, 0x7, 0x0, 0x0, 0x0, 0x6, 0x0⟩,
   ⟨0x10400C, 16, 0x10000, 1, 0x0, 0x0, 0x0, 0x0, 0x0, 0x0, 0xFFFFFFFF⟩,
   ⟨0x104010, 16, 0x10000, 1, 0x0, 0x0, 0x0, 0x0, 0x0, 0x0, 0xFFFFFFFF⟩,
   ⟨0x104014, 16, 0x10000, 1, 0x0, 0x0, 0x0, 0x0, 0x0, 0x0, 0xFFFFFFFF⟩,
   ⟨0x104018, 16, 0x10000, 1, 0x0, 0x0, 0x0, 0x0, 0x0, 0x0, 0xFFFFFFFF⟩,
   ⟨0x10401C, 16, 0x10000, 1, 0x0, 0x0, 0x0, 0x0, 0x0, 0x0, 0xFFFFFFFF⟩]

/-- The rows of the page that an address lies in (R485). Pages 0x0D to 0x0F and 0x20 up are holes. -/
def rowsOfPage (page : Nat) : List RegRow :=
  match page with
  | 0 => rowsSdm
  | 1 => rowsId
  | 2 => rowsPwr
  | 3 => rowsThm
  | 4 => rowsMon
  | 5 => rowsAct
  | 6 => rowsLck
  | 7 => rowsPrt
  | 8 => rowsPst
  | 9 => rowsFlt
  | 10 => rowsSec
  | 11 => rowsDsp
  | 12 => rowsStk
  | p => if 16 ≤ p ∧ p < 32 then rowsCore else []

/-- A row holds address `a` when `a` is one of its grid points. -/
def RegRow.holds (r : RegRow) (a : Nat) : Bool :=
  if r.base ≤ a then
    let d := a - r.base
    let i := if r.s1 = 0 then 0 else min (d / r.s1) (r.n1 - 1)
    let d' := d - i * r.s1
    let j := if r.s2 = 0 then 0 else min (d' / r.s2) (r.n2 - 1)
    d' - j * r.s2 == 0
  else false

/-- The row of the register at address `a`, if a register occupies it (R15). -/
def regRow (a : Nat) : Option RegRow := (rowsOfPage (a / 0x10000)).find? (fun r => r.holds a)

end Sys2Proof.Machine
end

