-- ==== Sys2Proof/Machine/CoreTypes.lean ====
section
/-! DEFINITION. The data types of the hidden state of the matrix cores, of calibration and programming, and of the power
sequencer and thermal control. Each field names the rule that gives it. -/

namespace Sys2Proof.Machine

/-! ### Tiles and accumulators -/

/-- An input queued on a tile (R41, R164, R275): the instance and token it belongs to, its context and generation, the FP16
input scale, whether it takes two slices, its reduction elements, and the columns of its block. -/
structure TileIn where
  inst : Nat
  token : Nat
  ctx : Nat
  gen : Nat
  sx : Nat
  two : Bool
  xs : List Int
  cols : Nat
  deriving DecidableEq, Repr

/-- An input issued to a tile, wholly or partly (R58 to R60, R170): its entry, gain step, slices issued or skipped, slices
not yet complete, and what the range tracker needs of it. -/
structure InRun where
  inp : TileIn
  entry : Option Nat
  step : Nat
  next : Nat
  left : Nat
  /-- Largest magnitude in u over its slices. -/
  maxU : Nat
  ovr : Bool
  sat : Bool
  /-- Some magnitude was 16 codes or more at its step. -/
  loud : Bool
  deriving DecidableEq, Repr

/-- An issued slice (R42, R50, R54): its input, which slice it is, gain step, S of R62, capacitor, and its columns: not yet
converted, awaiting re-conversion, and being re-converted. -/
structure SliceRun where
  run : Nat
  idx : Nat
  step : Nat
  sum : Int
  cap : Nat
  todo : List Nat
  wait : List Nat
  serv : List Nat
  pips : Bool
  deriving DecidableEq, Repr

/-- A factory tile record (R116), as the engine uses it. -/
structure FacTile where
  ok : Bool
  /-- V0 in µV, Vstep in nV. -/
  v0 : Nat
  vstep : Nat
  refs : List Nat
  pipGains : List Nat
  deriving DecidableEq, Repr

/-- A gap task that collects gaps (R134): 0 offset update, 1 reference sweep, 2 gain sweep; gaps left. -/
structure GapRun where
  kind : Nat
  left : Nat
  deriving DecidableEq, Repr

/-- A tile being programmed (R79 to R87). Phase 0 waits for write power, 1 writes, 2 settles, 3 waits for reverify power,
4 reverifies. -/
structure ProgRun where
  phase : Nat
  batch : Nat
  failed : Nat
  since : Nat
  /-- The next batch has started (R88). -/
  running : Bool
  deriving DecidableEq, Repr

/-- A tile (R40 to R67, R112, R116, R134): input queue, inputs and slices in flight, capacitor rotation, pip sums, row latch,
what is mapped onto it, its trim sets, tracking and programming. -/
structure TileRt where
  q : List TileIn
  runs : Tab InRun
  slices : List SliceRun
  cap : Nat
  /-- Running sums of R63 in unit u², scaled by 64. -/
  pipNum : Int
  pipDen : Int
  rejects : Nat
  latch : List Int
  rows : Nat
  cols : Nat
  nulls : List Nat
  /-- Group size code of the weights (R48, R107). -/
  grp : Nat
  /-- Logical tile that its cells hold, and whether the contents are stale (R92). -/
  holds : Option Nat
  stale : Bool
  act : Tab Nat
  shd : Tab Nat
  fac : FacTile
  /-- Time of the last commit, and a commit deferred by cal_epoch_min: the pip ratio that asks for it (R131). -/
  commitAt : Nat
  wantRatio : Option Nat
  /-- A commit of the shadow set waits for cal_epoch_min (R132). -/
  wantCommit : Bool
  /-- Mean core temperature at the close of the pip window that set the read-voltage trim, 1/64 °C (R133). -/
  tempRef : Int
  gaps : List GapRun
  /-- Task to which the next gap goes, in turn (R134). -/
  gapTurn : Nat
  /-- Times of the last completion of each gap task, and of the start of its last run, µs (R134, R136). -/
  gapDone : Tab Nat
  gapStart : Tab Nat
  /-- MVM cycle of the last natural gap, and a gap that the dispatcher forces (R135). -/
  gapAt : Nat
  forced : Bool
  prog : Option ProgRun
  /-- Programming cycles, sp in 0.01 µS and the retired bit (R90, R101, R457). -/
  cycles : Nat
  sp : Nat
  retired : Bool
  /-- Failed passes as a relief tile, and withheld from refresh (R101). -/
  fails : Nat
  withheld : Bool
  /-- The graft changed this tile's gain corrections (R119). -/
  graftDue : Bool
  deriving DecidableEq, Repr

/-- An accumulator entry that is not free (R169). -/
structure AccEntry where
  sx : Nat
  ncol : Nat
  two : Bool
  done : Nat
  /-- 1 filling, 2 complete, 3 restored. -/
  st : Nat
  sat : Bool
  moved : Bool
  ctx : Nat
  gen : Nat
  tile : Nat
  core : Nat
  /-- Token that it serves. -/
  token : Nat
  /-- The entries that it combines carried different scale tags (R175). -/
  nan : Bool
  vals : List Int
  deriving DecidableEq, Repr

/-- A ranged input vector of a token (R164 to R166): scale, width, integers; `zero` for amax 0, `nan` for a vector
with a NaN or an infinity. -/
structure VecIn where
  sx : Nat
  two : Bool
  xs : List Int
  zero : Bool
  nan : Bool
  deriving DecidableEq, Repr

/-- The matrix cores. Tiles by 128 × core + tile, entries by 1,024 × core + entry, scratchpad bytes by 2^24 × core +
offset. -/
structure CoreUnit where
  tiles : Tab TileRt
  acc : Tab AccEntry
  scratch : Tab Byte
  /-- Ranged vectors by 2^24 × token + scratchpad offset. -/
  vecs : Tab VecIn
  /-- Entries that arrived over the mesh and wait for a free entry: core and entry (R176). -/
  meshWait : List (Nat × AccEntry)
  nextRun : Nat
  deriving DecidableEq, Repr

/-! ### Calibration and programming -/

/-- What a programming job is for (R91, R92, R99, R103, R111); `resume` completes one that a power loss left open. -/
inductive JobKind where
  /-- Online refresh of tile `x` through relief tile `y`. -/
  | refresh (x y : Nat)
  /-- PROGRAM_MODEL, or programming at boot. -/
  | model (pkg : Nat)
  /-- Repair of lost logical tiles: (logical, target). -/
  | repair (targets : List (Nat × Nat))
  /-- A relief tile is to stand in for a retired tile `x` (R130). -/
  | standIn (x y : Nat)
  | resume
  deriving DecidableEq, Repr

/-- An open job of the programming journal (R91). `tiles` are the physical tiles it names; `step` counts R99's steps. -/
structure Job where
  kind : JobKind
  tiles : List Nat
  step : Nat
  deriving DecidableEq, Repr

/-- Calibration and programming beyond the tiles (R90 to R103, R123). -/
structure CalUnit where
  jobs : Tab Job
  nextJob : Nat
  /-- Substitutions in force: physical tile replaced, by physical relief tile (R91). -/
  subs : Tab Nat
  /-- Mapping switches requested: (logical tile, new physical tile) (R100). -/
  switches : List (Nat × Nat)
  /-- Logical tiles that the directory marks as repaired (R103). -/
  repaired : List Nat
  /-- PROGRAM_MODEL loads this package's image into the archive before its job opens (R111). -/
  modelWait : Option Nat
  /-- The calibration cache that seeds this power-up, empty where none does (R124). -/
  cache : Bytes
  /-- Powered time of the last cache write, µs (R136). -/
  cacheAt : Nat
  /-- Device-level factory and graft records in force: tile gain corrections and temperature offsets of the graft (R118, R119). -/
  tileGains : Bytes
  tempUsr : Bytes
  /-- Power-up calibration runs; it has completed. -/
  running : Bool
  complete : Bool
  deriving DecidableEq, Repr

/-! ### Power and thermal -/

/-- A planned step of R386. -/
inductive PlanStep where
  /-- Ramps or gatings of domains in one cycle. -/
  | wake (d : Nat)
  | gate (d : Nat)
  | dispEn
  /-- The fall of the thermal, or of the power-caused, level to level 0. -/
  | levelFall
  | powerFall
  deriving DecidableEq, Repr

/-- The power sequencer, slew guard and load-step handshake (R378 to R386, R391). -/
structure PwrUnit where
  /-- Wake requests, head first. -/
  queue : List Nat
  /-- Domains that ramp, with their start times. -/
  ramping : Tab Nat
  /-- Domains to gate when their ramp ends. -/
  gateAfter : List Nat
  /-- Domains gated, each with the time (R386: what is gated in one cycle). -/
  gated : Tab Nat
  /-- MVM cycle index, slices issued in the previous cycle (R385, R390). -/
  cycle : Nat
  issued : Nat
  /-- Planned steps that wait for the handshake, oldest first. -/
  steps : List PlanStep
  /-- LOAD_STEP_REQ is asserted, since this time; LOAD_STEP_ACK. -/
  reqAt : Option Nat
  ack : Bool
  /-- The step was made at this time and REQ is to be deasserted 100 µs later. -/
  madeAt : Option Nat
  /-- slew_step is cut to a quarter since this time. -/
  cutAt : Option Nat
  /-- Start of the present run of means below 95% of PWR_LIMIT. -/
  lowAt : Option Nat
  /-- Every lane has been stopped since this time (R383). -/
  idleAt : Option Nat
  deriving DecidableEq, Repr

/-- Temperature sensors and throttle (R387 to R394). -/
structure ThmUnit where
  /-- Conversions in a row at an end of the readout range, by sensor. -/
  ends : Tab Nat
  /-- Thermal level in force. -/
  level : Nat
  /-- Since when T_max has been at or above THM_THR, below it, and 5 °C below it. -/
  hotAt : Option Nat
  coolAt : Option Nat
  coldAt : Option Nat
  /-- T_max corrected by the graft has reached the warning (R389). -/
  warned : Bool
  /-- Start of an orderly stop that runs (R392), and whether its 5 ms are over. -/
  stopAt : Option Nat
  drained : Bool
  /-- The readings of 100 ms ago, and when they were taken (R133). -/
  prev : List Int
  prevAt : Nat
  /-- Cores in feed-forward: sensors changed by more than 0.5 °C per 100 ms. -/
  slewing : List Nat
  /-- THERM_TRIP_N is asserted (R394). -/
  tripN : Bool
  /-- Mean of the stack sensors at each converter's last self-calibration (R371). -/
  monTemp : Tab Int
  deriving DecidableEq, Repr

end Sys2Proof.Machine
end

