-- ==== Sys2Proof/Machine/SysTypes.lean ====
section
/-! DEFINITION. The data types of the hidden state of the monitor converters, of the SDIO interface and mailbox, and of
boot, configuration flash, security engine and debug port. Each field names the rule that gives it. -/

namespace Sys2Proof.Machine

/-! ### Monitor converters -/

/-- A monitor converter beyond its registers (R361 to R371). MON_CV_STATE holds its state, channel, entry and the
conversions of the entry after the running one. -/
structure Conv where
  /-- Channel of a conversion aborted for an urgent request, cross-check or self-calibration (R368). -/
  held : Option Nat
  /-- The end of an entry's delay, µs; the delay has ended while other work ran (R368). -/
  delayAt : Option Nat
  delayOver : Bool
  /-- The current entry as it was at its start (R362). -/
  entry : Word
  /-- seq_len in force since the table last began (R362). -/
  len : Nat
  /-- Accumulators by channel: sum, count, over-range count (R366). -/
  acc : Tab (Nat × Nat × Nat)
  /-- Trackers by 32 × set + channel: least and greatest (R367). -/
  trk : Tab (Int × Int)
  deriving DecidableEq, Repr

/-- The monitor (R357 to R377). -/
structure MonUnit where
  conv0 : Conv
  conv1 : Conv
  /-- A cross-check waits until both converters are free; time of the last one (R369). -/
  xWait : Bool
  xAt : Nat
  /-- Results of the running cross-check: none while it runs, `some none` for an over-range one (R369). -/
  x0 : Option (Option Int)
  x1 : Option (Option Int)
  deriving DecidableEq, Repr

/-! ### SDIO and mailbox -/

/-- A long mailbox command that runs (R480): opcode, tag, parameters, its F2 data, the code of its final reply once known, and
how far a STOP_LINE has come on the way to its power state. -/
structure LongCmd where
  op : Nat
  tag : Nat
  params : Bytes
  data : Bytes
  err : Nat
  stage : Nat
  deriving DecidableEq, Repr

/-- Where the bytes of an F2 stream come from (R411, R483). -/
inductive F2Src where
  | bytes (bs : Bytes)
  /-- The crash dump, from this offset. -/
  | dump (off : Nat)
  deriving DecidableEq, Repr

/-- Data that a command will send on F2: tag, length, source (R483). -/
structure F2Out where
  tag : Nat
  len : Nat
  src : F2Src
  deriving DecidableEq, Repr

/-- The SDIO interface (R473 to R489, R514). -/
structure SdmUnit where
  /-- Read latch: word address and value (R476). -/
  latch : Option (Nat × Word)
  /-- Uncommitted bytes: word address, and byte by position (R476). -/
  wbuf : Option (Nat × Tab Byte)
  /-- Command and reply buffers, bytes that differ from 0 (R479). -/
  cmdBuf : Tab Byte
  repBuf : Tab Byte
  long : Option LongCmd
  /-- A final reply that waits for reply_done (R480). -/
  final : Option Bytes
  /-- The source of the open stream to the host, or the bytes received on the open stream from it (R483). -/
  f2Src : F2Src
  f2In : Bytes
  /-- Data to be sent that is not ready yet. -/
  f2Next : Option F2Out
  /-- An accepted REBOOT: time of its reply (R481). -/
  rebootAt : Option Nat
  /-- F0 bytes (CCCR and FBR) that differ from their power-up values (R474, R514). -/
  f0 : Tab Byte
  /-- 1.8 V signalling (R473). -/
  v18 : Bool
  deriving DecidableEq, Repr

/-! ### Boot, flash, security and debug -/

/-- Why a boot runs (R426). -/
inductive BootKind where
  | powerOn
  | reboot
  | sleepExit
  | drr
  deriving DecidableEq, Repr

/-- The configuration flash (R427): bytes that differ from the erased 0xFF, and the capacity of each chip select in bytes,
0 for one that returns no valid SFDP signature. -/
structure Flash where
  mem : Tab Byte
  cap0 : Nat
  cap1 : Nat
  deriving DecidableEq, Repr

/-- Boot, security engine and debug port (R426 to R454, R500 to R502). -/
structure SysUnit where
  flash : Flash
  /-- The boot that runs, if it has not completed (R515). -/
  boot : Option BootKind
  /-- The control cores have started (R515). -/
  ccUp : Bool
  /-- Reference mode sensed while PORST_N was low (R500). -/
  vref : VrefMode
  /-- Manifests of the running image, as read at boot (R430, R431). -/
  fwMan : Bytes
  intMan : Bytes
  /-- Integrator-key fuses (R437): burned hash, empty for blank fuses, and the enrolled bit. -/
  keyFuse : Bytes
  enrolled : Bool
  /-- The identity check passed (R447). -/
  idOk : Bool
  /-- A floor raise is due after the first line-ready (R444). -/
  raiseDue : Bool
  /-- Unlocked debug scope and the challenge not yet consumed (R450, R451). -/
  scope : Nat
  challenge : Option Bytes
  /-- Control cores halted through the debug port (R450). -/
  halted : List Nat
  /-- JTAG instruction register (R449). -/
  tapIr : Nat
  /-- Krein waits for group 2 rails before leaving SLEEP or STOPPED, since this time (R502). -/
  railWait : Option Nat
  /-- The monitor channels of the group 2 rails not yet read in range, and opcode and tag of the command that asked (R502). -/
  railLeft : List Nat
  railCmd : Option (Nat × Nat)
  /-- HBM training is complete since power-up or reset (R438, R515). -/
  trained : Bool
  /-- A return from STANDBY runs (R383). -/
  leaving : Bool
  /-- VDD_AON is in range. -/
  aon : Bool
  deriving DecidableEq, Repr

end Sys2Proof.Machine
end

