-- ==== Sys2Proof/Machine/Init.lean ====
section
/-! DEFINITION. The hidden state of each unit after a reset of the always-on domain (R408, R426, R500). Registers hold their
reset values, so none is listed. -/

namespace Sys2Proof.Machine

/-- An encoder after reset: position 0 and no count made (R299, R300). -/
def Enc.init : Enc :=
  { pos := 0, a := false, b := false, lastFwd := false, cur := 0, hist := [], lastVel := 0, fwdAt := 0, stopped := false,
    syncDue := false, syncAt := 0, hiCap := none }

/-- The line clock: no slot in use, no frame waiting, the hold path at code 0 and gain ×1 (R299, R304, R324). -/
def LckUnit.init : LckUnit :=
  { enc0 := Enc.init, enc1 := Enc.init, slots := [], fireQ0 := [], fireQ1 := [], fireT0 := [], fireT1 := [], mainsAt := 0,
    mainsLost := false, dac := [], hold := List.replicate 8 (0, 0), dacFac := [], dacUsr := [] }

/-- The ports, all down with no partner known, and the fabric (R333, R350, R516). -/
def PrtUnit.init : PrtUnit :=
  { ports := [], eqFac := [], eqUsr := [],
    fab := { members := [], seen := [], hbSeq := 0, lastHbAt := 0, acting := none } }

/-- The fault aggregator and the ladder: nothing recorded, FAULT_N not driven (R410, R416). -/
def FltUnit.init : FltUnit :=
  { openRecs := [], ovf := none, closed := [], pending := [], pendSince := 0, logSeq := 0, tail := [],
    dump := { st := 0, powerOn := 0, written := 0, next := 0, tail := 0, drr := 0, time := 0 },
    slots := [], cores := [], kicks := [0, 0, 0, 0], drrTimes := [], drrAt := none, faultN := false, hiCap := none }

/-- The parameter store with blank pages and nothing queued (R456). -/
def PstUnit.init : PstUnit := { pages := [], queue := [], run := none, lastEnd := none, hourAt := 0, countDue := [] }

/-- The Stacks before training: no folio, no request (R230). DESIGN CHOICE, assumption 9. -/
def StkUnit.init : StkUnit :=
  { folios := [], epochs := [], lastSerial := [], badSerials := [], giveUp := [], retired := [], retList := [], remap := [],
    ueTimes := [], reqs := [], nextReq := 0, fetchWait := [], appends := [], nextAppend := 0, xfers := [], mem := [],
    built := false, selfRefresh := false, slots := [], arcPkg := none, arcComplete := false }

/-- The dispatcher with no package loaded (R274, R286). -/
def DspUnit.init : DspUnit :=
  { insts := [], nextInst := 0, tokens := [], nextToken := 0, seq := 0, gathers := [], nextGather := 0, strips := [],
    ctxs := [], lastToken := [], defaulted := [], pkgs := [], running := none, place := [], dropped := [] }

/-- The matrix cores with nothing in flight. -/
def CoreUnit.init : CoreUnit := { tiles := [], acc := [], scratch := [], vecs := [], meshWait := [], nextRun := 0 }

/-- Calibration and programming with no job open (R91, R123). -/
def CalUnit.init : CalUnit :=
  { jobs := [], nextJob := 0, subs := [], switches := [], repaired := [], modelWait := none, cache := [], cacheAt := 0,
    tileGains := [], tempUsr := [], running := false, complete := false }

/-- The power sequencer with every switched domain off (R378, R386). -/
def PwrUnit.init : PwrUnit :=
  { queue := [], ramping := [], gateAfter := [], gated := [], cycle := 0, issued := 0, steps := [], reqAt := none,
    ack := false, madeAt := none, cutAt := none, lowAt := none, idleAt := none }

/-- Thermal control before the first conversion (R387). -/
def ThmUnit.init : ThmUnit :=
  { ends := [], level := 0, hotAt := none, coolAt := none, coldAt := none, warned := false, stopAt := none, drained := false,
    prev := [], prevAt := 0, slewing := [], tripN := false, monTemp := [] }

/-- A monitor converter after power-on, or after its domain was off: nothing runs, accumulators and trackers empty (R366). -/
def Conv.init : Conv :=
  { held := none, delayAt := none, delayOver := false, entry := 0, len := 0, acc := [], trk := [] }

/-- The monitor (R357). -/
def MonUnit.init : MonUnit :=
  { conv0 := Conv.init, conv1 := Conv.init, xWait := false, xAt := 0, x0 := none, x1 := none }

/-- The SDIO interface after power-up (R473 to R480). -/
def SdmUnit.init : SdmUnit :=
  { latch := none, wbuf := none, cmdBuf := [], repBuf := [], long := none, final := none, f2Src := .bytes [], f2In := [],
    f2Next := none, rebootAt := none, f0 := [], v18 := false }

/-- Boot, flash and security before the first power-on: an erased 64 MiB flash on the first chip select, blank fuses. -/
def SysUnit.init : SysUnit :=
  { flash := { mem := [], cap0 := 2 ^ 26, cap1 := 0 }, boot := none, ccUp := false, vref := .internal, fwMan := [],
    intMan := [], keyFuse := [], enrolled := false, idOk := false, raiseDue := false, scope := 0,
    challenge := none, halted := [], tapIr := 1, railWait := none, railLeft := [], railCmd := none, trained := false,
    leaving := false, aon := false }

end Sys2Proof.Machine
end

