-- ==== Sys2Proof/Machine/State.lean ====
section
/-! DEFINITION. The state of the block, and the state right after reset. -/

namespace Sys2Proof.Machine

/-- Why the block stops. No command of the spec stops the block. DESIGN CHOICE, assumption 95. -/
inductive Fault where
  /-- Raised by no command: the block answers every command with a next state. Safe. -/
  | none
  deriving DecidableEq, Repr

/-- Why a command is refused. -/
inductive Refusal where
  /-- The command has no meaning in this model yet; raised by `exec` alone. Safe. -/
  | notModelled (mnemonic : String)
  deriving DecidableEq, Repr

/-- The state of the block. -/
structure State where
  /-- Ordering code (R1). -/
  part : Part
  /-- Microseconds since power-on (R424, FLT_TIME). -/
  timeUs : Nat
  /-- Number of the next free value drawn (the model's own). -/
  fresh : Nat
  /-- Management registers that differ from their reset value, by address (R12, R16). -/
  regs : Tab Word
  /-- Configuration records in force: parameters by 4096 × type + instance (R434). -/
  cfg : Tab (List Nat)
  /-- What left the block, newest first (the model's own). -/
  wire : List Wire
  lck : LckUnit
  prt : PrtUnit
  flt : FltUnit
  pst : PstUnit
  stk : StkUnit
  dsp : DspUnit
  mc : CoreUnit
  cal : CalUnit
  pwr : PwrUnit
  thm : ThmUnit
  mon : MonUnit
  sdm : SdmUnit
  sys : SysUnit
  /-- Commands that wait, first in first out. -/
  pending : List Instr
  deriving DecidableEq, Repr

/-- The state right after reset: an AMK1640-H64-I whose VDD_AON is about to enter its range, every register at its reset
value, nothing stored, nothing pending (R16, R426). DESIGN CHOICE, assumptions 7, 8 and 10 to 14. -/
def State.reset : State :=
  { part := ⟨false, false⟩, timeUs := 0, fresh := 0, regs := [], cfg := [], wire := [], lck := LckUnit.init,
    prt := PrtUnit.init, flt := FltUnit.init, pst := PstUnit.init, stk := StkUnit.init, dsp := DspUnit.init,
    mc := CoreUnit.init, cal := CalUnit.init, pwr := PwrUnit.init, thm := ThmUnit.init, mon := MonUnit.init,
    sdm := SdmUnit.init, sys := SysUnit.init, pending := [] }

end Sys2Proof.Machine
end

