-- ==== Sys2Proof/Machine/Flags.lean ====
section
/-! DEFINITION. Registers and their fields, status bits and event counters (R12 to R20). -/

namespace Sys2Proof.Machine

/-- The reset value of the register at `a` (R16). PWR_LIMIT is the TDP of the ordering code (R1, R396); THM_THR is the
grade's default (R3). -/
def resetValue (p : Part) (a : Nat) : Word :=
  if a = R.pwrLimit then (if p.h32 then 71 else 75)
  else if a = R.thmThr then (if p.gradeC then 95 else 100)
  else match regRow a with
    | some r => BitVec.ofNat 32 r.reset
    | none => 0

/-- The value of the register at `a`. -/
def State.reg (s : State) (a : Nat) : Word := s.regs.getD a (resetValue s.part a)

/-- The state with the register at `a` holding `w`. -/
def State.setReg (s : State) (a : Nat) (w : Word) : State :=
  { s with regs := s.regs.set a w (resetValue s.part a) }

/-- The value of field `f` of the register at `a`. -/
def State.getF (s : State) (a : Nat) (f : Field) : Nat := f.get (s.reg a)

/-- The state with field `f` of the register at `a` holding `v`; the register's other bits as before. -/
def State.setF (s : State) (a : Nat) (f : Field) (v : Nat) : State := s.setReg a (f.set (s.reg a) v)

/-- Field `f` of the register at `a` is 1. -/
def State.isSet (s : State) (a : Nat) (f : Field) : Bool := s.getF a f == 1

/-- The register's value as a number. -/
def State.regNat (s : State) (a : Nat) : Nat := (s.reg a).toNat

/-- The register at `a` holding the number `n` modulo 2^32. -/
def State.setNat (s : State) (a : Nat) (n : Nat) : State := s.setReg a (BitVec.ofNat 32 n)

/-- A count register advances by `n` and stops at 0xFFFF_FFFF (R17). -/
def State.count (s : State) (a : Nat) (n : Nat := 1) : State := s.setReg a (satInc (s.reg a) n)

/-- A count field advances by one and stops at its largest value. -/
def State.countF (s : State) (a : Nat) (f : Field) : State := s.setF a f (min (s.getF a f + 1) (2 ^ f.width - 1))

/-- The hardware sets status bit `f` of register `a`, and its event counter `evt` advances (R17). -/
def State.raise (s : State) (a : Nat) (f : Field) (evt : Nat) : State := (s.setF a f 1).count evt

/-- A write of 1 clears the bits of `mask` in the W1C register `a` (R13). -/
def State.clearBits (s : State) (a : Nat) (mask : Word) : State := s.setReg a (s.reg a &&& ~~~mask)

/-- PWR_DOM_ON: domain `d` is on. -/
def State.domOn (s : State) (d : Nat) : Bool := bit (s.regNat (R.pwrDomOn (d / 32))) (d % 32)

end Sys2Proof.Machine
end

