-- ==== Sys2Proof/Machine/Ops.lean ====
section
/-! DEFINITION. Operations that every unit shares: configuration parameters, free draws, outputs, and reports to the fault
aggregator (R415, R416). -/

namespace Sys2Proof.Machine

/-- What a command answers. -/
abbrev Out := Host.Outcome State Fault Refusal

/-- The value nearest to `n / d`; a tie goes where the free value `Config.tieUp` says (R309, R322 say `round` only). -/
def roundQ (n : Int) (d : Nat) : Int :=
  let q := n / (d : Int)
  let r := n % (d : Int)
  if 2 * r < d then q else if 2 * r > d then q + 1 else if Config.tieUp n then q + 1 else q

/-- Draw one of `cands` where the spec states no order. -/
def State.choose (s : State) (cands : List Nat) : Nat × State :=
  (cands.getD (Config.choice s.fresh % cands.length) (cands.headD 0), { s with fresh := s.fresh + 1 })

/-- Something leaves the block. -/
def State.emit (s : State) (w : Wire) : State := { s with wire := w :: s.wire }

/-! ### Configuration parameters (R434) -/

/-- The key of a configuration record. -/
def cfgKey (type inst : Nat) : Nat := type * 4096 + inst

/-- Parameter `i` of record (`type`, `inst`), or its default where the record or the parameter is missing. -/
def State.param (s : State) (type inst i dflt : Nat) : Nat :=
  match s.cfg.get? (cfgKey type inst) with
  | some ps => ps.getD i dflt
  | none => dflt

/-- The image carries record (`type`, `inst`). -/
def State.hasRec (s : State) (type inst : Nat) : Bool := (s.cfg.get? (cfgKey type inst)).isSome

/-! ### The fault aggregator (R415, R416) -/

/-- The number of open records and its high-water mark (FLT_OPEN, R424). -/
def State.syncOpen (s : State) : State :=
  let n := s.flt.openRecs.length
  let s := s.setF R.fltOpen F.fltOpenOpen n
  s.setF R.fltOpen F.fltOpenHighWater (max n (s.getF R.fltOpen F.fltOpenHighWater))

/-- A record that matches counts one more report (R416). -/
def bumpRec (now : Nat) (r : Rec) : Rec := { r with count := min (r.count + 1) 0xFFFFFFFF, last := now }

/-- Count a report in the first record of its source and code; none if no record matches. -/
def bumpOpen (src code now : Nat) : List Rec → Option (List Rec)
  | [] => none
  | r :: rs =>
    if r.src = src ∧ r.code = code then some (bumpRec now r :: rs)
    else (bumpOpen src code now rs).map (r :: ·)

/-- A report reaches the fault aggregator (R416). DEDUCED, assumption 70. -/
def State.report (s : State) (src code reporter : Nat) (detail : Nat := 0) : State :=
  match bumpOpen src code s.timeUs s.flt.openRecs with
  | some rs => { s with flt := { s.flt with openRecs := rs } }
  | none =>
    if s.flt.openRecs.length < 256 then
      let r : Rec := ⟨src, code, reporter, detail % 2 ^ 32, 1, s.timeUs, s.timeUs, false⟩
      let s := { s with flt := { s.flt with openRecs := s.flt.openRecs ++ [r] } }
      s.syncOpen.raise R.fltStatus F.fltStatusNewSrc R.fltNewsrcEvt
    else
      let o : Rec := match s.flt.ovf with
        | some r => bumpRec s.timeUs r
        | none => ⟨Src.device, E.fltAggOverflow, reporter, detail % 2 ^ 32, 1, s.timeUs, s.timeUs, false⟩
      let s := { s with flt := { s.flt with ovf := some o } }
      s.raise R.fltStatus F.fltStatusOverflow R.fltOvfEvt

end Sys2Proof.Machine
end

