-- ==== Sys2Proof/Machine/Params.lean ====
section
/-! DEFINITION. The parameters of the configuration image (R434): per record type, each parameter's index, its size, range
and default, in the order of the table of the rule named. Units of parameters whose range is not whole in the unit named:
hb_period 0.1 ms, keep_timeout 10 µs, offset_period 0.1 s, gather_wait 0.1 µs, refresh_budget 0.25 W. -/

namespace Sys2Proof.Machine

/-- A parameter's size in bytes, range and default (R434). -/
structure ParamSpec where
  bytes : Nat
  lo : Nat
  hi : Nat
  dflt : Option Nat
  deriving DecidableEq, Repr

namespace P

/-- Record 0x0400 parameter 0 (R303, R317). -/
def devEncFilt0 : Nat := 0
/-- Record 0x0400 parameter 1 (R303, R317). -/
def devEncDir0 : Nat := 1
/-- Record 0x0400 parameter 2 (R303, R317). -/
def devEncFilt1 : Nat := 2
/-- Record 0x0400 parameter 3 (R303, R317). -/
def devEncDir1 : Nat := 3
/-- Record 0x0400 parameter 4 (R303, R317). -/
def devStopMs : Nat := 4
/-- Record 0x0400 parameter 5 (R303, R317). -/
def devLateTol : Nat := 5
/-- Record 0x0400 parameter 6 (R303, R317). -/
def devSlotReserve : Nat := 6
/-- Record 0x0400 parameter 7 (R303, R317). -/
def devMaxSpan : Nat := 7
/-- Record 0x0400 parameter 8 (R303, R317). -/
def devMaxRate : Nat := 8
/-- Record 0x0400 parameter 9 (R303, R317). -/
def devGpioMaxWidth : Nat := 9
/-- Record 0x0400 parameter 10 (R303, R317). -/
def devGpioPol : Nat := 10
/-- Record 0x0401 parameter 0 (R303, R353). -/
def laneShelf : Nat := 0
/-- Record 0x0401 parameter 1 (R303, R353). -/
def laneEnc : Nat := 1
/-- Record 0x0401 parameter 2 (R303, R353). -/
def laneCutoff : Nat := 2
/-- Record 0x0401 parameter 3 (R303, R353). -/
def laneValveDist : Nat := 3
/-- Record 0x0401 parameter 4 (R303, R353). -/
def laneLeadMode : Nat := 4
/-- Record 0x0401 parameter 5 (R303, R353). -/
def laneLeadLc : Nat := 5
/-- Record 0x0401 parameter 6 (R303, R353). -/
def laneLeadUs : Nat := 6
/-- Record 0x0401 parameter 7 (R303, R353). -/
def laneMarginOpen : Nat := 7
/-- Record 0x0401 parameter 8 (R303, R353). -/
def laneMarginClose : Nat := 8
/-- Record 0x0401 parameter 9 (R303, R353). -/
def laneApPort : Nat := 9
/-- Record 0x0401 parameter 10 (R303, R353). -/
def laneValveCount : Nat := 10
/-- Record 0x0401 parameter 11 (R303, R353). -/
def laneValvePitch : Nat := 11
/-- Record 0x0401 parameter 12 (R303, R353). -/
def laneValveOrigin : Nat := 12
/-- Record 0x0401 parameter 13 (R303, R353). -/
def laneColMargin : Nat := 13
/-- Record 0x0401 parameter 14 (R303, R353). -/
def laneActionTable : Nat := 14
/-- Record 0x0401 parameter 15 (R303, R353). -/
def laneDefaultAction : Nat := 15
/-- Record 0x0401 parameter 16 (R303, R353). -/
def laneDefaultLen : Nat := 16
/-- Record 0x0401 parameter 17 (R303, R353). -/
def laneMinAhead : Nat := 17
/-- Record 0x0401 parameter 18 (R303, R353). -/
def laneHeads : Nat := 18
/-- Record 0x0401 parameter 19 (R303, R353). -/
def laneMinHeads : Nat := 19
/-- Record 0x0403 parameter 0 (R286). -/
def ctxCtxIndex : Nat := 0
/-- Record 0x0403 parameter 1 (R286). -/
def ctxPackage : Nat := 1
/-- Record 0x0403 parameter 2 (R286). -/
def ctxCatalogue : Nat := 2
/-- Record 0x0403 parameter 3 (R286). -/
def ctxShelves : Nat := 3
/-- Record 0x0403 parameter 4 (R286). -/
def ctxGatherWait : Nat := 4
/-- Record 0x0403 parameter 5 (R286). -/
def ctxSaveBase : Nat := 5
/-- Record 0x0405 parameter 0 (R97, R136). -/
def tuneRefreshThresh : Nat := 0
/-- Record 0x0405 parameter 1 (R97, R136). -/
def tuneRefreshBudget : Nat := 1
/-- Record 0x0405 parameter 2 (R97, R136). -/
def tuneRefreshMaxCore : Nat := 2
/-- Record 0x0405 parameter 3 (R97, R136). -/
def tuneRefreshMaxDev : Nat := 3
/-- Record 0x0405 parameter 4 (R97, R136). -/
def tuneRepairKeepRelief : Nat := 4
/-- Record 0x0405 parameter 5 (R97, R136). -/
def tuneWearWarn : Nat := 5
/-- Record 0x0405 parameter 6 (R97, R136). -/
def tuneCalEpochMin : Nat := 6
/-- Record 0x0405 parameter 7 (R97, R136). -/
def tuneCalEpochMax : Nat := 7
/-- Record 0x0405 parameter 8 (R97, R136). -/
def tuneOffsetPeriod : Nat := 8
/-- Record 0x0405 parameter 9 (R97, R136). -/
def tuneRefPeriod : Nat := 9
/-- Record 0x0405 parameter 10 (R97, R136). -/
def tuneGainPeriod : Nat := 10
/-- Record 0x0405 parameter 11 (R97, R136). -/
def tuneCachePeriod : Nat := 11
/-- Record 0x0406 parameter 0 (R353). -/
def portPortEn : Nat := 0
/-- Record 0x0406 parameter 1 (R353). -/
def portSpRate : Nat := 1
/-- Record 0x0406 parameter 2 (R353). -/
def portCvAlg : Nat := 2
/-- Record 0x0406 parameter 3 (R353). -/
def portCvMode : Nat := 3
/-- Record 0x0406 parameter 4 (R353). -/
def portStreams : Nat := 4
/-- Record 0x0406 parameter 5 (R353). -/
def portMaxPayload : Nat := 5
/-- Record 0x0406 parameter 6 (R353). -/
def portKeepTimeout : Nat := 6
/-- Record 0x0406 parameter 7 (R353). -/
def portPartnerLock : Nat := 7
/-- Record 0x0406 parameter 8 (R353). -/
def portPixels : Nat := 8
/-- Record 0x0406 parameter 9 (R353). -/
def portBands : Nat := 9
/-- Record 0x0406 parameter 10 (R353). -/
def portFormat : Nat := 10
/-- Record 0x0406 parameter 11 (R353). -/
def portStampWindow : Nat := 11
/-- Record 0x0407 parameter 0 (R348). -/
def fabDev0 : Nat := 0
/-- Record 0x0407 parameter 1 (R348). -/
def fabDev1 : Nat := 1
/-- Record 0x0407 parameter 2 (R348). -/
def fabDev2 : Nat := 2
/-- Record 0x0407 parameter 3 (R348). -/
def fabDev3 : Nat := 3
/-- Record 0x0407 parameter 4 (R348). -/
def fabDev4 : Nat := 4
/-- Record 0x0407 parameter 5 (R348). -/
def fabDev5 : Nat := 5
/-- Record 0x0407 parameter 6 (R348). -/
def fabDev6 : Nat := 6
/-- Record 0x0407 parameter 7 (R348). -/
def fabDev7 : Nat := 7
/-- Record 0x0407 parameter 8 (R348). -/
def fabFabricIndex : Nat := 8
/-- Record 0x0407 parameter 9 (R348). -/
def fabFmIndex : Nat := 9
/-- Record 0x0407 parameter 10 (R348). -/
def fabFmBackup : Nat := 10
/-- Record 0x0407 parameter 11 (R348). -/
def fabHbPeriod : Nat := 11
/-- Record 0x0407 parameter 12 (R348). -/
def fabHbMiss : Nat := 12
/-- Record 0x0408 parameter 0 (R370). -/
def monXchkCh : Nat := 0
/-- Record 0x0408 parameter 1 (R370). -/
def monXchkRate : Nat := 1
/-- Record 0x0408 parameter 2 (R370). -/
def monXchkPeriod : Nat := 2
/-- Record 0x0408 parameter 3 (R370). -/
def monXchkThresh : Nat := 3
/-- Record 0x0408 parameter 4 (R370). -/
def monMonRecalDt : Nat := 4
/-- Record 0x0409 parameter 0 (R434, R396). -/
def pwrInrushBudget : Nat := 0
/-- Record 0x0409 parameter 1 (R434, R396). -/
def pwrSlewStep : Nat := 1
/-- Record 0x0409 parameter 2 (R434, R396). -/
def pwrPwrLimit : Nat := 2
/-- Record 0x0409 parameter 3 (R434, R396). -/
def pwrLoadstepEn : Nat := 3
/-- Record 0x0409 parameter 4 (R434, R396). -/
def pwrLoadstepA : Nat := 4
/-- Record 0x0409 parameter 5 (R434, R396). -/
def pwrLoadstepTo : Nat := 5
/-- Record 0x0409 parameter 6 (R434, R396). -/
def pwrPumpAmp : Nat := 6
/-- Record 0x0409 parameter 7 (R434, R396). -/
def pwrPumpBudget : Nat := 7
/-- Record 0x0409 parameter 8 (R434, R396). -/
def pwrPumpTiles : Nat := 8
/-- Record 0x0409 parameter 9 (R434, R396). -/
def pwrThmThr : Nat := 9
/-- Record 0x0409 parameter 10 (R434, R396). -/
def pwrIdleStandbyS : Nat := 10
/-- Record 0x0409 parameter 11 (R434, R396). -/
def pwrGateUnused : Nat := 11
/-- Record 0x040A parameter 0 (R400, R406, R284). -/
def rcvHangRepeatS : Nat := 0
/-- Record 0x040A parameter 1 (R400, R406, R284). -/
def rcvFaultedCtxDrr : Nat := 1
/-- Record 0x040A parameter 2 (R400, R406, R284). -/
def rcvBudget0 : Nat := 2
/-- Record 0x040A parameter 3 (R400, R406, R284). -/
def rcvBudget1 : Nat := 3
/-- Record 0x040A parameter 4 (R400, R406, R284). -/
def rcvBudget2 : Nat := 4
/-- Record 0x040A parameter 5 (R400, R406, R284). -/
def rcvBudget3 : Nat := 5
/-- Record 0x040A parameter 6 (R400, R406, R284). -/
def rcvBudget4 : Nat := 6
/-- Record 0x040A parameter 7 (R400, R406, R284). -/
def rcvBudget5 : Nat := 7
/-- Record 0x040A parameter 8 (R400, R406, R284). -/
def rcvBudget6 : Nat := 8
/-- Record 0x040A parameter 9 (R400, R406, R284). -/
def rcvBudget7 : Nat := 9
/-- Record 0x040C parameter 0 (R434). -/
def bootAutostart : Nat := 0
/-- Record 0x040C parameter 1 (R434). -/
def bootAutoProgram : Nat := 1
/-- Record 0x040C parameter 2 (R434). -/
def bootEnrollKey : Nat := 2
/-- Record 0x040C parameter 3 (R434). -/
def bootFloorCommit : Nat := 3

end P

/-- Device line-clock parameters and limits (R303, R317): record 0x0400. -/
def devSpecs : List ParamSpec :=
  [⟨4, 1, 15, (some 3)⟩,
   ⟨4, 0, 1, (some 0)⟩,
   ⟨4, 1, 15, (some 3)⟩,
   ⟨4, 0, 1, (some 0)⟩,
   ⟨4, 1, 1000, (some 10)⟩,
   ⟨4, 0, 255, (some 8)⟩,
   ⟨4, 0, 512, (some 64)⟩,
   ⟨4, 1, 1048575, none⟩,
   ⟨4, 1, 255, none⟩,
   ⟨4, 1, 65535, none⟩,
   ⟨4, 0, 65535, (some 0)⟩]

/-- Lane parameters (R303, R353): record 0x0401. -/
def laneSpecs (inst : Nat) : List ParamSpec :=
  [⟨4, 0, 63, (some inst)⟩,
   ⟨4, 0, 1, (some 0)⟩,
   ⟨4, 0, 16777215, (some 1400)⟩,
   ⟨4, 1, 16777215, none⟩,
   ⟨4, 0, 1, (some 1)⟩,
   ⟨4, 0, 65535, (some 0)⟩,
   ⟨4, 0, 65535, (some 2500)⟩,
   ⟨4, 0, 4095, (some 70)⟩,
   ⟨4, 0, 4095, (some 70)⟩,
   ⟨4, 0, 1, none⟩,
   ⟨4, 1, 255, (some 64)⟩,
   ⟨4, 1, 4095, (some 32)⟩,
   ⟨4, 0, 65535, (some 0)⟩,
   ⟨4, 0, 3, (some 1)⟩,
   ⟨4, 0, 15, (some 0)⟩,
   ⟨4, 0, 15, (some 0)⟩,
   ⟨4, 1, 65535, (some 2000)⟩,
   ⟨4, 0, 65535, (some 256)⟩,
   ⟨4, 0, 15, none⟩,
   ⟨4, 1, 4, none⟩]

/-- Context parameters (R286): record 0x0403. -/
def ctxSpecs : List ParamSpec :=
  [⟨4, 0, 63, none⟩,
   ⟨4, 0, 1, none⟩,
   ⟨4, 0, 255, none⟩,
   ⟨8, 1, 18446744073709551615, none⟩,
   ⟨4, 0, 500, (some 20)⟩,
   ⟨8, 0, 18446744073709551615, none⟩]

/-- Refresh and tracking parameters (R97, R136): record 0x0405. -/
def tuneSpecs : List ParamSpec :=
  [⟨4, 120, 148, (some 132)⟩,
   ⟨4, 3, 24, (some 6)⟩,
   ⟨4, 1, 4, (some 1)⟩,
   ⟨4, 1, 16, (some 4)⟩,
   ⟨4, 0, 4, (some 2)⟩,
   ⟨4, 10000, 100000, (some 90000)⟩,
   ⟨4, 1, 1000, (some 20)⟩,
   ⟨4, 1, 60, (some 10)⟩,
   ⟨4, 1, 600, (some 10)⟩,
   ⟨4, 1, 600, (some 30)⟩,
   ⟨4, 10, 3600, (some 300)⟩,
   ⟨4, 1, 168, (some 6)⟩]

/-- Port parameters (R353): record 0x0406. -/
def portSpecs : List ParamSpec :=
  [⟨4, 0, 1, (some 0)⟩,
   ⟨4, 0, 1, (some 1)⟩,
   ⟨4, 0, 3, (some 1)⟩,
   ⟨4, 0, 1, (some 0)⟩,
   ⟨4, 1, 64, (some 1)⟩,
   ⟨4, 256, 16384, (some 16384)⟩,
   ⟨4, 20, 10000, (some 100)⟩,
   ⟨4, 0, 1, (some 0)⟩,
   ⟨4, 0, 65535, (some 0)⟩,
   ⟨4, 0, 255, (some 0)⟩,
   ⟨4, 0, 255, (some 0)⟩,
   ⟨4, 1, 65535, (some 1400)⟩]

/-- Fabric parameters (R348): record 0x0407. -/
def fabSpecs : List ParamSpec :=
  [⟨16, 0, 340282366920938463463374607431768211455, (some 0)⟩,
   ⟨16, 0, 340282366920938463463374607431768211455, (some 0)⟩,
   ⟨16, 0, 340282366920938463463374607431768211455, (some 0)⟩,
   ⟨16, 0, 340282366920938463463374607431768211455, (some 0)⟩,
   ⟨16, 0, 340282366920938463463374607431768211455, (some 0)⟩,
   ⟨16, 0, 340282366920938463463374607431768211455, (some 0)⟩,
   ⟨16, 0, 340282366920938463463374607431768211455, (some 0)⟩,
   ⟨16, 0, 340282366920938463463374607431768211455, (some 0)⟩,
   ⟨4, 0, 7, (some 0)⟩,
   ⟨4, 0, 7, (some 0)⟩,
   ⟨4, 0, 255, (some 255)⟩,
   ⟨4, 1, 1000, (some 10)⟩,
   ⟨4, 2, 16, (some 3)⟩]

/-- Monitor parameters (R370): record 0x0408. -/
def monSpecs : List ParamSpec :=
  [⟨4, 0, 29, (some 28)⟩,
   ⟨4, 0, 7, (some 5)⟩,
   ⟨4, 1, 3600, (some 10)⟩,
   ⟨4, 1, 8388608, (some 16384)⟩,
   ⟨4, 2, 40, (some 10)⟩]

/-- Power and thermal parameters (R434, R396): record 0x0409. -/
def pwrSpecs (part : Part) : List ParamSpec :=
  [⟨4, 8, 255, (some 64)⟩,
   ⟨4, 8, 1088, (some 26)⟩,
   ⟨4, 20, (if part.h32 then 71 else 75), (some (if part.h32 then 71 else 75))⟩,
   ⟨4, 0, 1, (some 1)⟩,
   ⟨4, 2, 56, (some 10)⟩,
   ⟨4, 10, 1000, (some 100)⟩,
   ⟨4, 0, 320, (some 320)⟩,
   ⟨4, 0, 24, (some 24)⟩,
   ⟨4, 0, 32, (some 32)⟩,
   ⟨4, 90, (if part.gradeC then 98 else 103), (some (if part.gradeC then 95 else 100))⟩,
   ⟨4, 0, 3600, (some 0)⟩,
   ⟨4, 0, 1, (some 0)⟩]

/-- Recovery parameters and budget classes (R400, R406, R284): record 0x040A. -/
def rcvSpecs : List ParamSpec :=
  [⟨4, 1, 3600, (some 60)⟩,
   ⟨4, 0, 1, (some 0)⟩,
   ⟨4, 1, 100000, (some 20)⟩,
   ⟨4, 1, 100000, (some 20)⟩,
   ⟨4, 1, 100000, (some 200)⟩,
   ⟨4, 1, 100000, (some 500)⟩,
   ⟨4, 1, 100000, (some 100)⟩,
   ⟨4, 1, 100000, (some 5000)⟩,
   ⟨4, 1, 100000, (some 10000)⟩,
   ⟨4, 1, 100000, (some 100)⟩]

/-- Boot parameters (R434): record 0x040C. -/
def bootSpecs : List ParamSpec :=
  [⟨4, 0, 1, (some 1)⟩,
   ⟨4, 0, 1, (some 1)⟩,
   ⟨4, 0, 1, (some 0)⟩,
   ⟨4, 0, 1, (some 1)⟩]

/-- The parameters of a record type (R434). Types 0x0402, 0x0404 and 0x040B have layouts of their own. -/
def paramSpecs (part : Part) (type inst : Nat) : List ParamSpec :=
  match type with

  | 0x400 => devSpecs
  | 0x401 => laneSpecs inst
  | 0x403 => ctxSpecs
  | 0x405 => tuneSpecs
  | 0x406 => portSpecs
  | 0x407 => fabSpecs
  | 0x408 => monSpecs
  | 0x409 => pwrSpecs part
  | 0x40A => rcvSpecs
  | 0x40C => bootSpecs
  | _ => []

/-- Parameter `i` of record (`type`, `inst`); its default where the record or the parameter is missing (R434). -/
def State.par (s : State) (type inst i : Nat) : Nat :=
  s.param type inst i ((((paramSpecs s.part type inst)[i]?).bind (·.dflt)).getD 0)

/-- Parameter `i` of record 0x0400. -/
def State.devP (s : State) (i : Nat) : Nat := s.par 0x400 0 i

/-- Parameter `i` of record 0x0405. -/
def State.tuneP (s : State) (i : Nat) : Nat := s.par 0x405 0 i

/-- Parameter `i` of record 0x0407. -/
def State.fabP (s : State) (i : Nat) : Nat := s.par 0x407 0 i

/-- Parameter `i` of record 0x0408. -/
def State.monP (s : State) (i : Nat) : Nat := s.par 0x408 0 i

/-- Parameter `i` of record 0x0409. -/
def State.pwrP (s : State) (i : Nat) : Nat := s.par 0x409 0 i

/-- Parameter `i` of record 0x040A. -/
def State.rcvP (s : State) (i : Nat) : Nat := s.par 0x40A 0 i

/-- Parameter `i` of record 0x040C. -/
def State.bootP (s : State) (i : Nat) : Nat := s.par 0x40C 0 i

/-- Parameter `i` of instance `k` of record 0x0401. -/
def State.laneP (s : State) (k i : Nat) : Nat := s.par 0x401 k i

/-- Parameter `i` of instance `k` of record 0x0403. -/
def State.ctxP (s : State) (k i : Nat) : Nat := s.par 0x403 k i

/-- Parameter `i` of instance `k` of record 0x0406. -/
def State.portP (s : State) (k i : Nat) : Nat := s.par 0x406 k i

/-- The lane is defined by the image (R303). -/
def State.hasLane (s : State) (l : Nat) : Bool := s.hasRec 0x401 l

/-- Stored layout of record 0x0404: shelf_count, second_look_lc × 64, max_positions × 64, open_max_lc × 64, stk_reserve,
early_release, stk_buf_size, xfer_timeout, then the hand-over map's entries (R266). -/
def State.stkP (s : State) (i dflt : Nat) : Nat := s.param 0x404 0 i dflt

/-- shelf_count (R266). -/
def State.shelfCount (s : State) : Nat := s.stkP 0 4
/-- second_look_lc of a shelf. -/
def State.secondLook (s : State) (k : Nat) : Nat := s.stkP (1 + k) 700000
/-- max_positions of a shelf. -/
def State.maxPositions (s : State) (k : Nat) : Nat := s.stkP (65 + k) 1024
/-- open_max_lc of a shelf. -/
def State.openMax (s : State) (k : Nat) : Nat := s.stkP (129 + k) 70000
/-- stk_reserve in pages. -/
def State.stkReserve (s : State) : Nat := s.stkP 193 4096
/-- early_release. -/
def State.earlyRelease (s : State) : Nat := s.stkP 194 0
/-- stk_buf_size in units of 64 KiB. -/
def State.bufSize (s : State) : Nat := s.stkP 195 0
/-- xfer_timeout in ms. -/
def State.xferTimeout (s : State) : Nat := s.stkP 196 5
/-- Hand-over map entry `i` (R262): peer device ID, peer shelf, local shelf; none beyond the map. -/
def State.handoverEntry (s : State) (i : Nat) : Option (Nat × Nat × Nat) :=
  match s.cfg.get? (cfgKey 0x404 0) with
  | some ps => match ps.drop (197 + 3 * i) with
    | d :: ps' :: l :: _ => if i < 16 then some (d, ps', l) else none
    | _ => none
  | none => none

end Sys2Proof.Machine
end

