-- ==== Sys2Proof/Machine/Link.lean ====
section
/-! DEFINITION. Sending frames on the ports (R313, R337, R340, R344). -/

namespace Sys2Proof.Machine

/-- A port right after power-on (R333, R516). -/
def PortSt.init : PortSt := ⟨0, 0, false, false, [], [], 0, 0, 0, [], [], 0, 0, [], none⟩

/-- Port `p` beyond its registers. -/
def State.port (s : State) (p : Nat) : PortSt := s.prt.ports.getD p PortSt.init

/-- The state with port `p` holding `q`. -/
def State.setPort (s : State) (p : Nat) (q : PortSt) : State :=
  { s with prt := { s.prt with ports := s.prt.ports.set p q PortSt.init } }

/-- PRT_STATE.state of port `p` (R333). -/
def State.portState (s : State) (p : Nat) : Nat := s.getF (R.prtState p) F.prtStateState

/-- Port `p` is ATTACHED. -/
def State.attached (s : State) (p : Nat) : Bool := s.portState p == 4

/-- PRT_CTRL.en of port `p`. -/
def State.portEn (s : State) (p : Nat) : Bool := s.isSet (R.prtCtrl p) F.prtCtrlEn

/-- A transmit stream with no frame sent yet. -/
def TxStream.init : TxStream := ⟨0, none, 0⟩

/-- Put a single-frame message of type `t` on port `p`, stream 0, with its check value (R337, R340). -/
def State.putFrame (s : State) (p t : Nat) (payload : Bytes) (ext : Bytes := []) : State :=
  let q := s.port p
  let tx := q.txs.getD 0 TxStream.init
  let c := crcRun q.alg (tx.seed.getD (crcInit q.alg)) payload
  let f : TxFrame := ⟨p, t, 0, tx.nextSeq, payload, ext, Nat.xor c (crcXor q.alg)⟩
  let tx : TxStream := ⟨c, none, (tx.nextSeq + 1) % 65536⟩
  (s.setPort p { q with txs := q.txs.put 0 tx, lastTxAt := s.timeUs }).emit (.tx f)

/-- A frame is due on port `p` (R344): none is formed while PRT_CTRL.en is 0; tx_lost counts it while not ATTACHED. -/
def State.sendFrame (s : State) (p t : Nat) (payload : Bytes) (ext : Bytes := []) : State :=
  if s.portEn p then
    if s.attached p then s.putFrame p t payload ext
    else s.raise (R.prtStatus p) F.prtStatusTxLost (R.prtTxlEvt p)
  else s

end Sys2Proof.Machine
end

