-- ==== Sys2Proof/Machine/SineTable.lean ====
section
/-! DEFINITION. The sine table of R322: T[i] = round(2^19 sin(2πi/1024)), from its first quarter. -/

namespace Sys2Proof.Machine

/-- T[0] to T[256] (R322). -/
def sineQuarter : List Nat :=
  [0, 3217, 6434, 9650, 12867, 16082, 19298, 22512, 25726, 28938, 32150, 35360, 38569, 41777, 44983, 48187, 51389, 54590, 57788, 60984, 64178, 67370, 70559, 73745, 76929, 80110, 83287, 86462, 89633, 92801, 95966, 99126] ++
  [102284, 105437, 108586, 111731, 114872, 118009, 121141, 124269, 127392, 130510, 133623, 136731, 139834, 142932, 146025, 149111, 152193, 155268, 158338, 161402, 164460, 167511, 170556, 173595, 176627, 179653, 182672, 185684, 188689, 191687, 194677, 197660] ++
  [200636, 203605, 206565, 209518, 212463, 215400, 218329, 221250, 224162, 227066, 229961, 232848, 235726, 238595, 241455, 244306, 247148, 249980, 252803, 255617, 258421, 261215, 263999, 266774, 269538, 272292, 275036, 277770, 280493, 283205, 285907, 288599] ++
  [291279, 293948, 296606, 299253, 301889, 304514, 307127, 309728, 312318, 314896, 317462, 320016, 322559, 325089, 327606, 330112, 332605, 335085, 337553, 340008, 342451, 344880, 347297, 349700, 352090, 354467, 356831, 359181, 361518, 363841, 366150, 368446] ++
  [370728, 372995, 375249, 377489, 379714, 381925, 384122, 386304, 388472, 390625, 392763, 394887, 396996, 399089, 401168, 403232, 405280, 407313, 409331, 411334, 413321, 415292, 417248, 419188, 421112, 423020, 424913, 426789, 428650, 430494, 432322, 434134] ++
  [435930, 437709, 439471, 441217, 442947, 444659, 446355, 448034, 449697, 451342, 452971, 454582, 456176, 457753, 459313, 460856, 462381, 463889, 465379, 466852, 468307, 469744, 471164, 472566, 473951, 475317, 476666, 477997, 479309, 480604, 481880, 483139] ++
  [484379, 485601, 486805, 487990, 489157, 490305, 491436, 492547, 493640, 494715, 495771, 496808, 497826, 498826, 499807, 500769, 501712, 502637, 503542, 504429, 505296, 506145, 506974, 507785, 508576, 509348, 510101, 510834, 511549, 512244, 512920, 513577] ++
  [514214, 514832, 515430, 516010, 516569, 517109, 517630, 518132, 518613, 519076, 519518, 519942, 520345, 520729, 521093, 521438, 521763, 522069, 522355, 522621, 522867, 523094, 523301, 523489, 523656, 523804, 523933, 524041, 524130, 524199, 524249, 524278] ++
  [524288]

/-- T[i] for 0 ≤ i < 1,024 (R322). -/
def sineT (i : Nat) : Int :=
  let i := i % 1024
  if i ≤ 256 then (sineQuarter.getD i 0 : Int)
  else if i ≤ 512 then (sineQuarter.getD (512 - i) 0 : Int)
  else if i ≤ 768 then -(sineQuarter.getD (i - 512) 0 : Int)
  else -(sineQuarter.getD (1024 - i) 0 : Int)

end Sys2Proof.Machine
end

