-- ==== Sys2Proof/Machine/LineClock.lean ====
section
/-! DEFINITION. The line clock's object and event slots, windfalls, arming, FIRE frames, local outputs, DAC channels and the
safe state (R297 to R327). -/

namespace Sys2Proof.Machine

/-! ### Encoders and lanes -/

/-- Encoder `e`. -/
def State.enc (s : State) (e : Nat) : Enc := if e = 0 then s.lck.enc0 else s.lck.enc1

/-- The state with encoder `e` holding `x`. -/
def State.setEnc (s : State) (e : Nat) (x : Enc) : State :=
  if e = 0 then { s with lck := { s.lck with enc0 := x } } else { s with lck := { s.lck with enc1 := x } }

/-- The encoder of lane `l` (R303). -/
def State.laneEnc (s : State) (l : Nat) : Nat := s.laneP l P.laneEnc

/-- The present position of lane `l` (R299). -/
def State.lanePos (s : State) (l : Nat) : Pos := (s.enc (s.laneEnc l)).pos

/-- LCK_CTRL.encN_en. -/
def State.encEn (s : State) (e : Nat) : Bool := s.isSet R.lckCtrl (if e = 0 then F.lckCtrlEnc0En else F.lckCtrlEnc1En)

/-- Address of LCK_VELn. -/
def velReg (e : Nat) : Nat := if e = 0 then R.lckVel0 else R.lckVel1

/-- LCK_VELn as a signed number with 8 fraction bits (R300). -/
def State.vel (s : State) (e : Nat) : Int := sext 32 (s.regNat (velReg e))

/-- The lead L in lc of lane `l` at this moment (R309). -/
def State.lead (s : State) (l : Nat) : Nat :=
  if s.laneP l P.laneLeadMode = 0 then s.laneP l P.laneLeadLc
  else
    let e := s.laneEnc l
    let v : Int := if s.vel e > 0 then s.vel e else ((s.enc e).lastVel : Int)
    (roundQ ((s.laneP l P.laneLeadUs : Int) * v) 256000).toNat

/-! ### Action tables (R310) -/

/-- Byte `off` of the action table of lane `l`. -/
def State.actByte (s : State) (l off : Nat) : Nat := s.param 0x402 (s.laneP l P.laneActionTable) off 0

/-- A little-endian field of the lane's action table. -/
def State.actLe (s : State) (l off n : Nat) : Nat :=
  (List.range n).foldr (fun i v => s.actByte l (off + i) + 256 * v) 0

/-- Flags of action `a` in the table of lane `l`. -/
def State.actFlags (s : State) (l a : Nat) : Nat := s.actByte l (0x120 + 16 * a)

/-! ### Slots (R304 to R306) -/

/-- Slots in use, and their high-water mark (LCK_SLOTS). -/
def State.syncSlots (s : State) : State :=
  let n := s.lck.slots.length
  let s := s.setF R.lckSlots F.lckSlotsInUse n
  s.setF R.lckSlots F.lckSlotsHighWater (max n (s.getF R.lckSlots F.lckSlotsHighWater))

/-- Slot `i`. -/
def State.slot (s : State) (i : Nat) : Option Slot := s.lck.slots.get? i

/-- The state with slot `i` holding `x`. -/
def State.setSlot (s : State) (i : Nat) (x : Slot) : State :=
  { s with lck := { s.lck with slots := s.lck.slots.put i x } }

/-- The state with slot `i` free. -/
def State.freeSlot (s : State) (i : Nat) : State :=
  ({ s with lck := { s.lck with slots := s.lck.slots.del i } } : State).syncSlots

/-- Slots that are free. -/
def State.freeSlots (s : State) : List Nat := (List.range 4096).filter (fun i => (s.slot i).isNone)

/-- Take a free slot for `x`; the caller has checked that one is free (R304). -/
def State.takeSlot (s : State) (x : Slot) : Nat × State :=
  let (i, s) := s.choose s.freeSlots
  (i, (s.setSlot i x).syncSlots)

/-- A slot is granted only while fewer than 4,096 − slot_reserve are in use (R306). -/
def State.slotGrant (s : State) : Bool := decide (s.lck.slots.length + s.devP P.devSlotReserve < 4096)

/-- The object slot of the sighting with call number `call`, if one is in use. -/
def State.slotOfCall (s : State) (call : Nat) : List Nat :=
  (s.lck.slots.filter (fun e => match e.2.obj with | some o => o.call == call | none => false)).map (·.1)

/-! ### GPIO pins (R318) -/

/-- The pins that pulses assert. -/
def State.gpioAsserted (s : State) : Nat :=
  (s.lck.slots.flatMap (fun e => e.2.outs)).foldl
    (fun m o => match o.kind, o.onAt with
      | .gpio k, some _ => Nat.lor m k
      | _, _ => m) 0

/-- ACT_CTRL.safe_state. -/
def State.inSafe (s : State) : Bool := s.isSet R.actCtrl F.actCtrlSafeState

/-- The pins take the levels that the safe state or the scheduler gives them, in one update (R318, R325). -/
def State.refreshGpio (s : State) : State :=
  let lv := if s.inSafe then s.getF R.actGpioState F.actGpioStateSafe
    else Nat.xor s.gpioAsserted (s.getF R.actGpioMaxw F.actGpioMaxwPol)
  if lv = s.getF R.actGpioState F.actGpioStateLevel then s
  else (s.setF R.actGpioState F.actGpioStateLevel lv).emit (.gpio lv)

/-! ### DAC channels (R321 to R323) -/

/-- A channel's active set at reset. -/
def DacCh.init : DacCh := ⟨0, 0, 0⟩

/-- Channel `ch` runs its modulator (ACT_DAC_CTRL.run). -/
def State.dacRuns (s : State) (ch : Nat) : Bool := bit (s.getF R.actDacCtrl F.actDacCtrlRun) ch

/-- The channel's output code before trims: the static code, or the sine of R322. -/
def State.dacCode (s : State) (ch : Nat) : Int :=
  let a := R.actDacActive ch
  let off : Int := s.getF a F.actDacActiveCode
  if s.isSet a F.actDacActiveSine then
    let d := s.lck.dac.getD ch DacCh.init
    let i := d.phase / 2 ^ 22 % 1024
    let f : Int := (d.phase / 2 ^ 12 % 1024 : Nat)
    let sv := sineT i + (sineT (i + 1) - sineT i) * f / 1024
    off + roundQ ((d.amp : Int) * sv) (2 ^ 19)
  else off

/-- The trimmed code leaves 0 to 2^20 − 1 (R321). -/
def State.dacClips (s : State) (ch : Nat) : Bool :=
  let g := s.getF (R.actDacActive ch) F.actDacActiveGain2
  let fac := s.lck.dacFac
  let usr := s.lck.dacUsr
  let off1 : Int := if fac.isEmpty then 0 else sext 16 (leAt fac (8 * ch + 4 * g) 2)
  let gain1 : Int := if fac.isEmpty then 0x8000 else (leAt fac (8 * ch + 4 * g + 2) 2 : Int)
  let off2 : Int := if usr.isEmpty then 0 else sext 16 (leAt usr (4 * ch) 2)
  let gain2 : Int := if usr.isEmpty then 0x8000 else (leAt usr (4 * ch + 2) 2 : Int)
  let v := s.dacCode ch * gain1 * gain2 + (off1 + off2) * 2 ^ 30
  decide (v < 0 ∨ v > (2 ^ 20 - 1) * 2 ^ 30)

/-- One sample of channel `ch`: saturation sets ACT_STATUS.dac_clip (R321). -/
def State.dacSample (s : State) (ch : Nat) : State :=
  if s.dacRuns ch && s.dacClips ch then s.raise R.actStatus F.actStatusDacClip R.actDclipEvt else s

/-- The phase accumulator of channel `ch` adds fcw (R322). -/
def State.dacStep (s : State) (ch : Nat) : State :=
  if s.dacRuns ch && s.isSet (R.actDacActive ch) F.actDacActiveSine then
    let d := s.lck.dac.getD ch DacCh.init
    { s with lck := { s.lck with dac := s.lck.dac.set ch { d with phase := (d.phase + d.fcw) % 2 ^ 32 } DacCh.init } }
  else s

/-- One channel's copy of shadow into active (R323). -/
def State.dacCopy (s : State) (ch : Nat) : State :=
  let m := R.actDacMode ch
  let a := R.actDacActive ch
  let d := s.lck.dac.getD ch DacCh.init
  let s := s.setF a F.actDacActiveCode (s.getF (R.actDacCode ch) F.actDacCodeValue)
  let s := s.setF a F.actDacActiveSine (s.getF m F.actDacModeSine)
  let s := s.setF a F.actDacActiveGain2 (s.getF m F.actDacModeGain2)
  let ph := if s.isSet m F.actDacModePhaseSet then s.regNat (R.actDacPhase ch) else d.phase
  let d : DacCh := ⟨s.getF (R.actDacAmp ch) F.actDacAmpValue, s.regNat (R.actDacFcw ch), ph⟩
  { s with lck := { s.lck with dac := s.lck.dac.set ch d DacCh.init } }

/-- A load strobe: every channel's shadow goes to its active set in one sample (R323). -/
def State.dacStrobe (s : State) : State :=
  let s := (List.range 8).foldl State.dacCopy s
  let s := s.count R.actDacStrobes
  (List.range 8).foldl State.dacSample s

/-- A channel is on the hold path in the safe state, and while its modulator does not run (R324, R325). -/
def State.refreshHold (s : State) : State :=
  (List.range 8).foldl
    (fun s ch => s.setF (R.actDacActive ch) F.actDacActiveHold (b2n (s.inSafe || !s.dacRuns ch))) s

/-! ### FIRE frames (R313, R314, R317) -/

/-- Port index of actuation port `ap`. -/
def apPort (ap : Nat) : Nat := 6 + ap

/-- FIRE frames that wait for max_rate on `ap`. -/
def State.fireQ (s : State) (ap : Nat) : List WaitFire := if ap = 0 then s.lck.fireQ0 else s.lck.fireQ1

/-- The state with `ap`'s waiting FIRE frames being `q`. -/
def State.setFireQ (s : State) (ap : Nat) (q : List WaitFire) : State :=
  if ap = 0 then { s with lck := { s.lck with fireQ0 := q } } else { s with lck := { s.lck with fireQ1 := q } }

/-- Times of the FIRE frames sent on `ap` in the last 100 µs (R317). -/
def State.fireTimes (s : State) (ap : Nat) : List Nat :=
  (if ap = 0 then s.lck.fireT0 else s.lck.fireT1).filter (fun t => decide (s.timeUs < t + 100))

/-- ACT_CTRL.apN_en: the port carries lane traffic. -/
def State.apEn (s : State) (ap : Nat) : Bool := s.isSet R.actCtrl (if ap = 0 then F.actCtrlAp0En else F.actCtrlAp1En)

/-- The FIRE rate of R317 allows one more frame on `ap`. -/
def State.fireRoom (s : State) (ap : Nat) : Bool :=
  decide ((s.fireTimes ap).length < s.getF R.actLimits F.actLimitsMaxRate)

/-- A FIRE frame leaves `ap` (R313). -/
def State.putFire (s : State) (ap : Nat) (payload : Bytes) : State :=
  let s := (s.putFrame (apPort ap) 0x41 payload).count (if ap = 0 then R.actFire0 else R.actFire1)
  let ts := s.timeUs :: s.fireTimes ap
  if ap = 0 then { s with lck := { s.lck with fireT0 := ts } } else { s with lck := { s.lck with fireT1 := ts } }

/-- Waiting FIRE frames stay in order of open position (R317). -/
def insertFire (w : WaitFire) : List WaitFire → List WaitFire
  | [] => [w]
  | x :: xs => if Pos.atOrAfter w.openPos x.openPos then x :: insertFire w xs else w :: x :: xs

/-- A FIRE frame is due on the lane's actuation port (R313, R317, R344). -/
def State.fire (s : State) (l : Nat) (openPos : Pos) (payload : Bytes) : State :=
  let ap := s.laneP l P.laneApPort
  let p := apPort ap
  if s.portEn p && s.apEn ap then
    if s.attached p then
      if s.fireRoom ap && (s.fireQ ap).isEmpty then s.putFire ap payload
      else s.setFireQ ap (insertFire ⟨openPos, s.laneP l P.laneMinAhead, s.laneEnc l, l, payload⟩ (s.fireQ ap))
    else s.raise (R.prtStatus p) F.prtStatusTxLost (R.prtTxlEvt p)
  else s

/-- The FIRE payload of R314. -/
def firePayload (l : Nat) (a : Arm) (action : Nat) (isDefault : Bool) (call : Nat) : Bytes :=
  leBytes 1 0x41 ++ leBytes 1 l ++ leBytes 1 a.v0 ++ leBytes 1 a.v1 ++ leBytes 6 a.openPos.toNat
    ++ leBytes 6 a.closePos.toNat ++ leBytes 2 a.lead ++ leBytes 1 action
    ++ leBytes 1 (b2n isDefault + 2 * b2n a.lateOpen + 4 * b2n a.spanClip) ++ leBytes 4 (call % 2 ^ 24)

/-! ### Arming (R308, R319) -/

/-- A valve index from a lane pixel, before the margin (R308). -/
def State.valveOf (s : State) (l x : Nat) : Int :=
  ((x : Int) - (s.laneP l P.laneValveOrigin : Int)) / (s.laneP l P.laneValvePitch : Int)

/-- The positions and valve range of an action of lane `l` (R308). -/
def State.armCalc (s : State) (l : Nat) (pLead pTrail : Pos) (xMin xMax action : Nat) : Arm :=
  let now := s.lanePos l
  let lead := s.lead l
  let dist := BitVec.ofNat 48 (s.laneP l P.laneValveDist) - BitVec.ofNat 48 lead
  let open0 := pLead + dist - BitVec.ofNat 48 (s.laneP l P.laneMarginOpen)
  let least := now + BitVec.ofNat 48 (s.laneP l P.laneMinAhead)
  let late := !Pos.atOrAfter open0 least
  let openP := if late then least else open0
  let close0 := pTrail + dist + BitVec.ofNat 48 (s.laneP l P.laneMarginClose)
  let most := openP + BitVec.ofNat 48 (s.getF R.actLimits F.actLimitsMaxSpan)
  let clip := Pos.atOrAfter close0 most && close0 != most
  let top : Int := (s.laneP l P.laneValveCount : Int) - 1
  let mg : Int := s.laneP l P.laneColMargin
  let all := bit (s.actFlags l action) 1
  { lead := lead
    openPos := openP
    closePos := if clip then most else close0
    v0 := if all then 0 else (clampI 0 top (s.valveOf l xMin - mg)).toNat
    v1 := if all then top.toNat else (clampI 0 top (s.valveOf l xMax + mg)).toNat
    lateOpen := late
    spanClip := clip }

/-- The local outputs of an action (R308, R310). -/
def State.localOuts (s : State) (l : Nat) (pLead pTrail : Pos) (action : Nat) : List LocalOut :=
  let base := 0x120 + 16 * action
  let fl := s.actFlags l action
  let gd := BitVec.ofNat 48 (s.actLe l (base + 4) 4)
  let g : List LocalOut := if bit fl 2 then
      [⟨.gpio (s.actLe l (base + 2) 2), pLead + gd, if bit fl 3 then none else some (pTrail + gd),
        s.actLe l (base + 8) 2, false, none, false⟩] else []
  let d : List LocalOut := if bit fl 4 then
      [⟨.dacLoad, pLead + BitVec.ofNat 48 (s.actLe l (base + 12) 4), none, 0, false, none, false⟩] else []
  g ++ d

/-- An output takes effect at its position: a pulse is asserted and stays with its slot, anything else is done (R318). -/
def State.doOut (s : State) (o : LocalOut) : State × Option LocalOut :=
  match o.kind with
  | .gpio _ => (s, some { o with onAt := some s.timeUs, due := false })
  | .dacLoad => (s.dacStrobe, none)
  | .irq tag => (s.emit (.irq tag), none)

/-- An output is skipped (R319). -/
def State.missOut (s : State) : State :=
  (s.raise R.lckStatus F.lckStatusMissed R.lckMissEvt).report Src.device E.lckEventMissed Rep.lineClock

/-- At arming, an output waits, fires at once or is skipped by where the belt stands (R319). -/
def State.armOut (s : State) (e : Nat) (o : LocalOut) : State × Option LocalOut :=
  let now := (s.enc e).pos
  if Pos.atOrAfter now o.pos then
    if (now - o.pos).toNat ≤ s.getF R.lckCfg F.lckCfgLateTol then
      (s.raise R.lckStatus F.lckStatusLate R.lckLateEvt).doOut o
    else (s.missOut, none)
  else (s, some o)

/-- Arm a slot's outputs in order; those not done stay. -/
def State.armOuts (s : State) (e : Nat) : List LocalOut → State × List LocalOut
  | [] => (s, [])
  | o :: os =>
    let (s, r) := s.armOut e o
    let (s, rs) := s.armOuts e os
    (s, r.toList ++ rs)

/-- A slot with no output left is free (R305). -/
def State.freeIfDone (s : State) (i : Nat) : State :=
  match s.slot i with
  | some x =>
    if x.outs.isEmpty && (match x.obj with | some o => o.st == .armed | none => true) then s.freeSlot i else s
  | none => s

/-- The status bits and reports of R308's flags. -/
def State.armFlags (s : State) (l : Nat) (a : Arm) (call : Nat) : State :=
  let s := if a.lateOpen then
      (s.raise R.actStatus F.actStatusLateOpen R.actLateoEvt).report (Src.lane l) E.actLateOpen Rep.lineClock call
    else s
  if a.spanClip then
    (s.raise R.actStatus F.actStatusSpanClip R.actClipEvt).report (Src.lane l) E.actSpanClipped Rep.lineClock call
  else s

/-- Slot `i` with object `o` becomes COMMITTED with `action` and is armed in the same cycle (R308). In the safe state it is
freed without output (R31, R325). -/
def State.commitSlot (s : State) (i : Nat) (o : ObjSlot) (action : Nat) (isDefault : Bool) (pTrail : Pos) : State :=
  if s.inSafe then s.freeSlot i
  else
    let l := o.lane
    let a := s.armCalc l o.pLead pTrail o.xMin o.xMax action
    let s := s.armFlags l a o.call
    let s := if bit (s.actFlags l action) 0 then s.fire l a.openPos (firePayload l a action isDefault o.call) else s
    let (s, outs) := s.armOuts (s.laneEnc l) (s.localOuts l o.pLead pTrail action)
    let o' : ObjSlot := { o with st := .armed, pTrail := pTrail, held := none, action := action, isDefault := isDefault,
                                 openPos := a.openPos, closePos := a.closePos, v0 := a.v0, v1 := a.v1,
                                 flags := b2n isDefault + 2 * b2n a.lateOpen + 4 * b2n a.spanClip }
    ((s.setSlot i ⟨s.laneEnc l, some o', outs⟩).refreshGpio).freeIfDone i

/-! ### Windfalls (R312) -/

/-- The cause counter of a windfall. -/
def wfReg (l : Nat) : WfCause → Nat
  | .late => R.lckLnWfLate l
  | .refused => R.lckLnWfRefused l
  | .retired => R.lckLnWfRetired l
  | .fault => R.lckLnWfFault l

/-- A default that Krein commits advances LCK_LN_WF_EVT and one cause counter, and sets LCK_LN_STATUS.windfall (R312). -/
def State.windfall (s : State) (l : Nat) (c : WfCause) : State :=
  (s.raise (R.lckLnStatus l) F.lckLnStatusWindfall (R.lckLnWfEvt l)).count (wfReg l c)

/-- The lane's default is committed to slot `i` (R312). In the safe state no action is issued and none is counted (R31). -/
def State.defaultSlot (s : State) (i : Nat) (o : ObjSlot) (c : WfCause) (pTrail : Pos) : State :=
  if s.inSafe then s.freeSlot i
  else (s.windfall o.lane c).commitSlot i o (s.laneP o.lane P.laneDefaultAction) true pTrail

/-- A model action becomes the slot's action (R307). -/
def State.modelSlot (s : State) (i : Nat) (o : ObjSlot) (action : Nat) : State :=
  if s.inSafe then s.freeSlot i
  else (s.count (R.lckLnDecided o.lane)).commitSlot i o action false o.pTrail

/-- A model action is discarded (R307). -/
def State.discardModel (s : State) (l : Nat) : State := s.count (R.lckLnDiscarded l)

/-- The later of two positions (R7). -/
def Pos.later (p q : Pos) : Pos := if Pos.atOrAfter p q then p else q

/-- P_trail of a default issued at once: the close position, or for an open folio the later of P_seen and
P_lead + default_len_lc (R312). -/
def State.trailNow (s : State) (o : ObjSlot) : Pos :=
  if o.st = .openS then Pos.later o.pSeen (o.pLead + BitVec.ofNat 48 (s.laneP o.lane P.laneDefaultLen)) else o.pTrail

/-- An uncommitted slot takes the default at once (R312); a committed slot's action stands. -/
def State.defaultNow (s : State) (i : Nat) (c : WfCause) : State :=
  match s.slot i with
  | some ⟨_, some o, _⟩ => if o.st = .armed then s else s.defaultSlot i o c (s.trailNow o)
  | _ => s

/-- Every uncommitted slot of the lane takes the default at once (R312, R344). -/
def State.defaultLane (s : State) (l : Nat) (c : WfCause) : State :=
  (s.lck.slots.map (·.1)).foldl
    (fun s i => match s.slot i with
      | some ⟨_, some o, _⟩ => if o.lane = l then s.defaultNow i c else s
      | _ => s) s

/-- The object of call number `call` is marked defaulted: its default waits for the cut-off (R281, R285, R312). A commit
that was held is discarded. -/
def State.markSlot (s : State) (i : Nat) : State :=
  match s.slot i with
  | some ⟨e, some o, outs⟩ =>
    if o.st = .armed then s
    else
      let s := if o.held.isSome then s.discardModel o.lane else s
      s.setSlot i ⟨e, some { o with marked := true, held := none }, outs⟩
  | _ => s

/-- Mark the object of a call number defaulted. -/
def State.markCall (s : State) (call : Nat) : State := (s.slotOfCall call).foldl State.markSlot s

/-- The slots of a call number take the default at once (R312: folio retired). -/
def State.defaultCall (s : State) (call : Nat) (c : WfCause) : State :=
  (s.slotOfCall call).foldl (fun s i => s.defaultNow i c) s

/-- One local output of a refused object's default takes a reserve event slot, or is skipped (R312). -/
def State.reserveOut (s : State) (e : Nat) (o : LocalOut) : State :=
  let (s, r) := s.armOut e o
  match r with
  | none => s
  | some o' => if s.lck.slots.length < 4096 then (s.takeSlot ⟨e, none, [o']⟩).2.refreshGpio else s.missOut

/-- The default of an object refused admission: no object slot (R30, R306, R312). -/
def State.defaultRefused (s : State) (l : Nat) (pLead : Pos) (xMin xMax : Nat) : State :=
  if s.inSafe then s
  else
    let s := s.windfall l .refused
    let action := s.laneP l P.laneDefaultAction
    let pTrail := pLead + BitVec.ofNat 48 (s.laneP l P.laneDefaultLen)
    let a := s.armCalc l pLead pTrail xMin xMax action
    let s := s.armFlags l a 0
    let s := if bit (s.actFlags l action) 0 then s.fire l a.openPos (firePayload l a action true 0) else s
    ((s.localOuts l pLead pTrail action).foldl (fun s o => s.reserveOut (s.laneEnc l) o) s).refreshGpio

/-! ### Cut-off and close (R307) -/

/-- The cut-off position of a closed slot (R305). -/
def State.cutoffPos (s : State) (o : ObjSlot) : Pos := o.pTrail + BitVec.ofNat 48 (s.laneP o.lane P.laneCutoff)

/-- A cut-off crossing that is due is registered: an uncommitted slot takes the default (R307, R312). -/
def State.registerCutoff (s : State) (i : Nat) : State :=
  match s.slot i with
  | some ⟨e, some o, outs⟩ =>
    if o.cutDue && !o.cutReg then
      let o := { o with cutReg := true, cutDue := false }
      let s := s.setSlot i ⟨e, some o, outs⟩
      if o.st = .closed then s.defaultSlot i o (if o.marked then .fault else .late) o.pTrail else s
    else s
  | _ => s

/-- An object slot becomes CLOSED at `pTrail`, and a held commit is judged against its cut-off (R307). -/
def State.closeSlot (s : State) (i : Nat) (pTrail : Pos) : State :=
  match s.slot i with
  | some ⟨e, some o, outs⟩ =>
    if o.st = .openS then
      let o := { o with st := .closed, pTrail := pTrail }
      let c := s.cutoffPos o
      let s := s.setSlot i ⟨e, some o, outs⟩
      if Pos.atOrAfter (s.lanePos o.lane) c then
        match o.held with
        | some (a, p) =>
          if !Pos.atOrAfter p c then s.modelSlot i o a
          else (s.discardModel o.lane).defaultSlot i { o with cutReg := true } (if o.marked then .fault else .late) pTrail
        | none => s.defaultSlot i { o with cutReg := true } (if o.marked then .fault else .late) pTrail
      else match o.held with
        | some (a, _) => s.modelSlot i o a
        | none => s
    else s
  | _ => s

/-- A DECIDE commit of `action` to slot `i` (R307): crossings due are registered first. -/
def State.commitDecide (s : State) (i : Nat) (action : Nat) : State :=
  let s := s.registerCutoff i
  match s.slot i with
  | some ⟨e, some o, outs⟩ =>
    if o.cutReg || o.marked || o.st == .armed then s.discardModel o.lane
    else if o.st = .openS then
      s.setSlot i ⟨e, some { o with held := some (action, s.lanePos o.lane) }, outs⟩
    else s.modelSlot i o action
  | _ => s

/-! ### Safe state (R324, R325) -/

/-- Outputs go to the hold path (R325). -/
def State.holdOutputs (s : State) : State :=
  let s := s.setF R.actCtrl F.actCtrlSafeState 1
  let s := { s with lck := { s.lck with fireQ0 := [], fireQ1 := [],
                                        slots := s.lck.slots.filter (fun e => match e.2.obj with
                                          | some o => decide (o.st ≠ SlotSt.armed)
                                          | none => false) } }
  (s.syncSlots.refreshHold).refreshGpio

/-- Krein enters the safe state (R325) with a reason of R315; `frames` is false on a hard trip. Nothing more happens when
it is in the safe state already. DEDUCED, assumption 52. -/
def State.enterSafe (s : State) (reason : Nat) (frames : Bool := true) : State :=
  if s.inSafe then s
  else
    let s := s.holdOutputs
    let pl := leBytes 4 (0x43 + 256 * reason)
    let s := if frames then (s.sendFrame 6 0x43 pl).sendFrame 7 0x43 pl else s
    (s.raise R.actStatus F.actStatusSafeEntry R.actSafeEvt).report Src.device E.actSafeEntered Rep.lineClock reason

/-- ACT_CTRL.release: Krein leaves the safe state (R325). -/
def State.leaveSafe (s : State) : State := ((s.setF R.actCtrl F.actCtrlSafeState 0).refreshHold).refreshGpio

/-- The hold path takes new safe values: the payload of record 0x0205, or code 0, gain ×1 and low levels (R324, R326). -/
def State.loadHold (s : State) (payload : Bytes) : State :=
  let hold := (List.range 8).map (fun ch => let w := leAt payload (4 * ch) 4; (w % 2 ^ 20, w / 2 ^ 20 % 2))
  let s := { s with lck := { s.lck with hold := hold } }
  (s.setF R.actGpioState F.actGpioStateSafe (leAt payload 32 2)).refreshGpio

/-! ### SYNC and POS frames (R313, R315, R338) -/

/-- The SYNC payload of encoder `e`; `t` is 0x42 for a board and 0x20 for a head. -/
def State.syncPayload (s : State) (t e : Nat) (heartbeat : Bool) : Bytes :=
  let x := s.enc e
  leBytes 1 t ++ leBytes 1 (b2n (!x.lastFwd) + 2 * b2n x.stopped + 4 * b2n heartbeat) ++ leBytes 2 e
    ++ leBytes 6 x.pos.toNat ++ leBytes 2 0 ++ leBytes 4 (s.regNat (velReg e))

/-- SYNC goes to every actuation port with lane traffic, POS to every sensor port. -/
def State.sendSync (s : State) (e : Nat) (heartbeat : Bool) : State :=
  let pl := s.syncPayload 0x42 e heartbeat
  let s := [0, 1].foldl (fun s ap => if s.apEn ap then s.sendFrame (apPort ap) 0x42 pl else s) s
  let s := [0, 1, 2, 3].foldl (fun s p => s.sendFrame p 0x20 (s.syncPayload 0x20 e heartbeat)) s
  s.setEnc e { s.enc e with syncDue := false, syncAt := s.timeUs }

/-! ### Counting (R297, R301) -/

/-- Outputs and cut-offs of a slot whose position the forward count made equal to `p` fall due (R301).
DEDUCED, assumption 30. -/
def State.markDue (s : State) (e : Nat) (p : Pos) (x : Slot) : Slot :=
  if x.enc ≠ e then x
  else
    let outs := if s.isSet R.lckCtrl F.lckCtrlSchedEn then
        x.outs.map (fun o => { o with due := o.due || (o.onAt.isNone && o.pos == p),
                                      endDue := o.endDue || (o.onAt.isSome && o.pos2 == some p) })
      else x.outs
    let obj := x.obj.map (fun o => if decide (o.st = .closed) && s.cutoffPos o == p then { o with cutDue := true } else o)
    { x with outs := outs, obj := obj }

/-- The phase of a quadrature state in the order in which A leads B (R297). -/
def quadPhase (a b : Bool) : Nat := if a then (if b then 2 else 1) else (if b then 3 else 0)

/-- The fire of every output of a slot that is due, and the end of every pulse that is due (R318). -/
def State.runOuts (s : State) : List LocalOut → State × List LocalOut
  | [] => (s, [])
  | o :: os =>
    if o.endDue then s.runOuts os
    else if o.due then
      let (s, r) := s.doOut o
      let (s, rs) := s.runOuts os
      (s, r.toList ++ rs)
    else
      let (s, rs) := s.runOuts os
      (s, o :: rs)

/-- Replace a slot's outputs, update the pins and free the slot when it is done. -/
def State.putOuts (s : State) (i : Nat) (outs : List LocalOut) : State :=
  match s.slot i with
  | some x => ((s.setSlot i { x with outs := outs }).refreshGpio).freeIfDone i
  | none => s

end Sys2Proof.Machine
end

