-- ==== Sys2Proof/Machine/Shake.lean ====
section
/-! DEFINITION. SHAKE256 with 256-bit output (FIPS 202), the hash that R431 to R448 name. -/

namespace Sys2Proof.Machine

/-- A 64-bit lane rotated left by `n`. -/
def rotl64 (x n : Nat) : Nat := if n = 0 then x else (x * 2 ^ n % 2 ^ 64) + x / 2 ^ (64 - n)

/-- Round constants of Keccak-f[1600]. -/
def keccakRC : List Nat :=
  [0x0000000000000001, 0x0000000000008082, 0x800000000000808A, 0x8000000080008000, 0x000000000000808B,
   0x0000000080000001, 0x8000000080008081, 0x8000000000008009, 0x000000000000008A, 0x0000000000000088,
   0x0000000080008009, 0x000000008000000A, 0x000000008000808B, 0x800000000000008B, 0x8000000000008089,
   0x8000000000008003, 0x8000000000008002, 0x8000000000000080, 0x000000000000800A, 0x800000008000000A,
   0x8000000080008081, 0x8000000000008080, 0x0000000080000001, 0x8000000080008008]

/-- Rotation offsets of lane x + 5 y. -/
def keccakRot : List Nat :=
  [0, 1, 62, 28, 27, 36, 44, 6, 55, 20, 3, 10, 43, 25, 39, 41, 45, 15, 21, 8, 18, 2, 61, 56, 14]

/-- One round on 25 lanes. -/
def keccakRound (rc : Nat) (a : List Nat) : List Nat :=
  let at' := fun (l : List Nat) (i : Nat) => l.getD i 0
  let c := (List.range 5).map (fun x =>
    Nat.xor (at' a x) (Nat.xor (at' a (x + 5)) (Nat.xor (at' a (x + 10)) (Nat.xor (at' a (x + 15)) (at' a (x + 20))))))
  let d := (List.range 5).map (fun x => Nat.xor (at' c ((x + 4) % 5)) (rotl64 (at' c ((x + 1) % 5)) 1))
  let t := (List.range 25).map (fun i => Nat.xor (at' a i) (at' d (i % 5)))
  let b := (List.range 25).map (fun i =>
    let x := i % 5
    let y := i / 5
    let j := (x + 3 * y) % 5 + 5 * x
    rotl64 (at' t j) (at' keccakRot j))
  let e := (List.range 25).map (fun i =>
    let x := i % 5
    let y5 := 5 * (i / 5)
    Nat.xor (at' b i) (Nat.land (2 ^ 64 - 1 - at' b ((x + 1) % 5 + y5)) (at' b ((x + 2) % 5 + y5))))
  match e with
  | l0 :: ls => Nat.xor l0 rc :: ls
  | [] => []

/-- Keccak-f[1600]. -/
def keccakF (a : List Nat) : List Nat := keccakRC.foldl (fun a rc => keccakRound rc a) a

/-- Absorb one block of 136 bytes. -/
def absorb (a : List Nat) (blk : Bytes) : List Nat :=
  keccakF ((List.range 25).map (fun i => Nat.xor (a.getD i 0) (if i < 17 then leAt blk (8 * i) 8 else 0)))

/-- Absorb `n` blocks. -/
def absorbAll : Nat → List Nat → Bytes → List Nat
  | 0, a, _ => a
  | n + 1, a, bs => absorbAll n (absorb a (bs.take 136)) (bs.drop 136)

/-- The message with SHAKE's domain bits and padding: whole blocks of 136 bytes. -/
def shakePad (m : Bytes) : Bytes :=
  let r := m.length % 136
  if r = 135 then m ++ [0x9F] else m ++ [0x1F] ++ List.replicate (134 - r) 0 ++ [0x80]

/-- SHAKE256 truncated to 32 bytes. DESIGN CHOICE, assumption 61. -/
def shake256 (m : Bytes) : Bytes :=
  let p := shakePad m
  let a := absorbAll (p.length / 136) (List.replicate 25 0) p
  (List.range 4).flatMap (fun i => leBytes 8 (a.getD i 0))

end Sys2Proof.Machine
end

