-- ==== Sys2Proof/Machine/Store.lean ====
section
/-! DEFINITION. The parameter store: pages, records and their copies, the write queue, the monotonic counters, and the log
(R455 to R470, R418 to R420). -/

namespace Sys2Proof.Machine

/-! ### Places (R455, R457) -/

/-- A paired record's place: pages per copy and copy A's first page. -/
def recPlace (type : Nat) : Option (Nat × Nat) :=
  match type with
  | 0x100 => some (1, 0) | 0x101 => some (1, 2) | 0x102 => some (1, 4) | 0x103 => some (1, 6)
  | 0x104 => some (3, 8) | 0x106 => some (1, 14) | 0x107 => some (21, 16)
  | 0x200 => some (69, 256) | 0x201 => some (3, 394)
  | 0x202 => some (1, 400) | 0x203 => some (1, 402) | 0x204 => some (1, 404) | 0x205 => some (1, 406)
  | 0x500 => some (1, 960)
  | 0x600 => some (18, 908) | 0x601 => some (6, 944) | 0x602 => some (2, 956)
  | _ => none

/-- The paired record types. -/
def pairedTypes : List Nat :=
  [0x100, 0x101, 0x102, 0x103, 0x104, 0x106, 0x107, 0x200, 0x201, 0x202, 0x203, 0x204, 0x205, 0x500, 0x600, 0x601, 0x602]

/-- The paired record that a page belongs to. -/
def recOfPage (p : Nat) : Option Nat :=
  pairedTypes.find? (fun t => match recPlace t with
    | some (n, a) => decide (a ≤ p ∧ p < a + 2 * n)
    | none => false)

/-- The class of a record's writes (R463). -/
def recClass (type : Nat) : Nat := if type = 0x600 ∨ type = 0x602 ∨ type = 0x601 then 3 else 4

/-! ### Reading (R456 to R458) -/

/-- The record's bytes: the layout of R117. -/
def recBytes (type : Nat) (payload : Bytes) : Bytes :=
  let b := leBytes 2 type ++ leBytes 2 1 ++ leBytes 4 payload.length ++ payload
  b ++ leBytes 4 (crc32c b)

/-- The payload of a byte sequence that opens with a valid record of `type`, version 1 (R117). -/
def recPayload (type : Nat) (bs : Bytes) : Option Bytes :=
  let n := leAt bs 4 4
  if leAt bs 0 2 = type ∧ leAt bs 2 2 = 1 ∧ 12 + n ≤ bs.length ∧ leAt bs (8 + n) 4 = crc32c (bs.take (8 + n)) then
    some (takeAt bs 8 n) else none

/-- The data of `n` pages from page `a`, when every one is VALID and all carry one sequence number (R457). -/
def State.copyData (s : State) (a n : Nat) : Option (Nat × Bytes) :=
  match s.pst.pages.get? a with
  | some p0 =>
    if (List.range n).all (fun i => match s.pst.pages.get? (a + i) with
        | some p => p.ok && p.seq == p0.seq
        | none => false) then
      some (p0.seq, (List.range n).flatMap (fun i => match s.pst.pages.get? (a + i) with
        | some p => p.data
        | none => []))
    else none
  | none => none

/-- A valid copy: its sequence number and payload (R457). -/
def State.copyRec (s : State) (type a n : Nat) : Option (Nat × Bytes) :=
  match s.copyData a n with
  | some (q, d) => (recPayload type d).map (fun p => (q, p))
  | none => none

/-- Sequence `a` is higher than `b` (R458). -/
def seqHigher (a b : Nat) : Bool :=
  let d := (a + 2 ^ 24 - b % 2 ^ 24) % 2 ^ 24
  decide (1 ≤ d ∧ d ≤ 2 ^ 23 - 1)

/-- What reading a record finds (R458). -/
inductive RecRead where
  | valid (seq : Nat) (fromB : Bool) (payload : Bytes)
  | absent
  | lost
  deriving DecidableEq, Repr

/-- Read a paired record (R458). -/
def State.lookupRec (s : State) (type : Nat) : RecRead :=
  match recPlace type with
  | none => .absent
  | some (n, a) =>
    match s.copyRec type a n, s.copyRec type (a + n) n with
    | some (q, p), some (r, o) => if seqHigher r q then .valid r true o else .valid q false p
    | some (q, p), none => .valid q false p
    | none, some (r, o) => .valid r true o
    | none, none =>
      if (List.range (2 * n)).all (fun i => (s.pst.pages.get? (a + i)).isNone) then .absent else .lost

/-- The payload of a record, if it has a valid copy. -/
def State.recOf (s : State) (type : Nat) : Option Bytes :=
  match s.lookupRec type with
  | .valid _ _ p => some p
  | _ => none

/-- A read of `n` pages from `a` reports each TORN page it meets (R471, R472). -/
def State.reportTorn (s : State) (a n : Nat) : State :=
  (List.range n).foldl (fun s i =>
    match s.pst.pages.get? (a + i) with
    | some p =>
      if p.ok then s
      else (s.raise R.pstStatus F.pstStatusTorn R.pstTornEvt).report Src.device E.pstTorn Rep.store (a + i)
    | none => s) s

/-- Firmware reads a paired record: TORN pages and a lost record are reported (R458). -/
def State.readRec (s : State) (type : Nat) : State × Option Bytes :=
  match recPlace type with
  | none => (s, none)
  | some (n, a) =>
    let s := s.reportTorn a (2 * n)
    match s.lookupRec type with
    | .valid _ _ p => (s, some p)
    | .absent => (s, none)
    | .lost => ((s.raise R.pstStatus F.pstStatusLost R.pstLostEvt).report Src.device E.pstRecordLost Rep.store type, none)

/-- The calibration cache's payload, if the record is valid (R459). -/
def State.cacheRec (s : State) : Option Bytes :=
  match s.copyData 640 137 with
  | some (_, d) => recPayload 0x300 d
  | none => none

/-! ### Monotonic counters (R466, R467) -/

/-- Cells set in a byte. -/
def bitCount (b : Byte) : Nat := (List.range 8).foldl (fun n i => n + b2n (bit b.toNat i)) 0

/-- Unary cells set on a counter page. -/
def unaryCount (d : Bytes) : Nat := (takeAt d 0xE0 32).foldl (fun n b => n + bitCount b) 0

/-- Page of slot A or B of counter `c`. -/
def slotPage (c : Nat) (b : Bool) : Nat := 896 + 2 * c + b2n b

/-- The value of a slot when its page is VALID. -/
def State.slotValue (s : State) (c : Nat) (b : Bool) : Option Nat :=
  match s.pst.pages.get? (slotPage c b) with
  | some p => if p.ok then some (leAt p.data 4 4 + unaryCount p.data) else none
  | none => none

/-- The value of counter `c` (R467). -/
def State.counter (s : State) (c : Nat) : Nat := max ((s.slotValue c false).getD 0) ((s.slotValue c true).getD 0)

/-- A slot page's data with a clear unary field (R466). -/
def slotData (c base : Nat) : Bytes := leBytes 2 c ++ leBytes 2 0 ++ leBytes 4 (base % 2 ^ 32) ++ leBytes 248 0

/-- Program the lowest unset cell of a counter page (R467). -/
def setCell (d : Bytes) : Bytes :=
  let n := unaryCount d
  d.set (0xE0 + n / 8) (BitVec.ofNat 8 (Nat.lor ((d.getD (0xE0 + n / 8) 0).toNat) (2 ^ (n % 8))))

/-- Program one cell of a slot. -/
def State.programCell (s : State) (c : Nat) (b : Bool) : State :=
  { s with pst := { s.pst with pages := s.pst.pages.modify (slotPage c b) (fun p => { p with data := setCell p.data }) } }

/-! ### The write queue (R461 to R463) -/

/-- Pages that a job still has to write. -/
def PJob.pagesLeft (j : PJob) : Nat :=
  if j.begun then j.left.length
  else match j.kind with
    | .record t _ _ => ((recPlace t).map (·.1)).getD 0
    | .cache _ => 137
    | _ => 1

/-- PST_STATE.queued: page writes waiting, at most what the field holds. -/
def State.syncQueue (s : State) : State :=
  s.setF R.pstState F.pstStateQueued (min 255 (s.pst.queue.foldl (fun n j => n + j.pagesLeft) 0))

/-- Append a job to the queue (R463). -/
def State.enqueue (s : State) (cls : Nat) (k : PKind) : State :=
  ({ s with pst := { s.pst with queue := s.pst.queue ++ [⟨cls, k, false, [], 0⟩] } } : State).syncQueue

/-- The record type of a queued record write. -/
def PJob.recType (j : PJob) : Option Nat :=
  match j.kind with
  | .record t _ _ => some t
  | _ => none

/-- Write a paired record (R458); the factory region is refused (R455). A scrub rewrite of the same record that waits is
dropped (R468). -/
def State.writeRec (s : State) (type : Nat) (payload : Bytes) (waits : Bool := false) (cls : Option Nat := none) : State :=
  if type < 0x200 then s.report Src.device E.pstRegionLocked Rep.store type
  else
    let keep := s.pst.queue.filter (fun j => !(j.cls == 7 && j.recType == some type && !j.begun))
    let s := { s with pst := { s.pst with queue := keep } }
    s.enqueue (cls.getD (recClass type)) (.record type payload waits)

/-- Cut bytes into pages of 256 B from page `a` on, the last padded with 0. -/
def toPages (a n : Nat) (bs : Bytes) : List (Nat × Bytes) :=
  (List.range n).map (fun i => (a + i, takeAt bs (256 * i) 256))

/-- The newest VALID log page, if any (R460). -/
def State.newestLog (s : State) : Option (Nat × Nat) :=
  (s.pst.pages.filter (fun e => decide (1024 ≤ e.1) && e.2.ok)).foldl
    (fun m e => match m with
      | none => some (e.1, e.2.seq)
      | some (p, q) => if seqHigher e.2.seq q then some (e.1, e.2.seq) else some (p, q)) none

/-- The pages and sequence number of a job as it begins (R458 to R460). -/
def State.jobPages (s : State) (k : PKind) : Nat × List (Nat × Bytes) :=
  match k with
  | .record t payload _ =>
    match recPlace t with
    | none => (0, [])
    | some (n, a) =>
      match s.lookupRec t with
      | .valid q fromB _ => ((q + 1) % 2 ^ 24, toPages (if fromB then a else a + n) n (recBytes t payload))
      | _ => (1, toPages a n (recBytes t payload))
  | .cache payload =>
    let q := match s.pst.pages.get? 640 with | some p => p.seq | none => 0
    ((q + 1) % 2 ^ 24, toPages 640 137 (recBytes 0x300 payload))
  | .log data _ =>
    match s.newestLog with
    | some (p, q) => ((q + 1) % 2 ^ 24, [(if p = 2047 then 1024 else p + 1, takeAt data 0 256)])
    | none => (1, [(1024, takeAt data 0 256)])
  | .slot c b base _ =>
    let q := match s.pst.pages.get? (slotPage c (!b)) with | some p => p.seq | none => 0
    ((q + 1) % 2 ^ 24, [(slotPage c b, slotData c base)])
  | .rewrite p =>
    match s.pst.pages.get? p with
    | some x => (x.seq, [(p, x.data)])
    | none => (0, [])

/-- The job that is served next: the lowest class, first in arrival order (R463), and the queue without it. -/
def pickJob : List PJob → Option (PJob × List PJob)
  | [] => none
  | j :: js =>
    match pickJob js with
    | none => some (j, [])
    | some (k, ks) => if j.cls ≤ k.cls then some (j, js) else some (k, j :: ks)

/-- A job as it begins: its pages and sequence number are fixed. -/
def State.beginJob (s : State) (j : PJob) : PJob :=
  if j.begun then j
  else
    let (q, ps) := s.jobPages j.kind
    { j with begun := true, left := ps, seq := q }

/-- The next queued page write starts (R461, R462): at least 1 ms after the end of the previous one. The page reads TORN
until it ends. -/
def State.startWrite (s : State) : State :=
  let gap := match s.pst.lastEnd with | some t => decide (t + 1000 ≤ s.timeUs) | none => true
  if s.pst.run.isSome || !gap then s
  else match pickJob s.pst.queue with
    | none => s
    | some (j0, rest) =>
      let j := s.beginJob j0
      match j.left with
      | [] => ({ s with pst := { s.pst with queue := rest } } : State).syncQueue
      | (p, d) :: left =>
        let old := s.pst.pages.get? p
        let torn : Page := ⟨false, (old.map (·.seq)).getD 0, (old.map (·.data)).getD (leBytes 256 0)⟩
        let s : State := { s with pst := { s.pst with
          queue := rest, pages := s.pst.pages.put p torn,
          run := some ⟨{ j with left := left }, p, d, old, s.timeUs, false⟩ } }
        let s := s.syncQueue
        let s := s.setF R.pstState F.pstStateBusy 1
        s.setF R.pstState F.pstStatePage p

/-- What a page write's end leaves (R461): nothing more, a finished job, or a job that failed. -/
inductive WriteEnd where
  | more
  | done (k : PKind)
  | failed (k : PKind)
  deriving DecidableEq, Repr

/-- The page write ends (R461): read-back passes, or the page is written once more, or it is left TORN. -/
def State.endWrite (s : State) (ok : Bool) : State × WriteEnd :=
  match s.pst.run with
  | none => (s, .more)
  | some r =>
    if ok then
      let s : State := { s with pst := { s.pst with
        pages := s.pst.pages.put r.page ⟨true, r.job.seq, r.data⟩, run := none, lastEnd := some s.timeUs } }
      let s := (s.setF R.pstState F.pstStateBusy 0).count R.pstWrites
      if r.job.left.isEmpty then
        match r.job.kind with
        | .slot c b _ true => (s.programCell c b, .done r.job.kind)
        | k => (s, .done k)
      else (({ s with pst := { s.pst with queue := r.job :: s.pst.queue } } : State).syncQueue, .more)
    else if r.retried then
      let s : State := { s with pst := { s.pst with run := none, lastEnd := some s.timeUs } }
      let s := s.setF R.pstState F.pstStateBusy 0
      let s := (s.raise R.pstStatus F.pstStatusWriteFail R.pstWfailEvt).report Src.device E.pstWriteFail Rep.store r.page
      (s, .failed r.job.kind)
    else
      ({ s with pst := { s.pst with run := some { r with retried := true, start := s.timeUs } } }, .more)

/-- The store loses power (R465): a running write leaves its page old, TORN or new by how far it had come. -/
def State.losePower (s : State) : State :=
  let s := match s.pst.run with
    | none => s
    | some r =>
      let t := s.timeUs - r.start
      let pages := if t = 0 && !r.retried then
          (match r.old with | some p => s.pst.pages.put r.page p | none => s.pst.pages.del r.page)
        else if t < 2380 then s.pst.pages
        else s.pst.pages.put r.page ⟨true, r.job.seq, r.data⟩
      { s with pst := { s.pst with pages := pages } }
  (({ s with pst := { s.pst with run := none, queue := [], lastEnd := none, countDue := [] } } : State).syncQueue).setF
    R.pstState F.pstStateBusy 0

/-- Increment counter `c` (R467); the caller has checked that no page write runs. -/
def State.incCounter (s : State) (c : Nat) : State :=
  let va := s.slotValue c false
  let vb := s.slotValue c true
  if s.counter c ≥ 2 ^ 32 - 1 then s.report Src.device E.pstCounterMax Rep.store c
  else if va.isNone ∧ vb.isNone then s.enqueue 2 (.slot c false 0 true)
  else
    let b : Bool := decide (va.getD 0 < vb.getD 0) || va.isNone
    match s.pst.pages.get? (slotPage c b) with
    | some p =>
      if unaryCount p.data < 256 then s.programCell c b
      else s.enqueue 2 (.slot c (!b) (leAt p.data 4 4 + 256) true)
    | none => s

/-! ### The log (R418 to R420) -/

/-- The 32 bytes of a log entry (R418). -/
def LogEntry.bytes (e : LogEntry) : Bytes :=
  leBytes 2 e.code ++ leBytes 2 e.src ++ leBytes 1 (e.sev + 4 * e.kind) ++ leBytes 1 e.reporter
    ++ leBytes 2 (e.powerOn % 65536) ++ leBytes 8 e.first ++ leBytes 4 e.span ++ leBytes 4 e.count
    ++ leBytes 4 e.detail ++ leBytes 4 e.seq

/-- A log page is written with up to seven pending entries, the oldest first (R419). -/
def State.flushLog (s : State) : State :=
  match s.flt.pending with
  | [] => s
  | es =>
    let now := es.take 7
    let s : State := { s with flt := { s.flt with pending := es.drop 7, pendSince := s.timeUs } }
    s.enqueue (if now.any (fun e => e.sev == 3) then 1 else 5)
      (.log (now.flatMap LogEntry.bytes) (now.any (fun e => decide (2 ≤ e.sev))))

/-- A log entry joins the pending entries; the oldest is dropped beyond 448 (R419). A page is written as soon as seven
entries are pending, and at once for an entry of severity 3. -/
def State.addEntry (s : State) (e : LogEntry) : State :=
  let e := { e with seq := (s.flt.logSeq + 1) % 2 ^ 32 }
  let s : State := { s with flt := { s.flt with logSeq := e.seq } }
  let s : State := match s.flt.pending with
    | o :: rest =>
      if 448 ≤ s.flt.pending.length then
        ({ s with flt := { s.flt with pending := rest } } : State).report Src.device E.fltLogDropped (Rep.fw 3)
          (o.code + 65536 * o.src)
      else s
    | [] => { s with flt := { s.flt with pendSince := s.timeUs } }
  let s : State := { s with flt := { s.flt with pending := s.flt.pending ++ [e] } }
  if 7 ≤ s.flt.pending.length ∨ e.sev = 3 then s.flushLog else s

/-- The log entry of a record (R418). -/
def State.entryOf (s : State) (r : Rec) (kind : Nat := 0) : LogEntry :=
  ⟨r.code, r.src, severity r.code, kind, r.reporter, s.counter 2, r.first, (r.last - r.first) % 2 ^ 32, r.count, r.detail, 0⟩

end Sys2Proof.Machine
end

