-- ==== Sys2Proof/Machine/Stacks.lean ====
section
/-! DEFINITION. The Stacks: address map, call numbers, folio allocator, closing and release, page errors (R230 to R261). -/

namespace Sys2Proof.Machine

/-! ### Layouts (R236) -/

/-- Entry size of a state layer: heads and B3 flag (R236). -/
def entrySize (e : Nat × Bool) : Nat := e.1 * 2 * (if e.2 then 25 else 33)

/-- Row stride (R236). -/
def Layout.stride (l : Layout) : Nat := (l.layers.map entrySize).foldl (· + ·) 0

/-- Offset of state layer `i` within a row (R236). -/
def Layout.offset (l : Layout) (i : Nat) : Nat := ((l.layers.take i).map entrySize).foldl (· + ·) 0

/-- The layout hash (R237): over L, the row stride and the (H, format) pairs in order. -/
def Layout.hash (l : Layout) : Bytes :=
  shake256 (leBytes 2 l.layers.length ++ leBytes 4 l.stride
    ++ l.layers.flatMap (fun e => leBytes 1 e.1 ++ leBytes 1 (if e.2 then 13 else 12)))

/-! ### Address map (R232, R233) -/

/-- First page of the page pool. -/
def State.poolLo (s : State) : Nat := 0x4000 + s.shelfCount * 0x20

/-- Pages in the address space. -/
def State.topPage (s : State) : Nat := if s.part.h32 then 0x80000 else 0x100000

/-- First page after the pool: the catalogue buffer area. -/
def State.poolHi (s : State) : Nat := s.topPage - s.bufSize

/-- Channel of a page (R233). -/
def pageChannel (p : Nat) : Nat := p % 64

/-- STK_CH_STATE.failed. -/
def State.chFailed (s : State) (ch : Nat) : Bool := s.isSet (R.stkChState ch) F.stkChStateFailed

/-- STK_FREE. -/
def State.freePages (s : State) : Nat := s.getF R.stkFree F.stkFreeFree

/-- The free counts change by one page of channel `ch`; STK_FREE_LOW follows the least (R268). -/
def State.countFree (s : State) (ch : Nat) (up : Bool) : State :=
  let f := fun n => if up then n + 1 else n - 1
  let s := s.setF R.stkFree F.stkFreeFree (f s.freePages)
  let s := s.setF R.stkFreeLow F.stkFreeLowLow (min (s.getF R.stkFreeLow F.stkFreeLowLow) s.freePages)
  s.setF (R.stkChState ch) F.stkChStateFree (f (s.getF (R.stkChState ch) F.stkChStateFree))

/-- Page `p` is held, given up, retired or the target of a remap. -/
def State.pageTaken (s : State) (p : Nat) : Bool :=
  s.stk.retired.contains p || s.stk.giveUp.any (fun e => e.1 == p) || s.stk.remap.any (fun e => e.2 == p)
    || s.stk.folios.any (fun e => e.2.pages.contains p)

/-- Page `p` is free. -/
def State.pageFree (s : State) (p : Nat) : Bool :=
  s.stk.built && decide (s.poolLo ≤ p ∧ p < s.poolHi) && !s.chFailed (pageChannel p) && !s.pageTaken p

/-- The free pages of channel `ch`. -/
def State.freeOf (s : State) (ch : Nat) : List Nat :=
  ((List.range (s.topPage / 64)).map (fun i => 64 * i + ch)).filter s.pageFree

/-- Channels from `ch` on, in ascending order modulo 64 (R240). -/
def channelsFrom (ch : Nat) : List Nat := (List.range 64).map (fun i => (ch + i) % 64)

/-- Take a page from channel `ch`, or the next that has one (R240). The page taken within the channel is open. -/
def State.takePage (s : State) (ch : Nat) : State × Option Nat :=
  match (channelsFrom ch).find? (fun c => !s.chFailed c && decide (0 < s.getF (R.stkChState c) F.stkChStateFree)) with
  | none => (s, none)
  | some c =>
    match s.freeOf c with
    | [] => (s, none)
    | ps =>
      let (p, s) := s.choose ps
      (s.countFree c false, some p)

/-! ### Shelves, contexts (R234, R239, R287) -/

/-- Shelf of a call number. -/
def callShelf (call : Nat) : Nat := call / 2 ^ 18 % 64

/-- Serial of a call number. -/
def callSerial (call : Nat) : Nat := call % 2 ^ 18

/-- DSP_CX_STATE.state. -/
def State.ctxState (s : State) (x : Nat) : Nat := s.getF (R.dspCxState x) F.dspCxStateState

/-- DSP_CX_STATE.gen. -/
def State.ctxGen (s : State) (x : Nat) : Nat := s.getF (R.dspCxState x) F.dspCxStateGen

/-- The context that owns shelf `k`. -/
def State.shelfCtx (s : State) (k : Nat) : Nat := s.getF (R.stkShCfg k) F.stkShCfgCtx

/-- STK_SH_CFG.en. -/
def State.shelfEn (s : State) (k : Nat) : Bool := s.isSet (R.stkShCfg k) F.stkShCfgEn

/-- The lane of shelf `k` (R303: one lane per shelf). -/
def State.shelfLane (s : State) (k : Nat) : Option Nat :=
  (List.range 64).find? (fun l => s.hasLane l && s.laneP l P.laneShelf == k)

/-- The present position that shelf `k`'s folios are judged by. -/
def State.shelfPos (s : State) (k : Nat) : Pos :=
  match s.shelfLane k with
  | some l => s.lanePos l
  | none => (s.enc 0).pos

/-- A context right after power-on. -/
def CtxSt.init : CtxSt := ⟨⟨[]⟩, 0, none, false, false, [], []⟩

/-- Context `x` beyond its registers. -/
def State.ctx (s : State) (x : Nat) : CtxSt := s.dsp.ctxs.getD x CtxSt.init

/-- The state with context `x` holding `c`. -/
def State.setCtx (s : State) (x : Nat) (c : CtxSt) : State :=
  { s with dsp := { s.dsp with ctxs := s.dsp.ctxs.set x c CtxSt.init } }

/-- The allocator refuses admissions on shelf `k`: not configured, its context tearing down or FAULTED, or an orderly stop
(R239, R289, R292, R392). -/
def State.shelfRefuses (s : State) (k : Nat) : Bool :=
  !s.isSet R.stkCtrl F.stkCtrlAdmitEn || !s.shelfEn k || s.ctxState (s.shelfCtx k) == 4 || s.ctxState (s.shelfCtx k) == 5
    || s.isSet R.thmLevel F.thmLevelStopping

/-- A call number is live (R234). -/
def State.live (s : State) (call : Nat) : Bool := (s.stk.folios.get? call).isSome

/-- Folio of a live call number. -/
def State.folio (s : State) (call : Nat) : Option Folio := s.stk.folios.get? call

/-- The state with folio `call` holding `f`. -/
def State.setFolio (s : State) (call : Nat) (f : Folio) : State :=
  { s with stk := { s.stk with folios := s.stk.folios.put call f } }

/-- The next free serial of shelf `k` in ascending order after `n` (R235), within `fuel` tries. -/
def State.nextSerial (s : State) (k : Nat) : Nat → Nat → Option Nat
  | 0, _ => none
  | fuel + 1, n =>
    let m := (n + 1) % 2 ^ 18
    let call := k * 2 ^ 18 + m
    if s.live call || s.stk.badSerials.contains call then s.nextSerial k fuel m else some m

/-- The serial that shelf `k` issues next (R235). -/
def State.freeSerial (s : State) (k : Nat) : Option Nat :=
  s.nextSerial k (2 ^ 18) ((s.stk.lastSerial.get? k).getD (2 ^ 18 - 1))

/-! ### Giving up pages (R245, R246) -/

/-- Folio counts change: STK_LIVE, STK_SH_LIVE and STK_SH_PAGES. -/
def State.countLive (s : State) (k pages : Nat) (up : Bool) : State :=
  let f := fun n d => if up then n + d else n - d
  let s := s.setF R.stkLive F.stkLiveLive (f (s.getF R.stkLive F.stkLiveLive) 1)
  let s := s.setF (R.stkShLive k) F.stkShLiveLive (f (s.getF (R.stkShLive k) F.stkShLiveLive) 1)
  s.setF (R.stkShPages k) F.stkShPagesPages (f (s.getF (R.stkShPages k) F.stkShPagesPages) pages)

/-- The folio's directory entries are no longer live and its pages are queued for return, retired ones excepted. -/
def State.giveUpFolio (s : State) (call : Nat) (f : Folio) : State :=
  let mark := s.stk.nextReq
  let ps := (f.pages.filter (fun p => !s.stk.retired.contains p)).map (fun p => (p, mark))
  let s : State := { s with stk := { s.stk with folios := s.stk.folios.del call, giveUp := s.stk.giveUp ++ ps } }
  s.countLive (callShelf call) f.pages.length false

/-- Release a folio (R245). -/
def State.releaseFolio (s : State) (call : Nat) : State :=
  match s.folio call with
  | some f => s.giveUpFolio call f
  | none => s

/-- Retire a folio (R241): its object takes the default action where its slot is uncommitted (R312). -/
def State.retireFolio (s : State) (call : Nat) : State :=
  match s.folio call with
  | some f =>
    let s := s.giveUpFolio call f
    (s.count (R.stkShRetired (callShelf call))).defaultCall call .retired
  | none => s

/-- Given-up pages return to their channel's free list once every earlier request has completed (R246). -/
def State.pageReturn (s : State) : State :=
  let ready := fun (e : Nat × Nat) => s.stk.reqs.all (fun r => decide (e.2 ≤ r.1))
  let back := s.stk.giveUp.filter ready
  let s : State := { s with stk := { s.stk with giveUp := s.stk.giveUp.filter (fun e => !ready e) } }
  back.foldl (fun s e => if s.chFailed (pageChannel e.1) then s else s.countFree (pageChannel e.1) true) s

/-! ### Admission and growth (R239 to R242) -/

/-- Distance of a closed folio's release position; 0 when it is reached (R242). -/
def State.relDist (s : State) (call : Nat) (f : Folio) : Nat :=
  let now := s.shelfPos (callShelf call)
  if Pos.atOrAfter now f.relPos then 0 else (f.relPos - now).toNat

/-- The closed folio that falls due soonest: smallest distance, then lower shelf, then lower serial (R242). -/
def State.soonest (s : State) : Option Nat :=
  ((s.stk.folios.filter (fun e => e.2.st == 2)).foldl
    (fun m e =>
      let d := s.relDist e.1 e.2
      match m with
      | none => some (d, e.1)
      | some (dm, c) => if d < dm then some (d, e.1) else some (dm, c)) none).map (·.2)

/-- Release closed folios early until the free pages so counted exceed the reserve (R242). -/
def State.earlyLoop : Nat → State → State
  | 0, s => s
  | fuel + 1, s =>
    if s.getF R.stkReserve F.stkReservePages < s.freePages + s.stk.giveUp.length then s
    else match s.soonest with
      | none => s
      | some c => State.earlyLoop fuel ((s.releaseFolio c).raise R.stkStatus F.stkStatusEarly R.stkEarlyEvt)

/-- Early release ahead of an admission (R242). -/
def State.earlyRelease? (s : State) : State :=
  if s.isSet R.stkCtrl F.stkCtrlEarlyRelease && decide (s.freePages ≤ s.getF R.stkReserve F.stkReservePages) then
    State.earlyLoop s.stk.folios.length s
  else s

/-- Pages that count as free for an admission (R239, R242). -/
def State.admitFree (s : State) : Nat :=
  if s.isSet R.stkCtrl F.stkCtrlEarlyRelease then s.freePages + s.stk.giveUp.length else s.freePages

/-- The head page of an admission: from the pages returned, or the first given-up page when none has returned (R242). -/
def State.headPage (s : State) (ch : Nat) : State × Option Nat :=
  match s.takePage ch with
  | (s, some p) => (s, some p)
  | (s, none) =>
    match s.stk.giveUp with
    | (p, _) :: rest => ({ s with stk := { s.stk with giveUp := rest } }, some p)
    | [] => (s, none)

/-- A refused admission (R239): counted, and STK_FULL when pages or serials are wanting. -/
def State.refuseAdmit (s : State) (k : Nat) (full : Bool) : State :=
  let s := s.count (R.stkShRefused k)
  if full then (s.raise R.stkStatus F.stkStatusFull R.stkFullEvt).report (Src.shelf k) E.stkFull Rep.allocator else s

/-- A new folio's header (R237, R239). -/
def newFolio (epoch ctx gen : Nat) (layout : Layout) (head : Nat) (pos : Pos) : Folio :=
  { epoch := epoch, st := 1, ctx := ctx, gen := gen, layout := layout, positions := 0, pages := [head], admitPos := pos,
    closePos := 0, relPos := 0, flags := 0, originDev := 0, originCall := 0, track := leBytes 152 0,
    nl := layout.layers.map (fun _ => 0), s2 := [], rejoin := 0, due := false }

/-- Admission of a new object on shelf `k` (R239, R242): a call number, or a refusal. -/
def State.admitFolio (s : State) (k : Nat) : State × Option Nat :=
  if s.shelfRefuses k then (s.refuseAdmit k false, none)
  else
    let s := s.earlyRelease?
    if s.admitFree ≤ s.getF R.stkReserve F.stkReservePages then (s.refuseAdmit k true, none)
    else match s.freeSerial k with
      | none => (s.refuseAdmit k true, none)
      | some n =>
        match s.headPage (n % 64) with
        | (s, none) => (s.refuseAdmit k true, none)
        | (s, some p) =>
          let call := k * 2 ^ 18 + n
          let ep := ((s.stk.epochs.getD call 255) + 1) % 256
          let x := s.shelfCtx k
          let f := newFolio ep x (s.ctxGen x) (s.ctx x).layout p (s.shelfPos k)
          let s : State := { s with stk := { s.stk with
            folios := s.stk.folios.put call f, epochs := s.stk.epochs.put call ep,
            lastSerial := s.stk.lastSerial.put k n } }
          ((s.countLive k 1 true).count R.stkAdmitted, some call)

/-- Pages that a folio of `positions` needs (R237). -/
def Layout.pagesFor (l : Layout) (positions : Nat) : Nat := ceilDiv (0x2000 + positions * l.stride) 65536

/-- Extend the chain of folio `call` page by page to `n` pages (R240); false when a page is wanting. -/
def State.extend (s : State) (call : Nat) : Nat → State × Bool
  | 0 => (s, true)
  | fuel + 1 =>
    match s.folio call with
    | none => (s, false)
    | some f =>
      match s.takePage ((callSerial call + f.pages.length) % 64) with
      | (s, none) => (s, false)
      | (s, some p) =>
        let s := s.setFolio call { f with pages := f.pages ++ [p] }
        let k := callShelf call
        let s := s.setF (R.stkShPages k) F.stkShPagesPages (s.getF (R.stkShPages k) F.stkShPagesPages + 1)
        s.extend call fuel

/-- Growth finds no free page (R241): the folio is retired. -/
def State.growFail (s : State) (call : Nat) : State :=
  let s := s.raise R.stkStatus F.stkStatusGrowFail R.stkGrowEvt
  (s.report (Src.shelf (callShelf call)) E.stkGrowFail Rep.allocator call).retireFolio call

/-- A token joined to the object takes the next position (R240): the position, or none when it is truncated or the folio
is retired. -/
def State.nextPosition (s : State) (call : Nat) : State × Option Nat :=
  match s.folio call with
  | none => (s, none)
  | some f =>
    let k := callShelf call
    if s.getF (R.stkShCfg k) F.stkShCfgMaxPos ≤ f.positions then
      (s.setFolio call { f with flags := Nat.lor f.flags 4 }, none)
    else
      let s := s.setFolio call { f with positions := f.positions + 1 }
      let need := f.layout.pagesFor (f.positions + 1)
      match s.extend call (need - f.pages.length) with
      | (s, true) => (s, some f.positions)
      | (s, false) => (s.growFail call, none)

/-! ### Closing, joining and release (R244 to R247) -/

/-- second_look_lc of shelf `k`, from its registers. -/
def State.window (s : State) (k : Nat) : Pos :=
  BitVec.ofNat 48 (s.regNat (R.stkShWinLo k) + 2 ^ 32 * (s.regNat (R.stkShWinHi k) % 2 ^ 14))

/-- Where open_max_lc counts from (R244). -/
def Folio.start (f : Folio) : Pos := if bit f.flags 0 then f.rejoin else f.admitPos

/-- Close a folio at position `p` (R244): its object's open slots close with it, and a release position already reached
makes it due at once (R245). -/
def State.closeFolio (s : State) (call : Nat) (p : Pos) (forced : Bool) : State :=
  match s.folio call with
  | none => s
  | some f =>
    if f.st ≠ 1 then s
    else
      let k := callShelf call
      let rel := p + s.window k
      let s := s.setFolio call { f with st := 2, closePos := p, relPos := rel,
                                        flags := if forced then Nat.lor f.flags 8 else f.flags }
      let s := if forced then
          (s.raise R.stkStatus F.stkStatusForceClose R.stkFcloseEvt).report (Src.shelf k) E.stkForceClose Rep.allocator call
        else s
      let s := (s.slotOfCall call).foldl (fun s i => s.closeSlot i p) s
      if Pos.atOrAfter (s.shelfPos k) rel && !s.stk.selfRefresh then s.releaseFolio call else s

/-- A later sighting asks to join a live folio on a shelf of context `x` (R247). -/
def State.joinFolio (s : State) (x call : Nat) : State × Bool :=
  let no := ((s.raise R.stkStatus F.stkStatusJoinRefused R.stkJoinEvt).report (Src.shelf (callShelf call))
    E.stkJoinRefused Rep.allocator call, false)
  match s.folio call with
  | none => no
  | some f =>
    if (f.st ≠ 1 ∧ f.st ≠ 2) ∨ f.due ∨ s.shelfCtx (callShelf call) ≠ x then no
    else if f.st = 1 then (s, true)
    else (s.setFolio call { f with st := 1, flags := Nat.lor f.flags 1, closePos := 0, relPos := 0,
                                   rejoin := s.shelfPos (callShelf call) }, true)

/-- Releases that the forward count of encoder `e` to position `p` makes due (R245). -/
def State.markReleases (s : State) (e : Nat) (p : Pos) : State :=
  { s with stk := { s.stk with folios := s.stk.folios.map (fun x =>
      let enc := match s.shelfLane (callShelf x.1) with | some l => s.laneEnc l | none => 0
      if decide (x.2.st = 2) && x.2.relPos == p && enc == e then (x.1, { x.2 with due := true }) else x) } }

/-- No folio of the shelf that is due has an earlier release position (R245). -/
def State.firstDue (s : State) (call : Nat) (f : Folio) : Bool :=
  s.stk.folios.all (fun e =>
    !(e.2.due && callShelf e.1 == callShelf call && e.1 != call && !Pos.atOrAfter e.2.relPos f.relPos))

/-! ### Errors (R257 to R260) -/

/-- The outstanding-request counter of context `x` (R291). -/
def State.outstanding (s : State) (x : Nat) : Nat := s.getF (R.dspCxOutstanding x) F.dspCxOutstandingCount

/-- The counter of context `x` changes by one. -/
def State.countOut (s : State) (x : Nat) (up : Bool) : State :=
  s.setF (R.dspCxOutstanding x) F.dspCxOutstandingCount (if up then s.outstanding x + 1 else s.outstanding x - 1)

/-- A Stacks request is accepted (R291). -/
def State.newReq (s : State) (r : Req) : State :=
  let r := { r with since := s.timeUs }
  let s : State := { s with stk := { s.stk with reqs := s.stk.reqs.put s.stk.nextReq r, nextReq := s.stk.nextReq + 1 } }
  s.countOut r.ctx true

/-- The bytes of the retired-page list: two page numbers per 5 B (R457). -/
def retBytes : List Nat → Bytes
  | a :: b :: rest => leBytes 5 (a + 2 ^ 20 * b) ++ retBytes rest
  | [a] => leBytes 5 a
  | [] => []

/-- Firmware appends a page to the retired-page list (R259). -/
def State.listRetired (s : State) (p : Nat) : State :=
  if s.stk.retList.length < 512 then
    let s : State := { s with stk := { s.stk with retList := s.stk.retList ++ [p] } }
    s.writeRec 0x601 (retBytes s.stk.retList)
  else s.report (Src.channel (pageChannel p)) E.stkRetireListFull (Rep.fw 3) p

/-- A page is withheld from every free list (R258, R259): counts advance, and the list is appended to. -/
def State.retirePage (s : State) (p : Nat) : State :=
  if s.stk.retired.contains p then s
  else
    let ch := pageChannel p
    let s := if s.pageFree p then s.countFree ch false else s
    let s : State := { s with stk := { s.stk with retired := s.stk.retired ++ [p],
                                                  giveUp := s.stk.giveUp.filter (fun e => e.1 != p) } }
    let s := s.setF R.stkRetired F.stkRetiredPages (s.getF R.stkRetired F.stkRetiredPages + 1)
    let s := s.setF (R.stkChState ch) F.stkChStateRetired (s.getF (R.stkChState ch) F.stkChStateRetired + 1)
    s.listRetired p

/-- An archive or buffer-area page is redirected to a page of the pool (R259). -/
def State.remapPage (s : State) (p : Nat) : State :=
  let s := s.retirePage p
  match s.takePage (pageChannel p) with
  | (s, some q) => { s with stk := { s.stk with remap := s.stk.remap.put p q } }
  | (s, none) => s

/-- A slot that has lost its contents (R110). -/
def ArcSlot.lost : ArcSlot := ⟨false, false, []⟩

/-- The archive slots that a page of the archive region holds a part of (R104). -/
def slotsOfPage (p : Nat) : List Nat :=
  let a := p * 65536
  (List.range 1024).filter (fun s => decide (0x100000 + s * 0xC3000 < a + 65536 ∧ a < 0x100000 + (s + 1) * 0xC3000))

/-- The folio that holds page `p`. -/
def State.folioOfPage (s : State) (p : Nat) : Option Nat :=
  (s.stk.folios.find? (fun e => e.2.pages.contains p)).map (·.1)

/-- What an uncorrectable error costs, by what the page holds (R258). The reporter is the unit that met it. -/
def State.ueEffect (s : State) (p rep : Nat) : State :=
  let ch := pageChannel p
  if p < 0x4000 then
    let s := s.report (Src.channel ch) E.stkUeArchive rep p
    let s := s.remapPage p
    if 0x3C00 ≤ p then
      ({ s with flt := { s.flt with dump := { s.flt.dump with st := 2 } } } : State).report Src.device E.fltDumpInvalid (Rep.fw 3)
    else
      { s with stk := { s.stk with slots := (slotsOfPage p).foldl (fun t i => t.put i ArcSlot.lost) s.stk.slots,
                                   arcComplete := false } }
  else if p < s.poolLo then s.report (Src.channel ch) E.stkUeDir rep p
  else if p < s.poolHi then
    match s.folioOfPage p with
    | some call =>
      let s := s.report (Src.channel ch) E.stkUeFolio rep call
      (s.retirePage p).retireFolio call
    | none => (s.report (Src.channel ch) E.stkUeFree rep p).retirePage p
  else (s.report (Src.channel ch) E.stkUeBuffer rep p).remapPage p

/-- A channel is taken out of service (R260). DESIGN CHOICE, assumption 50. -/
def State.failChannel (s : State) (ch : Nat) : State :=
  if s.chFailed ch then s
  else
    let n := s.getF (R.stkChState ch) F.stkChStateFree
    let s := s.setF R.stkFree F.stkFreeFree (s.freePages - n)
    let s := s.setF R.stkFreeLow F.stkFreeLowLow (min (s.getF R.stkFreeLow F.stkFreeLowLow) s.freePages)
    let s := s.setF (R.stkChState ch) F.stkChStateFree 0
    let s := s.setF (R.stkChState ch) F.stkChStateFailed 1
    let s := (s.raise R.stkStatus F.stkStatusChFailed R.stkChfEvt).report (Src.channel ch) E.stkChannelFailed (Rep.hbm (ch / 16))
    let hit := (s.stk.folios.filter (fun e => e.2.pages.any (fun p => pageChannel p == ch))).map (·.1)
    let s := hit.foldl (fun s c =>
      let xf := (s.stk.xfers.get? c).isSome
      let s := if xf then
          (({ s with stk := { s.stk with xfers := s.stk.xfers.del c } } : State).raise R.stkStatus F.stkStatusXferFail
            R.stkXferEvt).report (Src.shelf (callShelf c)) E.stkXferBad Rep.peerLink c
        else s
      s.retireFolio c) s
    let arc := ((List.range 0x4000).filter (fun p => pageChannel p == ch))
      ++ (((List.range s.topPage).drop s.poolHi).filter (fun p => pageChannel p == ch))
    let lost := s.stk.slots.filter (fun e => arc.any (fun p => decide (p < 0x3C00) && (slotsOfPage p).contains e.1))
    let s := arc.foldl State.remapPage s
    { s with stk := { s.stk with slots := lost.foldl (fun t e => t.put e.1 ArcSlot.lost) s.stk.slots } }

/-- An uncorrectable error in page `p` (R258, R260). -/
def State.ueAt (s : State) (p rep : Nat) : State :=
  let ch := pageChannel p
  let s := s.count (R.stkChUe ch)
  let s := s.raise R.stkStatus F.stkStatusUe R.stkUeEvt
  let ts := s.timeUs :: ((s.stk.ueTimes.getD ch []).filter (fun t => decide (s.timeUs < t + 1000000)))
  let s : State := { s with stk := { s.stk with ueTimes := s.stk.ueTimes.put ch ts } }
  let s := s.ueEffect p rep
  if 16 ≤ ts.length then s.failChannel ch else s

/-- Errors that link ECC corrected (R257). -/
def State.ceAt (s : State) (p n : Nat) : State := (s.count (R.stkChCe (pageChannel p)) n).count R.stkCeTotal n

/-! ### Folio bytes (R237, R238) -/

/-- Stacks address of byte `x` of folio `f`, after the remap table. -/
def Folio.addr (f : Folio) (x : Nat) : Nat := f.pages.getD (x / 65536) 0 * 65536 + x % 65536

/-- Read `n` bytes of folio `f` from offset `x`. -/
def State.folioRead (s : State) (f : Folio) (x n : Nat) : Bytes :=
  (List.range n).map (fun i => s.stk.mem.getD (f.addr (x + i)) 0)

/-- Write bytes into folio `f` at offset `x`. -/
def State.folioWrite (s : State) (f : Folio) : Nat → Bytes → State
  | _, [] => s
  | x, b :: bs =>
    State.folioWrite { s with stk := { s.stk with mem := s.stk.mem.set (f.addr x) b 0 } } f (x + 1) bs

/-- Offset of the entry of position `p` at state layer `l` (R237). -/
def Folio.entryOff (f : Folio) (p l : Nat) : Nat := 0x2000 + p * f.layout.stride + f.layout.offset l

end Sys2Proof.Machine
end

