-- ==== Sys2Proof/Machine/Tiles.lean ====
section
/-! DEFINITION. The crossbar tiles and the accumulator memory: issue at MVM-cycle boundaries, conversion results, range
tracker, pip estimator, accumulator entries (R37 to R67, R169 to R177, R385, R390). -/

namespace Sys2Proof.Machine

/-! ### Tiles -/

/-- Key of tile `t` of core `c`. -/
def tileKey (c t : Nat) : Nat := 128 * c + t

/-- A factory tile record with nominal values (R112, R116). -/
def FacTile.init : FacTile := ⟨true, 80000, 39101, [0, 0, 0, 0], []⟩

/-- A tile at power-on: nothing queued, nothing mapped. -/
def TileRt.init : TileRt :=
  { q := [], runs := [], slices := [], cap := 0, pipNum := 0, pipDen := 0, rejects := 0, latch := [], rows := 0, cols := 0,
    nulls := [], grp := 0, holds := none, stale := false, act := [], shd := [], fac := FacTile.init, commitAt := 0, wantRatio := none, wantCommit := false,
    tempRef := 0, gaps := [], gapTurn := 0, gapDone := [], gapStart := [], gapAt := 0, forced := false, prog := none,
    cycles := 0, sp := 0, retired := false, fails := 0, withheld := false, graftDue := false }

/-- Tile `t` of core `c`. -/
def State.tile (s : State) (c t : Nat) : TileRt := s.mc.tiles.getD (tileKey c t) TileRt.init

/-- The state with tile `t` of core `c` holding `x`. -/
def State.setTile (s : State) (c t : Nat) (x : TileRt) : State :=
  { s with mc := { s.mc with tiles := s.mc.tiles.set (tileKey c t) x TileRt.init } }

/-- TIL_STATE.state (R67): 0 OFF, 1 UNCAL, 2 CAL, 3 BELOW, 4 PROG, 5 FENCED, 6 SPARE. -/
def State.tileState (s : State) (c t : Nat) : Nat := s.getF (R.tilState c t) F.tilStateState

/-- The field of TIL_SUMMARY that counts a state. -/
def summaryField (st : Nat) : Field :=
  if st = 2 then F.tilSummaryNCal else if st = 3 then F.tilSummaryNBelow else F.tilSummaryNOther

/-- A tile enters a state; TIL_SUMMARY follows (R67, R76). -/
def State.setTileState (s : State) (c t st : Nat) : State :=
  let old := s.tileState c t
  let s := s.setF (R.tilState c t) F.tilStateState st
  let a := R.tilSummary c
  let s := s.setF a (summaryField old) (s.getF a (summaryField old) - 1)
  s.setF a (summaryField st) (s.getF a (summaryField st) + 1)

/-- The dispatcher may issue to the tile: CAL or BELOW, and issue_en set (R67, R76). -/
def State.tileIssues (s : State) (c t : Nat) : Bool :=
  (s.tileState c t == 2 || s.tileState c t == 3) && s.isSet (R.tilCtrl c t) F.tilCtrlIssueEn

/-- The step of the tile's next input (R58, R61). -/
def State.tileStep (s : State) (c t : Nat) : Nat :=
  if s.isSet (R.tilCtrl c t) F.tilCtrlTrkEn then s.getF (R.tilRange c t) F.tilRangeStep
  else s.getF (R.tilCtrl c t) F.tilCtrlGainFix

/-- TIL_STATE.step shows the step of the next input. -/
def State.syncStep (s : State) (c t : Nat) : State := s.setF (R.tilState c t) F.tilStateStep (s.tileStep c t)

/-- The weight columns of a tile that are converted (R52): mapped and not null. -/
def TileRt.converted (x : TileRt) (cols : Nat) : List Nat := (List.range cols).filter (fun c => !x.nulls.contains c)

/-- The drive values of slice `idx` of an input (R41): sign and 4-bit magnitude of every row. -/
def sliceDrive (two : Bool) (idx : Nat) (xs : List Int) : List Int :=
  xs.map (fun x =>
    let x := if two && x == -128 then -127 else x
    let m : Nat := if two then (if idx = 0 then x.natAbs % 16 else x.natAbs / 16) else x.natAbs
    if x < 0 then -(m : Int) else m)

/-- S of R62. -/
def driveSum (d : List Int) : Int := d.foldl (· + ·) 0

/-! ### Accumulator entries (R169 to R173) -/

/-- Key of entry `e` of core `c`. -/
def accKey (c e : Nat) : Nat := 1024 * c + e

/-- Entry `e` of core `c`, if not free. -/
def State.accEntry (s : State) (c e : Nat) : Option AccEntry := s.mc.acc.get? (accKey c e)

/-- The entries of core `c` that are not free. -/
def State.accOf (s : State) (c : Nat) : List (Nat × AccEntry) :=
  (s.mc.acc.filter (fun e => e.1 / 1024 == c)).map (fun e => (e.1 % 1024, e.2))

/-- ACC_OCC follows the occupancy of core `c`. -/
def State.syncOcc (s : State) (c : Nat) : State :=
  let n := (s.accOf c).length
  let s := s.setF (R.accOcc c) F.accOccInUse n
  s.setF (R.accOcc c) F.accOccHighWater (max n (s.getF (R.accOcc c) F.accOccHighWater))

/-- The state with entry `e` of core `c` holding `x`. -/
def State.setAcc (s : State) (c e : Nat) (x : AccEntry) : State :=
  ({ s with mc := { s.mc with acc := s.mc.acc.put (accKey c e) x } } : State).syncOcc c

/-- Entry `e` of core `c` returns to free. -/
def State.freeAcc (s : State) (c e : Nat) : State :=
  ({ s with mc := { s.mc with acc := s.mc.acc.del (accKey c e) } } : State).syncOcc c

/-- The free entries of core `c`. -/
def State.freeAccs (s : State) (c : Nat) : List Nat := (List.range 1024).filter (fun e => (s.accEntry c e).isNone)

/-- Write a new entry into a free one of core `c` (R170, R176, R191): its index, or none when all are in use. -/
def State.allocAcc (s : State) (c : Nat) (x : AccEntry) : State × Option Nat :=
  match s.freeAccs c with
  | [] => (s, none)
  | es =>
    let (e, s) := s.choose es
    (s.setAcc c e x, some e)

/-- Slices that an entry needs. -/
def AccEntry.need (x : AccEntry) : Nat := if x.two then 2 else 1

/-- One more slice of the entry is complete (R172, R173). -/
def AccEntry.sliceDone (x : AccEntry) : AccEntry :=
  let d := x.done + 1
  { x with done := d, st := if d = x.need then 2 else x.st }

/-- Apply `f` to an entry, if it is not free. -/
def State.modAcc (s : State) (c e : Nat) (f : AccEntry → AccEntry) : State :=
  { s with mc := { s.mc with acc := s.mc.acc.modify (accKey c e) f } }

/-! ### Inputs in flight -/

/-- The generation is that of the context now. -/
def State.genOk (s : State) (ctx gen : Nat) : Bool := s.ctxGen ctx == gen

/-- An input of the tile has delivered every slice issued to it: the tracker acts, and the entry of a dead generation is
freed (R59, R60, R193). -/
def State.trackRange (s : State) (c t : Nat) (r : InRun) : State :=
  let a := R.tilRange c t
  let code := r.maxU / 2 ^ (7 - r.step)
  let s := s.setF a F.tilRangeLastMax (if r.ovr then 256 else min code 255)
  let s :=
    if !s.isSet (R.tilCtrl c t) F.tilCtrlTrkEn then s
    else if r.ovr then
      let fits := (List.range r.step).filter (fun g => decide (r.maxU < 128 * 2 ^ (7 - g)))
      let g := if r.sat then 0 else fits.foldl max 0
      (s.setF a F.tilRangeStep g).setF a F.tilRangeQuiet 0
    else if r.loud then s.setF a F.tilRangeQuiet 0
    else s.setF a F.tilRangeQuiet (min 256 (s.getF a F.tilRangeQuiet + 1))
  s.syncStep c t

/-- Remove an input whose slices are all complete. -/
def State.endRun (s : State) (c t n : Nat) (r : InRun) : State :=
  let x := s.tile c t
  let s := s.setTile c t { x with runs := x.runs.del n }
  match r.entry with
  | none => s
  | some e =>
    let s := (s.countOut r.inp.ctx false).trackRange c t r
    if s.genOk r.inp.ctx r.inp.gen && (s.dsp.tokens.get? r.inp.token).isSome then s else s.freeAcc c e

/-- A slice of input `n` is complete or skipped. -/
def State.sliceGone (s : State) (c t n : Nat) : State :=
  match (s.tile c t).runs.get? n with
  | none => s
  | some r =>
    let s := match r.entry with | some e => s.modAcc c e AccEntry.sliceDone | none => s
    let r := { r with left := r.left - 1 }
    if r.left = 0 then s.endRun c t n r
    else s.setTile c t { s.tile c t with runs := (s.tile c t).runs.put n r }

/-! ### Conversions (R53 to R57) -/

/-- A code delivered for column `col` of a slice with index `idx`, at gain step `g` (R171). -/
def State.addCode (s : State) (c e idx g col : Nat) (code : Int) (sat : Bool) : State :=
  s.modAcc c e (fun x =>
    let v := x.vals.getD col 0 + code * 2 ^ (7 - g) * 16 ^ idx
    { x with vals := x.vals.set col v, sat := x.sat || sat })

/-- Record a delivered magnitude for the range tracker. -/
def InRun.note (r : InRun) (code : Int) (g : Nat) (ovr sat : Bool) : InRun :=
  let u := if sat then 32768 else code.natAbs * 2 ^ (7 - g)
  { r with maxU := max r.maxU u, ovr := r.ovr || ovr, sat := r.sat || sat,
           loud := r.loud || decide (16 ≤ code.natAbs) }

/-- Clamp a code into the delivered range (R49). -/
def codeClamp (c : Int) : Int := clampI (-255) 255 c

/-- A saturated code (R54): the sign of the comparator flag. -/
def satCode (c : Int) : Int := if c < 0 then -255 else 255

/-- The result of one conversion: what the slice, the input, and the delivered code (with step and saturation) become. -/
structure ConvOut where
  slice : SliceRun
  run : InRun
  code : Option (Int × Nat × Bool)
  first : Bool
  reconv : Bool
  deriving DecidableEq, Repr

/-- One column conversion of a slice (R53, R54). -/
def convOne (sl : SliceRun) (r : InRun) (k : ColCode) : ConvOut :=
  let col := k.col.val
  if sl.todo.contains col then
    let sl' := { sl with todo := sl.todo.filter (· != col) }
    if k.ovr then
      if sl.step = 0 then
        let v := satCode k.code
        ⟨sl', r.note v 0 true true, some (v, 0, true), true, false⟩
      else ⟨{ sl' with wait := sl'.wait ++ [col] }, { r with ovr := true }, none, true, false⟩
    else
      let v := codeClamp k.code
      ⟨sl', r.note v sl.step false false, some (v, sl.step, false), false, false⟩
  else if sl.serv.contains col then
    let sl' := { sl with serv := sl.serv.filter (· != col) }
    if k.ovr then
      let v := satCode k.code
      ⟨sl', r.note v 0 true true, some (v, 0, true), false, false⟩
    else
      let v := codeClamp k.code
      ⟨sl', r.note v 0 true false, some (v, 0, false), false, true⟩
  else ⟨sl, r, none, false, false⟩

/-- The tile's registers and the entry follow one conversion (R54, R57, R171). -/
def State.convEffect (s : State) (c t : Nat) (sl : SliceRun) (r : InRun) (col : Nat) (o : ConvOut) : State :=
  let s := if o.first then s.raise (R.tilStatus c t) F.tilStatusOvr (R.tilOvrEvt c t) else s
  let s := if o.reconv then s.count (R.tilReconvCount c t) else s
  match o.code, r.entry with
  | some (v, g, sat), some e =>
    let s := if sat then (s.raise (R.tilStatus c t) F.tilStatusSat (R.tilSatEvt c t)).count (R.tilSatCount c t) else s
    s.addCode c e sl.idx g col v sat
  | _, _ => s

/-- The conversions that a window delivered for a slice. -/
def State.convAll (s : State) (c t : Nat) (sl : SliceRun) (r : InRun) : List ColCode → State × SliceRun × InRun
  | [] => (s, sl, r)
  | k :: ks =>
    let o := convOne sl r k
    let s := s.convEffect c t sl r k.col.val o
    s.convAll c t o.slice o.run ks

/-- Ladder weight of pip `p` (R62). -/
def pipWeight (p : Nat) : Int := 8 * (p : Int) - 60

/-- A converted slice contributes to the pip estimator (R63). The sums are scaled by 64. -/
def State.pipAdd (s : State) (c t : Nat) (sum : Int) (pips : List PipCode) : State :=
  let used := s.getF (R.tilPipGain c t) F.tilPipGainUsed
  let ps := pips.filter (fun p => !p.ovr)
  if sum = 0 || ps.isEmpty || decide (4096 ≤ used) then s
  else
    let num := ps.foldl (fun a p => a + 8 * p.value * (pipWeight p.pip.val * sum)) 0
    let den := ps.foldl (fun a p => a + (pipWeight p.pip.val * sum) * (pipWeight p.pip.val * sum)) 0
    let x := s.tile c t
    let s := s.setTile c t { x with pipNum := x.pipNum + num, pipDen := x.pipDen + den }
    s.setF (R.tilPipGain c t) F.tilPipGainUsed (used + 1)

/-- The oldest slice of the tile that can deliver a code, or that has no column to convert (R202). -/
def TileRt.oldest (x : TileRt) : Option SliceRun :=
  x.slices.find? (fun sl => !sl.todo.isEmpty || !sl.serv.isEmpty || sl.wait.isEmpty)

/-- Replace a slice, or drop it when it is complete. -/
def putSlice (sl : SliceRun) (l : List SliceRun) : List SliceRun :=
  let fin := sl.todo.isEmpty && sl.wait.isEmpty && sl.serv.isEmpty
  if fin then l.filter (fun y => !(y.run == sl.run && y.idx == sl.idx))
  else l.map (fun y => if y.run == sl.run && y.idx == sl.idx then sl else y)

/-- A window's codes arrive for the tile's oldest incomplete slice (R54 to R56). -/
def State.deliver (s : State) (c t : Nat) (cols : List ColCode) (pips : List PipCode) : State :=
  match (s.tile c t).oldest with
  | none => s
  | some sl =>
    match (s.tile c t).runs.get? sl.run with
    | none => s
    | some r =>
      let (s, sl', r') := s.convAll c t sl r cols
      let s := if sl.pips || pips.isEmpty then s else s.pipAdd c t sl.sum pips
      let sl' := { sl' with pips := sl.pips || !pips.isEmpty }
      let x := s.tile c t
      let s := s.setTile c t { x with slices := putSlice sl' x.slices, runs := x.runs.put sl.run r' }
      if sl'.todo.isEmpty && sl'.wait.isEmpty && sl'.serv.isEmpty then s.sliceGone c t sl.run else s

/-! ### Issue (R42 to R44, R50, R55, R165, R170, R385, R390) -/

/-- Converter of a column pair (R42). -/
def convOf (col : Nat) : Nat := col / 8

/-- On every converter, the free slots of a window that converts `need` hold the samples in `wait` (R55). -/
def slotsFit (need wait : List Nat) : Bool :=
  wait.all (fun w =>
    decide ((need.filter (fun c => convOf c == convOf w)).length + (wait.filter (fun c => convOf c == convOf w)).length ≤ 8))

/-- The columns of the tile that await re-conversion. -/
def TileRt.waiting (x : TileRt) : List Nat := x.slices.flatMap (·.wait)

/-- The window that follows serves every waiting sample (R55). -/
def TileRt.serve (x : TileRt) : TileRt :=
  { x with slices := x.slices.map (fun sl => { sl with serv := sl.serv ++ sl.wait, wait := [] }) }

/-- The input of which the tile would issue a slice now: one already started, or the head of its queue. -/
def TileRt.started (x : TileRt) : Option (Nat × InRun) := x.runs.find? (fun e => decide (e.2.next < (if e.2.inp.two then 2 else 1)))

/-- Deadline of a token (R278). -/
def State.tokenDeadline (s : State) (n : Nat) : Pos :=
  match s.dsp.tokens.get? n with
  | some k => k.stamp + BitVec.ofNat 48 (s.laneP k.lane P.laneCutoff)
  | none => 0

/-- Pairs 512 to 527 and the 512 weight pairs: what each gap task converts (R134). -/
def TileRt.gapNeed (x : TileRt) (kind : Nat) : List Nat :=
  if kind = 2 then x.converted x.cols else List.range 528

/-- A natural gap (R44): the age restarts, and one gap task takes the gap if every column it needs is converted (R134). -/
def TileRt.gap (x : TileRt) (cycle : Nat) : TileRt :=
  let x := { x with gapAt := cycle }
  match x.gaps.filter (fun g => decide (0 < g.left)) with
  | [] => x
  | gs =>
    let g := (gs.find? (fun g => decide (x.gapTurn ≤ g.kind))).getD (gs.headD ⟨0, 0⟩)
    let ok := slotsFit (x.gapNeed g.kind) x.waiting
    let gaps := x.gaps.map (fun h => if h.kind = g.kind && ok then { h with left := h.left - 1 } else h)
    { x with gaps := gaps, gapTurn := (g.kind + 1) % 3 }

/-- A free entry for the first slice that the input issues (R170): the header of R169. -/
def newEntry (c t : Nat) (r : InRun) : AccEntry :=
  { sx := r.inp.sx, ncol := r.inp.cols - 1, two := r.inp.two, done := r.next, st := 1, sat := false, moved := false,
    ctx := r.inp.ctx, gen := r.inp.gen, tile := t, core := c, token := r.inp.token, nan := false,
    vals := List.replicate 512 0 }

/-- A slice is issued to the tile (R42, R50, R58): its window converts every converted column, and the waiting samples take
free slots. -/
def State.issueSlice (s : State) (c t n : Nat) (r : InRun) : State :=
  let x := s.tile c t
  let d := sliceDrive r.inp.two r.next r.inp.xs
  let sl : SliceRun := { run := n, idx := r.next, step := r.step, sum := driveSum d, cap := x.cap,
                         todo := x.converted r.inp.cols, wait := [], serv := [], pips := false }
  let x := x.serve
  s.setTile c t { x with slices := x.slices ++ [sl], cap := (x.cap + 1) % 4, latch := d,
                         runs := x.runs.put n { r with next := r.next + 1 } }

/-- What the tile does at this boundary with the slice that would be issued (R43, R50, R55, R170, R385). `room` tells
whether the slew guard allows one more slice. The second part tells whether a slice was issued. -/
def State.tryIssue (s : State) (c t n : Nat) (r : InRun) (room : Bool) : State × Bool :=
  let x := s.tile c t
  let d := sliceDrive r.inp.two r.next r.inp.xs
  if d.all (· == 0) then
    let x := (x.gap s.pwr.cycle).serve
    let s := s.setTile c t { x with runs := x.runs.put n { r with next := r.next + 1 } }
    (s.sliceGone c t n, false)
  else if !slotsFit (x.converted r.inp.cols) x.waiting then
    ((s.raise (R.tilStatus c t) F.tilStatusStall (R.tilStallEvt c t)).setTile c t x.serve, false)
  else if x.slices.any (fun sl => sl.cap == x.cap) then (s.setTile c t x.serve, false)
  else if !room then
    ((s.raise R.pwrStatus F.pwrStatusSlewHold R.pwrSlewEvt).setTile c t x.serve, false)
  else
    match r.entry with
    | some _ => (s.issueSlice c t n r, true)
    | none =>
      match s.allocAcc c (newEntry c t r) with
      | (s, none) =>
        ((s.raise (R.accStatus c) F.accStatusAllocWait (R.accWaitEvt c)).setTile c t x.serve, false)
      | (s, some e) => ((s.countOut r.inp.ctx true).issueSlice c t n { r with entry := some e }, true)

/-- The context is suspended, or is being suspended: no input of it is issued (R189, R288). -/
def State.ctxHeld (s : State) (x : Nat) : Bool := s.isSet (R.dspCxCtrl x) F.dspCxCtrlSuspend

/-- The first queued input whose context is not held, and the queue without it. -/
def State.nextInput (s : State) : List TileIn → Option (TileIn × List TileIn)
  | [] => none
  | i :: rest =>
    if s.ctxHeld i.ctx then (s.nextInput rest).map (fun e => (e.1, i :: e.2)) else some (i, rest)

/-- The head of the tile's queue becomes the input that it issues (R58). -/
def State.startInput (s : State) (c t : Nat) : State × Option (Nat × InRun) :=
  let x := s.tile c t
  match x.started with
  | some e => (s, if s.ctxHeld e.2.inp.ctx then none else some e)
  | none =>
    match s.nextInput x.q with
    | none => (s, none)
    | some (i, rest) =>
      let n := s.mc.nextRun
      let r : InRun := { inp := i, entry := none, step := s.tileStep c t, next := 0, left := if i.two then 2 else 1,
                         maxU := 0, ovr := false, sat := false, loud := false }
      let s : State := { s with mc := { s.mc with nextRun := n + 1 } }
      (s.setTile c t { x with q := rest, runs := x.runs.put n r }, some (n, r))

/-- One tile at a boundary (R44, R55, R135): a forced gap, no slice ready, a cycle that the throttle withholds, or an issue.
The second part tells whether a slice was issued. -/
def State.tileBoundary (s : State) (c t : Nat) (open_ room : Bool) : State × Bool :=
  let x := s.tile c t
  if x.forced then
    let x := { (x.gap s.pwr.cycle).serve with forced := false }
    ((s.setTile c t x).count (R.calForcedGaps c), false)
  else if !open_ || !s.tileIssues c t then (s.setTile c t (x.gap s.pwr.cycle).serve, false)
  else
    match s.startInput c t with
    | (s, none) => (s.setTile c t (x.gap s.pwr.cycle).serve, false)
    | (s, some (n, r)) => s.tryIssue c t n r room

/-- Insert a tile by priority (R385): second slices first, then the earlier deadline; equal ones stay in order. -/
def insertTile (s : State) (c : Nat) (t : Nat) : List Nat → List Nat
  | [] => [t]
  | u :: us =>
    let second := fun (v : Nat) => (s.tile c v).started.any (fun e => decide (0 < e.2.next))
    let dl := fun (v : Nat) =>
      match (s.tile c v).started with
      | some e => s.tokenDeadline e.2.inp.token
      | none => match (s.tile c v).q with | i :: _ => s.tokenDeadline i.token | [] => 0
    if second u && !second t then u :: insertTile s c t us
    else if second t && !second u then t :: u :: us
    else if Pos.atOrAfter (dl t) (dl u) then u :: insertTile s c t us
    else t :: u :: us

/-- The tiles of core `c` in the order of R385, those with nothing to issue among them. -/
def State.issueOrder (s : State) (c : Nat) : List Nat :=
  let live := (List.range 68).filter (fun t =>
    let st := s.tileState c t
    st == 2 || st == 3 || st == 6 || (st != 0 && st != 5 && !(s.tile c t).waiting.isEmpty))
  let busy := live.filter (fun t => (s.tile c t).started.isSome || !(s.tile c t).q.isEmpty)
  let idle := live.filter (fun t => !((s.tile c t).started.isSome || !(s.tile c t).q.isEmpty))
  idle ++ busy.foldl (fun l t => insertTile s c t l) []

/-- slew_step in force (R385, R386). -/
def State.slewStep (s : State) : Nat :=
  let n := s.getF R.pwrSlew F.pwrSlewValue
  if s.pwr.cutAt.isSome then max 1 (n / 4) else n

/-- Divider of the throttle level in force (R390). -/
def State.divider (s : State) : Nat :=
  match s.getF R.thmLevel F.thmLevelLevel with
  | 0 => 1
  | 1 => 2
  | _ => 4

/-- Entries that wait on the mesh are written as entries come free (R176). -/
def State.meshRetry (s : State) : State :=
  s.mc.meshWait.foldl
    (fun s w =>
      match s.allocAcc w.1 w.2 with
      | (s, some _) => s
      | (s, none) => { s with mc := { s.mc with meshWait := s.mc.meshWait ++ [w] } })
    { s with mc := { s.mc with meshWait := [] } }

/-- An MVM-cycle boundary (R42, R55, R385, R390). DEDUCED, assumption 87. -/
def State.mvmBoundary (s : State) : State :=
  let s := s.meshRetry
  let open_ := s.pwr.cycle % s.divider == 0
  let allow := min 1088 (s.pwr.issued + s.slewStep)
  let cores := (List.range 16).map (fun i => (s.pwr.cycle + i) % 16)
  let work := cores.flatMap (fun c => (s.issueOrder c).map (fun t => (c, t)))
  let (s, n) := work.foldl
    (fun (a : State × Nat) (w : Nat × Nat) =>
      let (s, issued) := a.1.tileBoundary w.1 w.2 open_ (decide (a.2 < allow))
      (s, a.2 + b2n issued)) (s, 0)
  { s with pwr := { s.pwr with cycle := s.pwr.cycle + 1, issued := n } }

end Sys2Proof.Machine
end

