-- ==== Sys2Proof/Machine/VecUnit.lean ====
section
/-! DEFINITION. The vector units and state engines: scratchpad, ranging, combine, epilogue, row-wise operations, top-k,
key-value encoding and attention (R158 to R166, R175 to R187, R250 to R253). -/

namespace Sys2Proof.Machine

/-! ### Scratchpad and status -/

/-- Key of scratchpad byte `off` of core `c`. -/
def padKey (c off : Nat) : Nat := 2 ^ 24 * c + off

/-- Write bytes into the scratchpad of core `c` at offset `off` (6 MiB, R273). -/
def State.padWrite (s : State) (c off : Nat) (bs : Bytes) : State :=
  let bs := bs.take (6 * 2 ^ 20 - off)
  { s with mc := { s.mc with scratch := s.mc.scratch.setRun 0 (padKey c off) bs } }

/-- Read `n` bytes of the scratchpad of core `c`. DESIGN CHOICE, assumption 12. -/
def State.padRead (s : State) (c off n : Nat) : Bytes := s.mc.scratch.getRun 0 (padKey c off) n

/-- One narrowing event of core `c`'s vector unit (R168). -/
def State.vecEvent (s : State) (c : Nat) (e : QEvent) : State :=
  match e with
  | .intSat => s.raise (R.vecQstatus c) F.vecQstatusIntSat (R.vecIsatEvt c)
  | .fp8Sat => s.raise (R.vecQstatus c) F.vecQstatusFp8Sat (R.vecFsatEvt c)
  | .nanIn => s.raise (R.vecQstatus c) F.vecQstatusNanIn (R.vecNanEvt c)
  | .kvSat => s.raise (R.vecQstatus c) F.vecQstatusKvSat (R.vecKvsatEvt c)
  | .kvUflow => s.raise (R.vecQstatus c) F.vecQstatusKvUflow (R.vecKvufEvt c)
  | .kvNan => s.raise (R.vecQstatus c) F.vecQstatusKvNan (R.vecKvnanEvt c)

/-- The events of a narrowing. -/
def State.vecEvents (s : State) (c : Nat) (es : List QEvent) : State := es.foldl (fun s e => s.vecEvent c e) s

/-- Narrow a vector and write it to scratchpad (R153, R201). -/
def State.padNarrow (s : State) (c off : Nat) (f : Fmt) (xs : List Word) : State :=
  let (bs, ev) := narrowVec f xs
  (s.vecEvents c ev).padWrite c off bs

/-! ### Ranging (R164 to R166) -/

/-- Key of a token's ranged vector at a scratchpad offset. -/
def vecKey (tok off : Nat) : Nat := 2 ^ 24 * tok + off

/-- Range an input vector of a token into scratchpad offset `dst` (R164 to R166). -/
def State.doRange (s : State) (c tok : Nat) (xs : List Word) (int8 : Bool) (dst : Nat) : State :=
  if hasNonFinite xs then
    let s := s.vecEvent c .nanIn
    { s with mc := { s.mc with vecs := s.mc.vecs.put (vecKey tok dst) ⟨0, int8, [], false, true⟩ } }
  else
    let (sx, q, ev) := rangeVec xs int8
    let zero := f32Amax xs == 0
    let s := if zero then s.count (R.vecZeroVec c) else s
    let s := s.vecEvents c ev
    let w := if int8 then 8 else 4
    let s := s.padWrite c dst (leBytes (ceilDiv (q.length * w) 8) (packNat w (q.map (ofInt w))))
    { s with mc := { s.mc with vecs := s.mc.vecs.put (vecKey tok dst) ⟨sx, int8, q, zero, false⟩ } }

/-- The token's ranged vector at a scratchpad offset. -/
def State.rangedVec (s : State) (tok off : Nat) : Option VecIn := s.mc.vecs.get? (vecKey tok off)

/-! ### Combine and epilogue (R173, R175, R181 to R183) -/

/-- Sum of two partial vectors. -/
def addVals : List Int → List Int → List Int
  | x :: xs, y :: ys => (x + y) :: addVals xs ys
  | xs, [] => xs
  | [], ys => ys

/-- Every entry of a reduction is present and complete. -/
def State.entriesReady (s : State) (c : Nat) (es : List Nat) : Bool :=
  es.all (fun e => match s.accEntry c e with | some x => x.st == 2 | none => false)

/-- The entry of the lowest source core and tile. -/
def State.lowestEntry (s : State) (c : Nat) : List Nat → Option Nat
  | [] => none
  | e :: es =>
    match s.lowestEntry c es with
    | none => some e
    | some f =>
      let key := fun i => match s.accEntry c i with | some x => tileKey x.core x.tile | none => 0
      if key e ≤ key f then some e else some f

/-- Combine the entries of one reduction (R175). -/
def State.doCombine (s : State) (c ctx : Nat) (es : List Nat) : State :=
  match s.lowestEntry c es with
  | none => s
  | some low =>
    let xs := es.filterMap (fun e => s.accEntry c e)
    let tags := xs.map (·.sx)
    let same := tags.all (fun t => t == tags.headD 0)
    let s := (es.filter (· != low)).foldl (fun s e => s.freeAcc c e) s
    if same then
      let vals := xs.foldl (fun v x => addVals v x.vals) []
      let sat := xs.any (·.sat)
      s.modAcc c low (fun x => { x with vals := vals, sat := sat })
    else
      (s.modAcc c low (fun x => { x with nan := true })).report (Src.ctx ctx) E.dspAccTagMismatch (Rep.fw 1)

/-- One column of the epilogue (R181, R182). -/
def epiCol (sx : Nat) (nan : Bool) (act : Nat) (y : Option Int) (col : EpiCol) : Word :=
  let v : Word := match y with
    | none => 0
    | some y => if col.null then 0 else f32Mul (f32OfInt y) (f32Mul (f16to32 col.scale.toNat) (f16to32 sx))
  let z := if nan then canonNaN else if y.isNone then col.bias else f32Add v col.bias
  activate act z

/-- The epilogue over a block's columns: `entry` none for a token with a zero vector (R182). The entry returns to free. -/
def State.doEpilogue (s : State) (c : Nat) (entry : Option Nat) (nanIn : Bool) (cols : List EpiCol) (act : Nat) (f : Fmt)
    (dst : Nat) : State :=
  match entry with
  | none => s.padNarrow c dst f (cols.map (epiCol 0 nanIn act none))
  | some e =>
    match s.accEntry c e with
    | none => s
    | some x =>
      let out := cols.zipIdx.map (fun (k, i) => epiCol x.sx (nanIn || x.nan) act (some (x.vals.getD i 0)) k)
      (s.freeAcc c e).padNarrow c dst f out

/-! ### Mesh arrival (R176, R177) -/

/-- An entry header of R169 read from its 64 bits. -/
def hdrEntry (h : Nat) (vals : List Int) : AccEntry :=
  { sx := h % 65536, ncol := h / 2 ^ 16 % 512, two := bit h 25, done := h / 2 ^ 26 % 4, st := h / 2 ^ 28 % 4, sat := bit h 30,
    moved := bit h 31, ctx := h / 2 ^ 32 % 64, gen := h / 2 ^ 38 % 16, tile := h / 2 ^ 42 % 128, core := h / 2 ^ 49 % 16,
    token := 0, nan := false, vals := vals }

/-- The 64 bits of an entry's header (R169). -/
def AccEntry.header (x : AccEntry) : Nat :=
  x.sx + 2 ^ 16 * x.ncol + 2 ^ 25 * b2n x.two + 2 ^ 26 * x.done + 2 ^ 28 * x.st + 2 ^ 30 * b2n x.sat + 2 ^ 31 * b2n x.moved
    + 2 ^ 32 * x.ctx + 2 ^ 38 * x.gen + 2 ^ 42 * x.tile + 2 ^ 49 * x.core

/-- The entry of the source core that an arriving header names. -/
def State.meshSource (s : State) (x : AccEntry) : Option (Nat × AccEntry) :=
  (s.accOf x.core).find? (fun e => e.2.tile == x.tile && e.2.ctx == x.ctx && e.2.gen == x.gen && e.2.sx == x.sx
    && e.2.st == 2 && !e.2.moved)

/-- An entry arrives over the core mesh (R176, R177); the source core's entry has been read out. -/
def State.meshArrive (s : State) (c h : Nat) (vals : List Int) : State :=
  let x := hdrEntry h vals
  let src := s.meshSource x
  let s := match src with | some (e, _) => s.freeAcc x.core e | none => s
  if s.genOk x.ctx x.gen then
    let tok := match src with | some (_, y) => y.token | none => 0
    let x := { x with moved := true, token := tok, vals := (List.range 512).map (fun i => vals.getD i 0) }
    match s.allocAcc c x with
    | (s, some _) => s
    | (s, none) =>
      ({ s with mc := { s.mc with meshWait := s.mc.meshWait ++ [(c, x)] } } : State).raise (R.accStatus c)
        F.accStatusAllocWait (R.accWaitEvt c)
  else
    let s := s.raise (R.accStatus c) F.accStatusStale (R.accStaleEvt c)
    s.raise R.dspStatus F.dspStatusStale R.dspStaleEvt

/-! ### Key-value groups (R158, R159, R238) -/

/-- The s2 pair of a head at a state layer; 0 where none has been set (R249). -/
def Folio.s2Of (f : Folio) (l h : Nat) : Nat × Nat := f.s2.getD (16 * l + h) (0, 0)

/-- Encode one group and count its events (R159, R168). -/
def State.kvGroup (s : State) (c : Nat) (b3 : Bool) (s2 : Nat) (g : List Word) : State × Nat × Bytes :=
  let (s1, codes, ev) := kvEncode b3 s2 g
  ((s.vecEvents c ev).count (R.vecKvGroups c), s1, kvBytes b3 codes)

/-- Set the second-level scales of the named heads at a layer whose n_l is 0, or that have none yet (R158, R249). -/
def setS2 (f : Folio) (l : Nat) (heads : List (Nat × KvGroup × KvGroup)) : Folio :=
  heads.foldl
    (fun f e =>
      if f.nl.getD l 0 = 0 || (f.s2Of l e.1 == (0, 0)) then
        { f with s2 := f.s2.put (16 * l + e.1) (s2Of e.2.1, s2Of e.2.2) }
      else f) f

/-- The bytes of one entry at state layer `l` (R238), every head that is not named a zero group. -/
def State.kvEntry (s : State) (c : Nat) (f : Folio) (l heads : Nat) (b3 : Bool) (gs : List (Nat × KvGroup × KvGroup)) :
    State × Bytes :=
  let n := if b3 then 24 else 32
  let init : State × List Bytes × List Nat × List Bytes × List Nat := (s, [], [], [], [])
  let (s, kc, ks, vc, vs) := (List.range heads).foldl
    (fun a h =>
      match gs.find? (fun e => e.1 == h) with
      | none => (a.1, a.2.1 ++ [leBytes n 0], a.2.2.1 ++ [0], a.2.2.2.1 ++ [leBytes n 0], a.2.2.2.2 ++ [0])
      | some (_, k, v) =>
        let (s2k, s2v) := f.s2Of l h
        let (s, k1, kb) := a.1.kvGroup c b3 s2k k
        let (s, v1, vb) := s.kvGroup c b3 s2v v
        (s, a.2.1 ++ [kb], a.2.2.1 ++ [k1], a.2.2.2.1 ++ [vb], a.2.2.2.2 ++ [v1])) init
  (s, kc.flatten ++ ks.flatMap (leBytes 1) ++ vc.flatten ++ vs.flatMap (leBytes 1))

/-! ### Attention (R250 to R253) -/

/-- FP32 sum of a word and an exact dyadic value, rounded once. -/
def f32AddDy (a : Word) (neg : Bool) (m : Nat) (e : Int) : Word :=
  match f32 a with
  | .fin na ma ea =>
    let u := min ea e
    let t := dyInt na ma ea u + dyInt neg m e u
    if t = 0 then toF32 (.fin (na && neg) 0 u) else toF32 (.fin (decide (t < 0)) t.natAbs u)
  | _ => a

/-- Multiply a word by 2^k, rounded once. -/
def f32Scale (a : Word) (k : Int) : Word :=
  match f32 a with
  | .fin n m e => toF32 (.fin n m (e + k))
  | _ => a

/-- Floor of a finite word, 0 for one that is not. -/
def f32Floor (w : Word) : Int :=
  match f32 w with
  | .fin neg m e =>
    let n : Int := if neg then -(m : Int) else m
    if 0 ≤ e then n * 2 ^ e.toNat else n / 2 ^ (-e).toNat
  | _ => 0

/-- Ceiling of a finite word. -/
def f32Ceil (w : Word) : Int := -f32Floor (f32Negate w)

/-- The fixed approximation of 2^x, within 1 ulp of the exact value (R251). -/
def exp2Approx (x : Word) : Word :=
  let fx := match f32 x with | .fin neg m e => toFx neg m e | _ => 0
  let r := expQ (fx * fxLn2 / fxOne)
  let p := Config.exp2 x
  if f32Finite p && Ratio.within (ratioOf p) r (ulpsAt 1 r) then p else r.round

/-- The weight of a position: p rounded to 4 significant bits, 0 below 2^−31, as a dyadic value (R251). -/
def attWeight (t : Word) (kNew : Int) : Nat × Int :=
  let fl := f32Floor t
  let x := f32Add t (f32OfInt (-fl))
  match f32 (exp2Approx x) with
  | .fin _ m e =>
    let e := e + fl - kNew
    if m = 0 ∨ floorLog2Q (max m 1) 1 + e < -31 then (0, 0)
    else roundPos 3 (-1000) m 1 e
  | _ => (0, 0)

/-- One position as the engine fetched it: key scale and numerators, value scale and numerators. -/
structure AttIn where
  s1k : Nat
  k : List Int
  s1v : Nat
  v : List Int
  deriving DecidableEq, Repr

/-- The codes of a stored group. -/
def kvCodes (b3 : Bool) (bs : Bytes) : List Nat :=
  let n := leNat bs
  (List.range 64).map (fun i => if b3 then n / 8 ^ i % 8 else n / 16 ^ i % 16)

/-- Read one position's groups of head `h` at state layer `l` (R238, R255). -/
def State.attFetch (s : State) (f : Folio) (l heads : Nat) (b3 : Bool) (p h : Nat) : AttIn :=
  let c := if b3 then 24 else 32
  let o := f.entryOff p l
  let one := fun x => leNat (s.folioRead f x 1)
  { s1k := one (o + c * heads + h), k := (kvCodes b3 (s.folioRead f (o + c * h) c)).map (gridNum b3),
    s1v := one (o + (2 * c + 1) * heads + h),
    v := (kvCodes b3 (s.folioRead f (o + (c + 1) * heads + c * h) c)).map (gridNum b3) }

/-- `s8(s1) · s2 / 16384` as an exact dyadic value (R160). -/
def kvScale (s1 s2 : Nat) : Nat × Int :=
  let (m, e) := s8Val s1
  match fpDecode 5 10 s2 with
  | .fin _ m2 e2 => (m * m2, e + e2 - 14)
  | _ => (0, 0)

/-- A row's running state: k_ref (none for −∞), l and o (R210, R251). -/
structure AttRun where
  kref : Option Int
  l : Word
  o : List Word
  deriving DecidableEq, Repr

/-- One L1 tile of positions, each with its score, none where masked (R251). -/
def attTile (s2v : Nat) (r : AttRun) (ps : List (AttIn × Option Word)) : AttRun :=
  let top := ps.foldl (fun (m : Option Int) p =>
    match p.2, m with
    | some t, some k => some (max k (f32Ceil t))
    | some t, none => some (f32Ceil t)
    | none, _ => m) none
  match top with
  | none => r
  | some c =>
    let kNew := match r.kref with | some k => max k c | none => c
    let r := match r.kref with
      | some k => { r with l := f32Scale r.l (k - kNew), o := r.o.map (fun x => f32Scale x (k - kNew)) }
      | none => { r with l := 0, o := r.o.map (fun _ => 0) }
    let r := ps.foldl
      (fun r p =>
        match p.2 with
        | none => r
        | some t =>
          let (wm, we) := attWeight t kNew
          let (cm, ce) := kvScale p.1.s1v s2v
          { r with l := f32AddDy r.l false wm we,
                   o := (r.o.zip p.1.v).map (fun (x, v) => f32AddDy x (decide (v < 0)) (wm * v.natAbs * cm) (we + ce)) }) r
    { r with kref := some kNew }

/-- Exact integer dot product. -/
def dotInt : List Int → List Int → Int
  | x :: xs, y :: ys => x * y + dotInt xs ys
  | _, _ => 0

/-- The score of a position (R251). -/
def attScore (q : List Int) (c1 : Word) (s2k : Nat) (a : AttIn) : Word :=
  let (m, e) := kvScale a.s1k s2k
  f32Mul (f32Mul (f32OfInt (dotInt q a.k)) c1) (toF32 (.fin false m e))

/-- log2(e) as the pseudocode of R251 writes it, in FP32. -/
def log2eWord : Word := Ratio.round (14426950409, 10000000000)

/-- Attention of one query row over the positions, in L1 tiles of `tN` (R251). `masked` tells the positions left out. -/
def attRow (q : List Word) (sigma : Word) (s2k s2v tN : Nat) (masked : Nat → Bool) (ps : List AttIn) : List Word :=
  if hasNonFinite q then List.replicate 64 canonNaN
  else
    let (sq, qi, _) := rangeVec q true
    let c1 := f32Mul (f32Mul (f16to32 sq) sigma) log2eWord
    let scored := ps.zipIdx.map (fun (a, j) => (a, if masked j then none else some (attScore qi c1 s2k a)))
    let r := (chunks (max tN 1) (scored.length + 1) scored).foldl (attTile s2v) ⟨none, 0, List.replicate 64 0⟩
    if fpCmp (f32 r.l) (f32 0) > 0 then r.o.map (fun x => f32Div x r.l) else List.replicate 64 0

end Sys2Proof.Machine
end

