-- ==== Sys2Proof/Machine/Dispatcher.lean ====
section
/-! DEFINITION. The dispatcher: catalogue lookup, copy choice, instances and tokens, ready queues, gathering, contexts and
teardown (R205, R215, R254, R270 to R294). -/

namespace Sys2Proof.Machine

/-! ### Catalogues and places (R203 to R205, R271, R280) -/

/-- The package of context `x`. -/
def State.ctxPkg (s : State) (x : Nat) : Option Pkg := s.dsp.pkgs.get? (s.getF (R.dspCxState x) F.dspCxStatePackage)

/-- The catalogue of context `x`. -/
def State.ctxCat (s : State) (x : Nat) : Option Catalogue :=
  match s.ctxPkg x with
  | some p => p.cats[s.getF (R.dspCxState x) F.dspCxStateCatalogue]?
  | none => none

/-- Task `i` of context `x`. -/
def State.taskOf (s : State) (x i : Nat) : Option TaskRec :=
  match s.ctxCat x with
  | some c => c.tasks[i]?
  | none => none

/-- Layer `k` of context `x`'s package. -/
def State.layerOf (s : State) (x k : Nat) : Option Layer :=
  match s.ctxPkg x with
  | some p => p.dir.layers.find? (fun l => l.index == k)
  | none => none

/-- The physical tile (128 × core + tile) of logical tile `l` of context `x`'s package: its home, or where a substitution or
a repair has put it (R99, R103). -/
def State.placeOf (s : State) (x l : Nat) : Nat :=
  match s.dsp.place.get? l with
  | some p => p
  | none =>
    match s.ctxPkg x with
    | some p => let h := p.dir.homes.getD l (0, 0); tileKey h.1 h.2
    | none => 0

/-- A physical tile serves inputs: CAL or BELOW (R205). -/
def State.physLive (s : State) (p : Nat) : Bool :=
  s.tileState (p / 128) (p % 128) == 2 || s.tileState (p / 128) (p % 128) == 3

/-- A copy is eligible while every one of its tiles is in CAL or BELOW (R205). -/
def State.copyOk (s : State) (x : Nat) (copy : List Nat) : Bool := copy.all (fun l => s.physLive (s.placeOf x l))

/-- Position of `a` in a list. -/
def indexOf (a : Nat) : List Nat → Nat
  | [] => 0
  | b :: bs => if a = b then 0 else indexOf a bs + 1

/-- The logical tile of copy `k` of a layer that corresponds to tile `a` of copy 0 (R271, R280). -/
def Layer.anchorIn (l : Layer) (k a : Nat) : Nat := (l.copies.getD k []).getD (indexOf a (l.copies.getD 0 [])) a

/-- Inputs queued or in flight on a physical tile (R280). -/
def State.tileLoad (s : State) (p : Nat) : Nat :=
  let x := s.tile (p / 128) (p % 128)
  x.q.length + x.runs.length

/-- The eligible copy whose anchor tile has the fewest inputs, the lowest index on a tie (R280). -/
def State.bestCopy (s : State) (x : Nat) (l : Layer) (a : Nat) : Option Nat :=
  ((l.copies.zipIdx.filter (fun e => !s.dsp.dropped.contains (l.index, e.2) && s.copyOk x e.1)).foldl
    (fun (m : Option (Nat × Nat)) e =>
      let n := s.tileLoad (s.placeOf x (l.anchorIn e.2 a))
      match m with
      | none => some (n, e.2)
      | some (n0, k0) => if n < n0 then some (n, e.2) else some (n0, k0)) none).map (·.2)

/-- The copy that token `k` uses of layer `l`. -/
def Token.copyOf (k : Token) (l : Nat) : Nat := k.copies.getD l 0

/-- The physical tile that names the core of task `t` for token `k` (R271, R280). -/
def State.anchorTile (s : State) (k : Token) (t : TaskRec) : Nat :=
  match s.layerOf k.ctx t.layer with
  | some l => s.placeOf k.ctx (l.anchorIn (k.copyOf t.layer) t.anchor)
  | none => s.placeOf k.ctx t.anchor

/-- The state op of a STATE task in the copy that the token uses (R216, R283): its index and record. -/
def State.opOf (s : State) (k : Token) (t : TaskRec) : Option (Nat × StateOp) :=
  match s.ctxCat k.ctx with
  | none => none
  | some c =>
    let i := t.kf.getD 0 0
    match c.ops[i]? with
    | none => none
    | some op =>
      match c.ops.zipIdx.find? (fun e => e.1.layer == op.layer && e.1.copy == k.copyOf t.layer) with
      | some (o, j) => some (j, o)
      | none => some (i, op)

/-- The engine that runs a task (R272, R400): 0 fetch, 1 tile-issue, 2 vector, 3 state, 4 store. -/
def engineOf (t : TaskRec) : Nat :=
  match t.kind with
  | 1 => 1
  | 2 => 2
  | 3 => 3
  | 4 => 4
  | 5 => if t.kf.getD 0 0 = 0 then 0 else 4
  | _ => 2

/-- The state layers of a catalogue: the distinct layers with a state op, in ascending order (R236). -/
def Catalogue.stateLayers (c : Catalogue) : List Nat :=
  (c.ops.map (·.layer)).foldl
    (fun l k => (l.filter (fun j => decide (j < k))) ++ [k] ++ (l.filter (fun j => decide (k < j)))) []

/-- Index of a layer among the state layers (R236). -/
def Catalogue.stateIndex (c : Catalogue) (k : Nat) : Nat := indexOf k c.stateLayers

/-! ### Instances (R275) -/

/-- Instance `i`. -/
def State.inst (s : State) (i : Nat) : Option Inst := s.dsp.insts.get? i

/-- The state with instance `i` holding `x`. -/
def State.setInst (s : State) (i : Nat) (x : Inst) : State :=
  { s with dsp := { s.dsp with insts := s.dsp.insts.put i x } }

/-- Token `n`. -/
def State.token (s : State) (n : Nat) : Option Token := s.dsp.tokens.get? n

/-- The state with token `n` holding `k`. -/
def State.setToken (s : State) (n : Nat) (k : Token) : State :=
  { s with dsp := { s.dsp with tokens := s.dsp.tokens.put n k } }

/-- The task of an instance. -/
def State.instTask (s : State) (x : Inst) : Option TaskRec := s.taskOf x.ctx x.task

/-- The instances of context `x`. -/
def State.ctxInsts (s : State) (x : Nat) : List (Nat × Inst) := s.dsp.insts.filter (fun e => e.2.ctx == x)

/-- A context whose last instance is complete leaves DRAINING for LOADED (R287). -/
def State.drained (s : State) (x : Nat) : State :=
  if s.ctxState x == 3 && (s.ctxInsts x).isEmpty then s.setF (R.dspCxState x) F.dspCxStateState 1 else s

/-- Pool and per-context counts follow the instances (DSP_INST, DSP_CX_INFLIGHT), for context `x`. -/
def State.syncInst (s : State) (x : Nat) : State :=
  let n := s.dsp.insts.length
  let s := s.setF R.dspInst F.dspInstInUse n
  let s := s.setF R.dspInst F.dspInstHighWater (max n (s.getF R.dspInst F.dspInstHighWater))
  let own := s.ctxInsts x
  let toks := (s.dsp.tokens.filter (fun e => e.2.ctx == x && own.any (fun i => i.2.token == e.1))).length
  let s := s.setF (R.dspCxInflight x) F.dspCxInflightInstances own.length
  (s.setF (R.dspCxInflight x) F.dspCxInflightTokens toks).drained x

/-- A token with no instance left is dropped, with its ranged vectors. -/
def State.dropToken (s : State) (n : Nat) : State :=
  if s.dsp.insts.any (fun e => e.2.token == n) then s
  else
    let s : State := { s with dsp := { s.dsp with tokens := s.dsp.tokens.del n } }
    { s with mc := { s.mc with vecs := s.mc.vecs.filter (fun e => e.1 / 2 ^ 24 != n) } }

/-- Remove instance `i` from the pool and from its gather. -/
def State.removeInst (s : State) (i : Nat) : State :=
  let gs := s.dsp.gathers.map (fun e => (e.1, { e.2 with members := e.2.members.filter (· != i) }))
  let s : State := { s with dsp := { s.dsp with insts := s.dsp.insts.del i, gathers := gs } }
  { s with stk := { s.stk with fetchWait := s.stk.fetchWait.filter (fun r => r.kind != .fetch i) } }

/-- The successors' counters fall by one (R276). -/
def State.dropDeps (s : State) (x : Inst) : State :=
  match s.instTask x with
  | none => s
  | some t =>
    { s with dsp := { s.dsp with insts := s.dsp.insts.map (fun e =>
        if e.2.token = x.token && t.succs.contains e.2.task then (e.1, { e.2 with deps := e.2.deps - 1 }) else e) } }

/-- An instance is complete, skipped or cancelled: it counts as complete for its successors (R276). -/
def State.finishInst (s : State) (i : Nat) : State :=
  match s.inst i with
  | none => s
  | some x => (s.dropDeps x).removeInst i

/-- Inputs of a token that no tile has begun are dropped from the queues, and complete entries that it holds are freed. -/
def State.dropInputs (s : State) (p : Nat → Bool) : State :=
  let s : State := { s with mc := { s.mc with tiles := s.mc.tiles.map (fun e =>
    (e.1, { e.2 with q := e.2.q.filter (fun i => !p i.token) })) } }
  let gone := s.mc.acc.filter (fun e => p e.2.token && e.2.st == 2)
  gone.foldl (fun s e => s.freeAcc (e.1 / 1024) (e.1 % 1024)) s

/-- The object of a token is marked defaulted (R281, R285). -/
def State.markToken (s : State) (k : Token) : State :=
  match k.call with
  | some c =>
    let d := if s.dsp.defaulted.contains c then s.dsp.defaulted else s.dsp.defaulted ++ [c]
    ({ s with dsp := { s.dsp with defaulted := d } } : State).markCall c
  | none => s

/-- The remaining instances of token `n` are cancelled (R277, R281, R285). -/
def State.cancelToken (s : State) (n : Nat) : State :=
  match s.token n with
  | none => s
  | some k =>
    let own := (s.dsp.insts.filter (fun e => e.2.token == n)).map (·.1)
    let s := own.foldl State.removeInst s
    ((s.dropInputs (· == n)).dropToken n).syncInst k.ctx

/-! ### Readiness (R276, R280, R283) -/

/-- What a waiting instance whose counter is zero does next. -/
inductive Readiness where
  | wait
  | skip
  | go
  deriving DecidableEq, Repr

/-- A task flag (R271): 0 needs_call, 1 obj_serial, 2 copy_anchor, 3 on_close, 4 skip_if_defaulted. -/
def TaskRec.flag (t : TaskRec) (i : Nat) : Bool := bit t.flags i

/-- Judge a waiting instance (R276). -/
def State.judge (s : State) (x : Inst) (t : TaskRec) (k : Token) : Readiness :=
  let dead := match k.call with | some c => s.dsp.defaulted.contains c | none => false
  let serial := match k.prev with
    | some p => s.dsp.insts.any (fun e => e.2.token == p && e.2.task == x.task)
    | none => false
  if t.flag 4 && dead then .skip
  else if t.flag 3 && k.tracked == 1 then .skip
  else if t.flag 3 && k.tracked == 0 then .wait
  else if t.flag 0 && k.call.isNone then .wait
  else if t.flag 1 && (k.call.isNone || serial) then .wait
  else .go

/-- The members of a gather that name call number `c`. -/
def State.rowsOf (s : State) (g : Gather) (c : Nat) : Nat :=
  (g.members.filter (fun i => match s.inst i with
    | some x => match s.token x.token with | some k => k.call == some c | none => false
    | none => false)).length

/-- The distinct call numbers of a gather, in order of joining (R283). -/
def State.callsOf (s : State) (g : Gather) : List Nat :=
  (g.members.filterMap (fun i => match s.inst i with
    | some x => match s.token x.token with | some k => k.call | none => none
    | none => none)).foldl (fun l c => if l.contains c then l else l ++ [c]) []

/-- The members of gather `g` become ready as one task on the op's core (R283). -/
def State.closeGather (s : State) (g : Nat) : State :=
  match s.dsp.gathers.get? g with
  | none => s
  | some ga =>
    let op := match s.ctxCat ga.ctx with | some c => c.ops[ga.op]? | none => none
    let core := match op with | some o => s.placeOf ga.ctx o.home / 128 | none => 0
    let s : State := { s with dsp := { s.dsp with gathers := s.dsp.gathers.put g { ga with closed := true } } }
    ga.members.foldl
      (fun s i => match s.inst i with
        | some x =>
          let q := s.dsp.seq
          ({ s with dsp := { s.dsp with seq := q + 1 } } : State).setInst i
            { x with st := .ready, core := core, engine := 3, seq := q, group := g }
        | none => s) s

/-- A STATE instance gathers with others of its op and copy (R283): it joins the open task that has room for it. -/
def State.gatherInst (s : State) (i : Nat) (x : Inst) (t : TaskRec) (k : Token) : State :=
  match s.opOf k t with
  | none => s.finishInst i
  | some (oi, op) =>
    let copy := k.copyOf t.layer
    let call := k.call.getD 0
    let s := s.setInst i { x with st := .gathering, since := s.timeUs }
    let room := fun (e : Nat × Gather) =>
      !e.2.closed && e.2.ctx == k.ctx && e.2.op == oi && e.2.copy == copy && decide (s.rowsOf e.2 call < op.rows)
    let (s, g) := match s.dsp.gathers.find? room with
      | some (g, ga) =>
        (({ s with dsp := { s.dsp with gathers := s.dsp.gathers.put g { ga with members := ga.members ++ [i] } } } : State), g)
      | none =>
        let g := s.dsp.nextGather
        (({ s with dsp := { s.dsp with gathers := s.dsp.gathers.put g ⟨k.ctx, oi, copy, [i], s.timeUs, false⟩,
                                       nextGather := g + 1 } } : State), g)
    match s.dsp.gathers.get? g with
    | some ga => if op.batchBuckets.foldl max 1 ≤ (s.callsOf ga).length then s.closeGather g else s
    | none => s

/-- An instance becomes ready on its engine (R278). SYNC completes at once, DECIDE runs on the dispatcher (R272). -/
def State.makeReady (s : State) (i : Nat) (x : Inst) (t : TaskRec) (k : Token) : State :=
  match t.kind with
  | 3 => s.gatherInst i x t k
  | 6 => s.finishInst i
  | 7 => s.setInst i { x with st := .running, since := s.timeUs }
  | _ =>
    let q := s.dsp.seq
    ({ s with dsp := { s.dsp with seq := q + 1 } } : State).setInst i
      { x with st := .ready, core := s.anchorTile k t / 128, engine := engineOf t, seq := q }

/-- No copy is eligible (R281). -/
def State.noCopy (s : State) (n : Nat) (k : Token) : State :=
  let s := s.raise R.dspStatus F.dspStatusNoCopy R.dspNocopyEvt
  let s := (s.report (Src.ctx k.ctx) E.dspNoCopy Rep.dispatcher).markToken k
  s.cancelToken n

/-- An instance whose conditions hold: the copy choice comes first (R280). -/
def State.advance (s : State) (i : Nat) (x : Inst) (t : TaskRec) (n : Nat) (k : Token) : State :=
  if t.flag 2 && (k.copies.get? t.layer).isNone then
    match s.layerOf k.ctx t.layer with
    | none => s.makeReady i x t k
    | some l =>
      match s.bestCopy k.ctx l t.anchor with
      | none => s.noCopy n k
      | some c =>
        let k := { k with copies := k.copies.put t.layer c }
        (s.setToken n k).makeReady i x t k
  else s.makeReady i x t k

/-- The first waiting instance that can move on. -/
def State.movable (s : State) : List (Nat × Inst) → Option (Nat × Inst × TaskRec × Token × Readiness)
  | [] => none
  | (i, x) :: rest =>
    if x.st = .waiting && x.deps == 0 && s.genOk x.ctx x.gen then
      match s.instTask x, s.token x.token with
      | some t, some k =>
        match s.judge x t k with
        | .wait => s.movable rest
        | r => some (i, x, t, k, r)
      | _, _ => s.movable rest
    else s.movable rest

/-- Readiness spreads until no waiting instance can move on (R276). -/
def State.settleGo : Nat → State → State
  | 0, s => s
  | fuel + 1, s =>
    match s.movable s.dsp.insts with
    | none => s
    | some (i, x, t, k, r) =>
      State.settleGo fuel (match r with
        | .skip => s.finishInst i
        | _ => s.advance i x t x.token k)

/-- Readiness after a completion or a change of a token of context `x`. -/
def State.settle (s : State) (x : Nat) : State :=
  let s := State.settleGo (2 * s.dsp.insts.length + 1) s
  let done := (s.dsp.tokens.filter (fun e => e.2.ctx == x)).map (·.1)
  (done.foldl State.dropToken s).syncInst x

/-- Instance `i` completes normally (R276). -/
def State.complete (s : State) (i : Nat) : State :=
  match s.inst i with
  | none => s
  | some x => (s.finishInst i).settle x.ctx

/-- Tokens whose chosen copy has lost eligibility before their last task of that layer are cancelled and their objects
defaulted (R102, R281). -/
def State.dropLostCopies (s : State) : State :=
  let lost := s.dsp.tokens.filter (fun e =>
    e.2.copies.any (fun c =>
      (match s.layerOf e.2.ctx c.1 with
        | some l => s.dsp.dropped.contains (l.index, c.2) || !s.copyOk e.2.ctx (l.copies.getD c.2 [])
        | none => false)
      && s.dsp.insts.any (fun i => i.2.token == e.1 && (match s.instTask i.2 with | some t => t.layer == c.1 | none => false))))
  lost.foldl (fun s e => ((s.markToken e.2).cancelToken e.1).settle e.2.ctx) s

/-! ### Tokens (R275, R276) -/

/-- A strip of lane `l` from head `h` is complete, its last line stamped `stamp`: the instances of one token are created, or
the strip is dropped (R275). `p` is the sensor port. -/
def State.instantiate (s : State) (x l p h : Nat) (stamp : Pos) : State :=
  match s.ctxCat x with
  | none => s
  | some c =>
    if 32768 < s.dsp.insts.length + c.tasks.length then
      (s.raise R.dspStatus F.dspStatusInstFull R.dspFullEvt).report (Src.ctx x) E.dspInstanceFull Rep.dispatcher
    else
      let n := s.dsp.nextToken
      let gen := s.ctxGen x
      let k : Token := { ctx := x, gen := gen, lane := l, head := h, stamp := stamp, call := none, prev := none, tracked := 0,
                         pos := 0, copies := [] }
      let i0 := s.dsp.nextInst
      let mk := fun (e : TaskRec × Nat) =>
        let src := e.1.kind == 0 && e.1.kf.getD 0 0 == p && e.1.kf.getD 1 0 == h
        (i0 + e.2, ({ task := e.2, ctx := x, gen := gen, token := n, deps := e.1.npred,
                      st := if src then .running else .waiting, core := 0, engine := 2, seq := 0, since := s.timeUs,
                      group := 0 } : Inst))
      let new := c.tasks.zipIdx.map mk
      let s : State := { s with dsp := { s.dsp with
        insts := s.dsp.insts ++ new, nextInst := i0 + c.tasks.length, nextToken := n + 1,
        tokens := s.dsp.tokens.put n k } }
      let others := new.filter (fun e => e.2.st == .waiting &&
        (match c.tasks[e.2.task]? with | some t => t.kind == 0 | none => false))
      (others.foldl (fun s e => s.finishInst e.1) s).settle x

/-- The token's object is known (R276): it follows the object's last token. -/
def State.bindToken (s : State) (n : Nat) (k : Token) (call pos : Nat) : State :=
  let k := { k with call := some call, prev := s.dsp.lastToken.get? call, pos := pos }
  let s := s.setToken n k
  { s with dsp := { s.dsp with lastToken := s.dsp.lastToken.put call n } }

/-! ### Release (R278, R279, R282, R254, R255) -/

/-- The engine is fenced (R400). -/
def State.engFenced (s : State) (c e : Nat) : Bool :=
  match s.flt.cores.get? c with
  | some l => bit l.engines e
  | none => false

/-- `a` is released before `b` (R278). -/
def State.before (s : State) (a b : Inst) : Bool :=
  let da := s.tokenDeadline a.token
  let db := s.tokenDeadline b.token
  if da = db then decide (b.task < a.task) || (a.task == b.task && decide (a.seq < b.seq))
  else !Pos.atOrAfter da db

/-- The instance that the ready queue of engine `e` of core `c` releases next. -/
def State.nextReady (s : State) (c e : Nat) : Option (Nat × Inst) :=
  (s.dsp.insts.filter (fun i => i.2.st == .ready && i.2.core == c && i.2.engine == e && !s.ctxHeld i.2.ctx)).foldl
    (fun m i => match m with
      | none => some i
      | some j => if s.before i.2 j.2 then some i else some j) none

/-- The engine runs an instance already; vector, state and store engines run one at a time (R282). -/
def State.engBusy (s : State) (c e : Nat) : Bool :=
  decide (2 ≤ e) && s.dsp.insts.any (fun i => i.2.st == .running && i.2.core == c && i.2.engine == e)

/-- Rows per row block of a matrix (R196, R198). -/
def Mat.rowsPer (m : Mat) : Nat := if m.parts ≤ 1 then 1024 else m.k / m.parts

/-- The logical tile, first row, rows and columns of each block that an MVM task feeds (R196, R198, R199). -/
def mvmBlocks (l : Layer) (copy first r c : Nat) : List (Nat × Nat × Nat × Nat) :=
  let m := (l.mats.find? (fun m => m.first == first)).getD default
  let per := m.rowsPer
  (List.range (r * c)).map (fun b =>
    let t := first + b
    let i := t % (max r 1)
    let j := t / (max r 1)
    ((l.copies.getD copy []).getD t 0, i * per, min per (m.k - i * per), min 512 (m.n - 512 * j)))

/-- The scratchpad core and offset that operand `i` of a task names (R271, R273). -/
def State.operandAt (s : State) (x : Nat) (t : TaskRec) (i : Nat) : Nat × Nat :=
  let r := t.operands.getD i 0xFFFFFFFF
  match s.ctxCat x with
  | some c =>
    match c.bufs[r % 4096]? with
    | some b => (b.core, b.base + r / 65536 * 64)
    | none => (0, 0)
  | none => (0, 0)

/-- An MVM instance released to its tile-issue engine queues its inputs (R205, R282); a vector with amax 0 or with a NaN is
issued to no tile (R165, R166). -/
def State.queueMvm (s : State) (i : Nat) (x : Inst) (t : TaskRec) (k : Token) : State :=
  match s.layerOf k.ctx t.layer, s.rangedVec x.token (s.operandAt x.ctx t 0).2 with
  | some l, some v =>
    if v.zero || v.nan then s
    else
      (mvmBlocks l (k.copyOf t.layer) (t.kf.getD 0 0) (t.kf.getD 1 1) (t.kf.getD 2 1)).foldl
        (fun s b =>
          let p := s.placeOf k.ctx b.1
          let inp : TileIn := { inst := i, token := x.token, ctx := x.ctx, gen := x.gen, sx := v.sx, two := v.two,
                                xs := (v.xs.drop b.2.1).take b.2.2.1, cols := b.2.2.2 }
          let y := s.tile (p / 128) (p % 128)
          s.setTile (p / 128) (p % 128) { y with q := y.q ++ [inp] }) s
  | _, _ => s

/-- A pointer-list entry's call number is live and on a shelf of the context (R215). -/
def State.ptrOk (s : State) (x call : Nat) : Bool := s.live call && s.shelfCtx (callShelf call) == x

/-- The pages of the reads that fetch positions 0 to `n` − 1 of a folio at state layer `l`: one request per 2 KiB granule
(R254). -/
def fetchPages (f : Folio) (l n : Nat) : List Nat :=
  let sz := match f.layout.layers[l]? with | some e => entrySize e | none => 0
  let gs := (List.range n).foldl
    (fun gs p =>
      let a := f.entryOff p l / 2048
      let b := (f.entryOff p l + sz - 1) / 2048
      gs ++ ((List.range (b + 1 - a)).map (a + ·)).filter (fun g => !gs.contains g)) []
  gs.map (fun g => f.pages.getD (g * 2048 / 65536) 0)

/-- Outstanding fetch reads of core `c`. -/
def State.fetchCount (s : State) (c : Nat) : Nat :=
  (s.stk.reqs.filter (fun e => e.2.core == c && (match e.2.kind with | .fetch _ => true | _ => false))).length

/-- Fetch reads that wait are made while fewer than 64 are outstanding (R254). -/
def State.pumpFetch (s : State) (c : Nat) : State :=
  let mine := s.stk.fetchWait.filter (fun r => r.core == c)
  let n := 64 - s.fetchCount c
  let go := mine.take n
  let s : State := { s with stk := { s.stk with
    fetchWait := s.stk.fetchWait.filter (fun r => r.core != c) ++ mine.drop n } }
  go.foldl State.newReq s

/-- A gathered STATE task is released: its pointer list is checked and its fetches begin (R215, R254, R255). -/
def State.startFetch (s : State) (i : Nat) (x : Inst) (g : Gather) : State :=
  match s.ctxCat g.ctx with
  | none => s
  | some c =>
    match c.ops[g.op]? with
    | none => s
    | some op =>
      let l := c.stateIndex op.layer
      let s := (s.callsOf g).foldl
        (fun s call =>
          if s.ptrOk g.ctx call then
            match s.folio call with
            | some f =>
              let rs := (fetchPages f l (f.nl.getD l 0)).map (fun p =>
                ({ kind := .fetch i, ctx := g.ctx, gen := x.gen, core := x.core, engine := 0, page := p, since := 0 } : Req))
              { s with stk := { s.stk with fetchWait := s.stk.fetchWait ++ rs } }
            | none => s
          else s.report (Src.ctx g.ctx) E.mapPtrBad (Rep.engine x.core 3) call) s
      s.pumpFetch x.core

/-- Lateness at release (R279). -/
def State.lateCheck (s : State) (x : Inst) : State :=
  match s.token x.token with
  | none => s
  | some k =>
    if Pos.atOrAfter (s.lanePos k.lane) (s.tokenDeadline x.token) then
      (s.count (R.dspCxLate x.ctx)).raise R.dspStatus F.dspStatusLate R.dspLateEvt
    else s

/-- The granules of 2 KiB of the Stacks buffers that an XFER task moves, by page (R256, R272, R273).
DESIGN CHOICE, assumption 48. -/
def State.xferPages (s : State) (x : Inst) (t : TaskRec) : List Nat :=
  match s.ctxCat x.ctx with
  | none => []
  | some c =>
    (t.operands.filterMap (fun o => c.bufs[o]?)).flatMap (fun b =>
      if b.mem = 1 then
        (List.range (ceilDiv (min b.size (t.kf.getD 1 0)) 2048)).map (fun g => (b.base + 2048 * g) / 65536)
      else [])

/-- Instance `i` is released to its engine. -/
def State.releaseInst (s : State) (i : Nat) (x : Inst) : State :=
  let s := (s.setInst i { x with st := .running, since := s.timeUs }).lateCheck x
  match s.instTask x, s.token x.token with
  | some t, some k =>
    if t.kind = 1 then s.queueMvm i x t k
    else if t.kind = 5 then
      (s.xferPages x t).foldl (fun s p => s.newReq ⟨.buffer i, x.ctx, x.gen, x.core, x.engine, p, 0⟩) s
    else s
  | _, _ => s

/-- The ready queue of engine `e` of core `c` releases its next instance, a gathered task as one (R278, R282, R283). -/
def State.releaseNext (s : State) (c e : Nat) : State :=
  if !s.isSet R.dspCtrl F.dspCtrlDispEn || s.engFenced c e || s.engBusy c e then s
  else
    match s.nextReady c e with
    | none => s
    | some (i, x) =>
      match s.dsp.gathers.get? x.group with
      | some g =>
        if x.group = 0 then s.releaseInst i x
        else
          let s := g.members.foldl (fun s j => match s.inst j with | some y => s.releaseInst j y | none => s) s
          s.startFetch i x g
      | none => s.releaseInst i x

/-! ### Contexts and teardown (R287 to R293, R248) -/

/-- The lanes of the shelves of context `x`. -/
def State.ctxLanes (s : State) (x : Nat) : List Nat :=
  (List.range 64).filter (fun l => s.hasLane l && s.shelfEn (s.laneP l P.laneShelf)
    && s.shelfCtx (s.laneP l P.laneShelf) == x)

/-- The state with context `x`'s saved accumulators discarded and no suspension. -/
def State.dropSave (s : State) (x : Nat) : State :=
  let s := s.setCtx x { s.ctx x with saving := false, saved := [], kept := [] }
  s.setF (R.dspCxCtrl x) F.dspCxCtrlSuspend 0

/-- Instances of context `x` not yet released are dropped (R290). -/
def State.dropUnreleased (s : State) (x : Nat) : State :=
  let own := ((s.ctxInsts x).filter (fun e => e.2.st != .running)).map (·.1)
  let toks := (s.dsp.tokens.filter (fun e => e.2.ctx == x)).map (·.1)
  let s := own.foldl State.removeInst s
  let s : State := { s with mc := { s.mc with tiles := s.mc.tiles.map (fun e =>
    (e.1, { e.2 with q := e.2.q.filter (fun i => i.ctx != x) })) } }
  (toks.foldl State.dropToken s).syncInst x

/-- A teardown of context `x` starts (R289, R290, R312). -/
def State.startTeardown (s : State) (x : Nat) : State :=
  let gen := (s.ctxGen x + 1) % 16
  let s := s.setF (R.dspCxState x) F.dspCxStateGen gen
  let s := s.setF (R.dspCxState x) F.dspCxStateState 4
  let s := s.setF (R.dspCxCtrl x) F.dspCxCtrlTeardown 1
  let s := s.setCtx x { s.ctx x with tdAt := s.timeUs, genAt := some s.timeUs, tdWait := false }
  let s := (s.dropSave x).dropUnreleased x
  (s.ctxLanes x).foldl (fun s l => s.defaultLane l .fault) s

/-- A teardown of a context that may take one starts, or waits for 1 ms since its last generation change (R287, R293). -/
def State.requestTeardown (s : State) (x : Nat) : State :=
  let soon := match (s.ctx x).genAt with | some t => decide (s.timeUs < t + 1000) | none => false
  if soon then
    (s.setCtx x { s.ctx x with tdWait := true }).setF (R.dspCxCtrl x) F.dspCxCtrlTeardown 1
  else s.startTeardown x

/-- A fault of context `x` tears it down (R289). -/
def State.faultCtx (s : State) (x : Nat) : State :=
  if s.ctxState x == 1 || s.ctxState x == 2 || s.ctxState x == 3 || s.ctxState x == 6 then s.requestTeardown x else s

/-- Folios of context `x` at the end of its teardown: open ones are retired, the others released (R248). -/
def State.endFolios (s : State) (x : Nat) : State :=
  let own := s.stk.folios.filter (fun e => s.shelfCtx (callShelf e.1) == x)
  own.foldl
    (fun s e =>
      let s : State := { s with stk := { s.stk with xfers := s.stk.xfers.del e.1 } }
      if e.2.st = 1 then s.retireFolio e.1 else s.releaseFolio e.1) s

/-- The outstanding-request counter has reached zero in TEARING (R291). -/
def State.endTeardown (s : State) (x : Nat) : State :=
  let s := s.endFolios x
  let gone := s.mc.acc.filter (fun e => e.2.ctx == x)
  let s := gone.foldl (fun s e => s.freeAcc (e.1 / 1024) (e.1 % 1024)) s
  let s := s.setF (R.dspCxState x) F.dspCxStateState 1
  let s := s.setF (R.dspCxCtrl x) F.dspCxCtrlTeardown 0
  let s := s.raise (R.dspCxState x) F.dspCxStateTdDone (R.dspCxTdEvt x)
  s.countF (R.dspCxInflight x) F.dspCxInflightTdCount

end Sys2Proof.Machine
end

