-- ==== Sys2Proof/Machine/Calibration.lean ====
section
/-! DEFINITION. Calibration and drift tracking: trim sets, commits and epochs, pip windows, gap tasks, fidelity and the device
summary (R112 to R141). -/

namespace Sys2Proof.Machine

/-! ### Trims (R112) -/

/-- Key of a trim: index, and for indices 0 to 527 the gain field. -/
def trimKey (index : Nat) (gain : Bool) : Nat := 2 * index + b2n (gain && decide (index < 528))

/-- A trim that has never been written: offset 0, gain 128 (R129). -/
def trimDefault (key : Nat) : Nat := if key % 2 = 1 then 128 else 0

/-- A trim of a set. -/
def trimGet (set : Tab Nat) (key : Nat) : Nat := set.getD key (trimDefault key)

/-- A set with one trim written. -/
def trimSet (set : Tab Nat) (key v : Nat) : Tab Nat := set.set key v (trimDefault key)

/-- Key of the read-voltage trim. -/
def vreadKey : Nat := trimKey 528 false

/-- Width of a trim (R112). -/
def trimWidth (index : Nat) : Nat := if index = 528 then 10 else 8

/-- Two sets differ in a trim that affects gain: any but an offset trim (R132). -/
def gainChange (a b : Tab Nat) : Bool :=
  (a ++ b).any (fun e => !(e.1 % 2 == 0 && decide (e.1 < 1056)) && trimGet a e.1 != trimGet b e.1)

/-- CAL_TILE_CTRL.commit. -/
def State.commitPending (s : State) (c t : Nat) : Bool := s.isSet (R.calTileCtrl c t) F.calTileCtrlCommit

/-- cal_epoch_min in µs. -/
def State.epochMin (s : State) : Nat := s.tuneP P.tuneCalEpochMin * 1000

/-- A commit may be made now (R131, R136). -/
def State.commitFree (s : State) (c t : Nat) : Bool :=
  !s.commitPending c t && decide ((s.tile c t).commitAt + s.epochMin ≤ s.timeUs)

/-- Commit (R115): no effect while an earlier one is pending (R20, R139). -/
def State.commit (s : State) (c t : Nat) : State :=
  if s.commitPending c t then s
  else (s.setF (R.calTileCtrl c t) F.calTileCtrlCommit 1).setTile c t { s.tile c t with commitAt := s.timeUs, wantCommit := false }

/-- Commit now, or once cal_epoch_min has passed (R132). -/
def State.commitWhenFree (s : State) (c t : Nat) : State :=
  if s.commitFree c t then s.commit c t else s.setTile c t { s.tile c t with wantCommit := true }

/-- The tile is powered and calibrated. -/
def State.tileTracked (s : State) (c t : Nat) : Bool :=
  s.tileState c t == 2 || s.tileState c t == 3 || s.tileState c t == 6

/-! ### Temperatures (R122, R133) -/

/-- A sensor's reading in 1/64 °C (THM_TEMP). -/
def State.sensor (s : State) (i : Nat) : Int := sext 16 (s.getF (R.thmTemp i) F.thmTempTemp)

/-- The graft's offset of sensor `i` (R119). -/
def State.graftOffset (s : State) (i : Nat) : Int :=
  if s.cal.tempUsr.isEmpty then 0 else sext 16 (leAt s.cal.tempUsr (2 * i) 2)

/-- The graft-corrected temperature that firmware uses (R122). -/
def State.fwTemp (s : State) (i : Nat) : Int := s.sensor i + s.graftOffset i

/-- Four times the mean of the core's sensors. -/
def State.coreTemp4 (s : State) (c : Nat) : Int :=
  s.fwTemp (4 * c) + s.fwTemp (4 * c + 1) + s.fwTemp (4 * c + 2) + s.fwTemp (4 * c + 3)

/-! ### Fidelity and summary (R137, R138) -/

/-- TIL_THRESH. -/
def State.thresh (s : State) (c : Nat) : Nat := s.getF (R.tilThresh c) F.tilThreshThresh

/-- The tiles in CAL or BELOW, in order of core and tile, with their fidelity. -/
def State.inclTiles (s : State) : List (Nat × Nat × Nat) :=
  (List.range 16).flatMap (fun c => (List.range 68).filterMap (fun t =>
    if s.tileState c t = 2 ∨ s.tileState c t = 3 then some (c, t, s.getF (R.tilFidelity c t) F.tilFidelityFid) else none))

/-- Insert into a rising list. -/
def insertNat (n : Nat) : List Nat → List Nat
  | [] => [n]
  | m :: ms => if n ≤ m then n :: m :: ms else m :: insertNat n ms

/-- CAL_WORST and CAL_COUNTS are written before CAL_SUMMARY, with one sequence number (R138). -/
def State.renewSummary (s : State) : State :=
  let ts := s.inclTiles
  let worst := ts.foldl (fun (m : Option (Nat × Nat × Nat)) e =>
    match m with
    | none => some e
    | some w => if e.2.2 < w.2.2 then some e else some w) none
  let fids := ts.foldl (fun l e => insertNat e.2.2 l) []
  let median := fids.getD ((fids.length - 1) / 2) 0
  let below := (ts.filter (fun e => s.tileState e.1 e.2.1 == 3)).length
  let q := (s.getF R.calSummary F.calSummarySummarySeq + 1) % 256
  let (wc, wt, wf) := worst.getD (0, 0, 0)
  let s := s.setF R.calWorst F.calWorstCore wc
  let s := s.setF R.calWorst F.calWorstTile wt
  let s := s.setF R.calWorst F.calWorstSummarySeq q
  let s := s.setF R.calCounts F.calCountsNBelow below
  let s := s.setF R.calCounts F.calCountsNIncl ts.length
  let s := s.setF R.calCounts F.calCountsSummarySeq q
  let s := s.setF R.calSummary F.calSummaryWorst wf
  let s := s.setF R.calSummary F.calSummaryMedian median
  s.setF R.calSummary F.calSummarySummarySeq q

/-- TIL_FIDELITY is written (R67, R76, R138): below the threshold a tile in CAL enters BELOW, and the other way round. -/
def State.writeFid (s : State) (c t fid : Nat) : State :=
  let s := s.setF (R.tilFidelity c t) F.tilFidelityFid fid
  let s := s.setF (R.tilFidelity c t) F.tilFidelityValid 1
  let low := decide (fid < s.thresh c)
  let s := if low then s.raise (R.tilStatus c t) F.tilStatusBelow (R.tilBelowEvt c t) else s
  let s := if s.tileState c t = 2 && low then s.setTileState c t 3
    else if s.tileState c t = 3 && !low then s.setTileState c t 2 else s
  s.renewSummary

/-- Firmware's estimate at an epoch (R137): a value that the spec leaves to measurement. DESIGN CHOICE, assumption 102. -/
def State.renewFid (s : State) (c t : Nat) : State :=
  if s.tileTracked c t then
    let fid := Config.freeValue s.fresh % 1024
    ({ s with fresh := s.fresh + 1 } : State).writeFid c t fid
  else s

/-! ### Epochs (R115, R132) -/

/-- A pip window starts anew (R63, R132). -/
def State.restartPips (s : State) (c t : Nat) : State :=
  (s.setTile c t { s.tile c t with pipNum := 0, pipDen := 0 }).setF (R.tilPipGain c t) F.tilPipGainUsed 0

/-- No input is partly issued to the tile (R100, R115). -/
def TileRt.whole (x : TileRt) : Bool :=
  x.runs.all (fun e => e.2.next == 0 || e.2.next == (if e.2.inp.two then 2 else 1))

/-- The shadow set becomes active (R115, R132). -/
def State.epoch (s : State) (c t : Nat) : State :=
  let x := s.tile c t
  let gain := gainChange x.act x.shd
  let s := s.setTile c t { x with act := x.shd }
  let s := if gain then s.restartPips c t else s
  let s := (s.setF (R.calTileCtrl c t) F.calTileCtrlCommit 0).count (R.calEpoch c t)
  s.renewFid c t

/-! ### Read voltage (R131, R133) -/

/-- Read voltage of a trim code, nV. -/
def FacTile.vread (f : FacTile) (code : Nat) : Nat := f.v0 * 1000 + code * f.vstep

/-- Firmware computes and commits a new read-voltage trim from pip ratio `ratio` (14 fraction bits): the old voltage divided
by it, less 0.3% per °C of rise (R131, R133). -/
def State.commitVread (s : State) (c t ratio : Nat) : State :=
  let x := s.tile c t
  let old : Int := x.fac.vread (trimGet x.act vreadKey)
  let dT4 := s.coreTemp4 c - x.tempRef
  -- target − V0, over the denominator ratio · 256000 · Vstep
  let num := old * 2 ^ 14 * (256000 - 3 * dT4) - (x.fac.v0 * 1000 * ratio * 256000 : Nat)
  let code := roundQ num (max 1 (ratio * 256000 * x.fac.vstep))
  let v := (clampI 0 1023 code).toNat
  let s := if code < 0 ∨ code > 1023 then s.report (Src.tile c t) E.calVreadRange (Rep.fw 2) else s
  let x := s.tile c t
  let s := s.setTile c t { x with shd := trimSet x.shd vreadKey v, wantRatio := none, tempRef := s.coreTemp4 c }
  s.commit c t

/-- A pip window of 4,096 slices closes (R63, R131, R137). -/
def State.closePips (s : State) (c t : Nat) : State :=
  let x := s.tile c t
  let ok := decide (0 < x.pipDen ∧ 4 * x.pipDen ≤ 5 * x.pipNum ∧ 4 * x.pipNum ≤ 5 * x.pipDen)
  let s := s.restartPips c t
  if ok then
    let ratio := (roundQ (x.pipNum * 2 ^ 14) x.pipDen.toNat).toNat
    let s := s.setF (R.tilPipGain c t) F.tilPipGainRatio ratio
    let s := s.setTile c t { s.tile c t with rejects := 0 }
    if s.commitFree c t then s.commitVread c t ratio
    else s.setTile c t { s.tile c t with wantRatio := some ratio }
  else
    let s := s.raise (R.tilStatus c t) F.tilStatusPipFail (R.tilPipfEvt c t)
    if 2 ≤ x.rejects then (s.setTile c t { s.tile c t with rejects := 0 }).writeFid c t (s.thresh c - 1)
    else s.setTile c t { s.tile c t with rejects := x.rejects + 1 }

/-! ### Gap tasks (R134 to R136) -/

/-- Period of a gap task in µs. -/
def State.gapPeriod (s : State) (kind : Nat) : Nat :=
  match kind with
  | 0 => s.tuneP P.tuneOffsetPeriod * 100000
  | 1 => s.tuneP P.tuneRefPeriod * 1000000
  | _ => s.tuneP P.tuneGainPeriod * 1000000

/-- Gaps that a task collects (R134). -/
def gapsOf (kind : Nat) : Nat := if kind = 2 then 128 else 64

/-- A gap task that is due starts collecting (R136). -/
def State.startGaps (s : State) (c t kind : Nat) : State :=
  let x := s.tile c t
  if s.tileTracked c t && !x.gaps.any (fun g => g.kind == kind)
      && decide (x.gapStart.getD kind 0 + s.gapPeriod kind ≤ s.timeUs) then
    s.setTile c t { x with gaps := x.gaps ++ [⟨kind, gapsOf kind⟩], gapStart := x.gapStart.put kind s.timeUs }
  else s

/-- A trim that a gap task may set (R113, R134). -/
def trimOfKind (kind : Nat) (v : TrimVal) : Bool :=
  match kind with
  | 0 => decide (v.index.val < 528) && !v.gain
  | 1 => decide (529 ≤ v.index.val)
  | _ => decide (v.index.val < 512) && v.gain

/-- Write trims into a set. -/
def putTrims (set : Tab Nat) (vs : List TrimVal) : Tab Nat :=
  vs.foldl (fun m v => trimSet m (trimKey v.index.val v.gain) (v.value % 2 ^ trimWidth v.index.val)) set

/-- A trim reached the end of its range (R126, R139). -/
def State.clampTrim (s : State) (c t : Nat) : State :=
  (s.raise (R.calStatus c) F.calStatusClamp (R.calClampEvt c)).report (Src.tile c t) E.calTrimClamp (Rep.fw 2)

/-- A gap task has collected its gaps: firmware commits the new trims (R132, R134). -/
def State.endGaps (s : State) (c t : Nat) (vs : List TrimVal) (clamped : Bool) : State :=
  let x := s.tile c t
  match x.gaps.find? (fun g => g.left == 0) with
  | none => s
  | some g =>
    if s.commitPending c t then s
    else
      let k := g.kind
      let late := decide (x.gapStart.getD k 0 + s.gapPeriod k ≤ s.timeUs)
      let s := s.setTile c t { x with
        gaps := x.gaps.filter (fun h => h.kind != k), shd := putTrims x.shd (vs.filter (trimOfKind k)),
        gapDone := x.gapDone.put k s.timeUs,
        gapStart := if late then x.gapStart.put k s.timeUs else x.gapStart }
      let s := if clamped then s.clampTrim c t else s
      s.commitWhenFree c t

/-! ### The graft's gain corrections (R119, R120) -/

/-- The FP16 correction of weight column `col` of tile `p` in a payload of record 0x0200; 1.0 where there is none. -/
def tileGain (payload : Bytes) (c t col : Nat) : Nat :=
  if payload.isEmpty then 0x3C00 else leAt payload ((68 * c + t) * 16 + 2 * (col / 64)) 2

/-- The gain trim that aims at correction `new` in place of `old`: nearest code to the old factor times their ratio (R126,
R120), and whether it was clamped. -/
def regain (trim old new : Nat) : Nat × Bool :=
  match fpDecode 5 10 old, fpDecode 5 10 new with
  | .fin _ mo eo, .fin _ mn en =>
    -- factor = (384 + trim)/512; new code = factor · new/old · 512 − 384
    let (n, d) := scaleQ ((384 + trim) * mn) mo en eo
    let v := roundQ ((n : Int) - 384 * d) (max d 1)
    ((clampI 0 255 v).toNat, decide (v < 0 ∨ 255 < v))
  | _, _ => (trim, false)

/-- The new corrections go into the shadow gain trims of a tile that stands for tile `t0` (R120, R132). -/
def State.graftTile (s : State) (c t t0 : Nat) (old new : Bytes) : State :=
  let x := s.tile c t
  let cols := x.converted x.cols
  let r := cols.map (fun k => (k, regain (trimGet x.shd (trimKey k true)) (tileGain old c t0 k) (tileGain new c t0 k)))
  let s := s.setTile c t { x with shd := r.foldl (fun m e => trimSet m (trimKey e.1 true) e.2.1) x.shd }
  let s := if r.any (fun e => e.2.2) then s.clampTrim c t else s
  s.commitWhenFree c t

/-- A new record 0x0200 is in force (R119). -/
def State.graftGains (s : State) (payload : Bytes) : State :=
  let old := s.cal.tileGains
  let s : State := { s with cal := { s.cal with tileGains := payload } }
  (List.range 16).foldl
    (fun s c => (List.range 68).foldl
      (fun s t =>
        if s.tileTracked c t then
          let t0 := if s.isSet (R.tilState c t) F.tilStateSubst then s.getF (R.tilState c t) F.tilStateStandsFor else t
          s.graftTile c t t0 old payload
        else s) s) s

end Sys2Proof.Machine
end

