-- ==== Sys2Proof/Machine/Graft.lean ====
section
/-! DEFINITION. The checks on a graft record, as sent with SET_GRAFT or as stored (R119, R121, R326, R354, R372). -/

namespace Sys2Proof.Machine

/-- The two's-complement number of `w` bits lies within ±`m`. -/
def within (w m : Nat) (n : Nat) : Bool := decide ((sext w n).natAbs ≤ m)

/-- Payload length of a graft record (R119, R326, R354, R372); none for an unknown type. -/
def graftLen (type : Nat) : Option Nat :=
  match type with
  | 0x200 => some 17408
  | 0x201 => some 512
  | 0x202 => some 32
  | 0x203 => some 32
  | 0x204 => some 136
  | _ => none

/-- A user entry of the port trims: every cursor and peaking code within ±4, reserved bits 0 (R354). -/
def portTrimOk (w : Nat) : Bool :=
  within 8 4 (w % 256) && within 8 4 (w / 256 % 256) && within 8 4 (w / 65536 % 256) && within 4 4 (w / 2 ^ 24 % 16)
    && decide (w / 2 ^ 28 % 16 = 0)

/-- Every value of a graft payload lies in its range. -/
def graftRange (type : Nat) (p : Bytes) : Bool :=
  match type with
  | 0x200 => (List.range 8704).all (fun i => let v := leAt p (2 * i) 2; decide (0x3B34 ≤ v ∧ v ≤ 0x3C66))
  | 0x201 => (List.range 128).all (fun i => portTrimOk (leAt p (4 * i) 4))
  | 0x202 => [0, 8].all (fun o =>
      let g := leAt p (o + 4) 4
      within 32 65536 (leAt p o 4) && decide (0x3CCCCCCD ≤ g ∧ g ≤ 0x43333333))
  | 0x203 => (List.range 8).all (fun i =>
      let g := leAt p (4 * i + 2) 2
      within 16 4096 (leAt p (4 * i) 2) && decide (0x7D71 ≤ g ∧ g ≤ 0x828F))
  | 0x204 => (List.range 68).all (fun i => within 16 512 (leAt p (2 * i) 2))
  | _ => false

/-- What a payload of record `type` fails: a wrong length, a value out of range, or nothing (R121). -/
def graftPayload (type : Nat) (p : Bytes) : Nat :=
  if graftLen type ≠ some p.length then E.calGraftCrc
  else if graftRange type p then 0 else E.calGraftRange

/-- The check of the bytes of SET_GRAFT (R121, R481): record 0x0205 is denied. -/
def graftCheck (bs : Bytes) : Nat :=
  let type := leAt bs 0 2
  match recPayload type bs with
  | some p =>
    if 12 + p.length ≠ bs.length then E.calGraftCrc
    else if type = 0x205 then E.genDenied
    else graftPayload type p
  | none => E.calGraftCrc

/-- A stored graft record as firmware takes it: its payload, or nothing where it is absent, lost or fails a check (R121). -/
def State.storedGraft (s : State) (type : Nat) : State × Option Bytes :=
  match s.readRec type with
  | (s, none) => (s, none)
  | (s, some p) =>
    let code := graftPayload type p
    if code = 0 then (s, some p) else (s.report Src.device code (Rep.fw 2) type, none)

end Sys2Proof.Machine
end

