-- ==== Sys2Proof/Machine/Ports.lean ====
section
/-! DEFINITION. The ports: training, discovery, frames received, check values, detach (R330 to R346, R516, R517). -/

namespace Sys2Proof.Machine

/-- Partner kind of port `p` (R336): 1 camera head, 2 valve board, 3 Krein. -/
def portKind (p : Nat) : Nat := if p < 4 then 1 else if p < 6 then 3 else 2

/-- Receive lanes of port `p` (R330). -/
def portLanes (p : Nat) : Nat := if p < 4 then 4 else if p < 6 then 8 else 1

/-- Lane rate code of port `p` (R330, R335). -/
def State.portRate (s : State) (p : Nat) : Nat :=
  if p < 4 then s.getF (R.prtCtrl p) F.prtCtrlRate else if p < 6 then 1 else 0

/-- A receive stream that is idle (R339). -/
def RxStream.init : RxStream := ⟨false, 0, [], 0, none, none, 0⟩

/-- The state of the port changes (R333). -/
def State.setPortState (s : State) (p st : Nat) : State :=
  let s := s.setF (R.prtState p) F.prtStateState st
  s.setPort p { s.port p with since := s.timeUs }

/-- One entry of the equalisation in force: factory plus user, clamped to the factory range (R354). -/
def eqEntry (fac usr : Nat) : Word :=
  let pre := clampI (-16) 0 (sext 8 (fac % 256) + sext 8 (usr % 256))
  let post := clampI (-24) 0 (sext 8 (fac / 256 % 256) + sext 8 (usr / 256 % 256))
  let main := clampI 0 63 ((fac / 65536 % 256 : Nat) + sext 8 (usr / 65536 % 256))
  let ctle := clampI 0 15 ((fac / 2 ^ 24 % 16 : Nat) + sext 4 (usr / 2 ^ 24 % 16))
  BitVec.ofNat 32 (ofInt 8 pre + 256 * ofInt 8 post + 65536 * ofInt 8 main + 2 ^ 24 * ofInt 4 ctle)

/-- The port enters TRAIN: algorithm, mode and trims take effect, nothing of the former partner stays (R333, R354, R355). -/
def State.enterTrain (s : State) (p : Nat) : State :=
  let s := s.setPortState p 1
  let s := s.setF (R.prtState p) F.prtStateKind 0
  let s := s.setReg (R.prtPartnerFw p) 0
  let q := s.port p
  s.setPort p { q with recOk := false, ackOk := false, record := [], rx := [], txs := [],
                       alg := s.getF (R.prtCtrl p) F.prtCtrlCvAlg, mode := s.getF (R.prtCtrl p) F.prtCtrlCvMode,
                       eq := (List.range 16).map (fun i =>
                         eqEntry (leAt s.prt.eqFac (64 * p + 4 * i) 4) (leAt s.prt.eqUsr (64 * p + 4 * i) 4)) }

/-- Krein's own device ID (R446), from the ID registers. -/
def State.deviceId (s : State) : Bytes :=
  (List.range 4).flatMap (fun i => leBytes 4 (s.regNat (R.idDeviceId i)))

/-- Krein's accession record for port `p` (R335). -/
def State.ownRecord (s : State) (p : Nat) : Bytes :=
  let body := leBytes 4 0x41435352 ++ leBytes 2 1 ++ leBytes 1 3
    ++ leBytes 1 (portLanes p + 16 * s.portRate p) ++ takeAt Config.accessionNames 0 48
    ++ leBytes 4 (s.regNat R.idFwRev) ++ leBytes 2 (s.portP p P.portMaxPayload)
    ++ leBytes 1 (s.getF (R.prtCtrl p) F.prtCtrlStreams) ++ leBytes 1 0x3F
    ++ s.deviceId ++ leBytes 4 (s.getF R.prtFab F.prtFabIndex) ++ leBytes 40 0
  body ++ leBytes 4 (crc32c body)

/-- Krein sends its accession record (R334). -/
def State.sendAccession (s : State) (p : Nat) : State :=
  let s := s.putFrame p 0x01 (s.ownRecord p)
  s.setPort p { s.port p with accAt := s.timeUs }

/-- The first check of R336 that a partner's record fails; 0 when it passes. -/
def State.checkRecord (s : State) (p : Nat) (r : Bytes) : Nat :=
  if r.length ≠ 128 ∨ leAt r 0 4 ≠ 0x41435352 ∨ leAt r 4 2 ≠ 1 ∨ leAt r 0x7C 4 ≠ crc32c (r.take 0x7C) then
    E.prtAccessionBad
  else if leAt r 6 1 ≠ portKind p ∨ leAt r 7 1 % 16 ≠ portLanes p ∨ leAt r 7 1 / 16 % 4 ≠ s.portRate p then
    E.prtKindMismatch
  else if !bit (leAt r 0x3F 1) (s.port p).alg || !bit (leAt r 0x3F 1) (4 + (s.port p).mode)
      || decide (leAt r 0x3E 1 < s.getF (R.prtCtrl p) F.prtCtrlStreams)
      || decide (leAt r 0x3C 2 < s.portP p P.portMaxPayload) then E.prtCvUnsupported
  else if portKind p = 1 ∧ (leAt r 0x50 2 ≠ s.portP p P.portPixels ∨ leAt r 0x52 1 ≠ s.portP p P.portBands
      ∨ leAt r 0x53 1 ≠ s.portP p P.portFormat) then E.prtGeometry
  else if portKind p = 3 ∧ (leAt r 0x50 1 ≥ 8 ∨ leAt r 0x40 16 = 0
      ∨ s.fabP (P.fabDev0 + leAt r 0x50 1) ≠ leAt r 0x40 16) then E.prtPeerUnknown
  else match (s.port p).last with
    | some (ser, _) =>
      if s.isSet (R.prtCtrl p) F.prtCtrlPartnerLock && decide (takeAt r 0x28 16 ≠ ser) then E.prtPartnerLocked else 0
    | none => 0

/-- The port becomes ATTACHED to the partner of record `r` (R334, R516). -/
def State.attach (s : State) (p : Nat) : State :=
  let r := (s.port p).record
  let s := s.setPortState p 4
  let s := s.setF (R.prtState p) F.prtStateKind (leAt r 6 1)
  let s := s.countF (R.prtState p) F.prtStateAttachCount
  let s := s.setNat (R.prtPartnerFw p) (leAt r 0x38 4)
  s.setPort p { s.port p with last := some (takeAt r 0x28 16, leAt r 0x38 4), lastRxAt := s.timeUs }

/-- The port attaches when both records stand (R334). -/
def State.tryAttach (s : State) (p : Nat) : State :=
  if (s.port p).recOk && (s.port p).ackOk then s.attach p else s

/-- An accession is refused, by either side (R333). -/
def State.refuse (s : State) (p code : Nat) : State :=
  ((s.raise (R.prtStatus p) F.prtStatusRefused (R.prtRefEvt p)).report (Src.port p) code (Rep.port p)).setPortState p 5

/-- A partner's record has been received in DISCOVER (R334, R336): Krein answers with ACCESSION_ACK. -/
def State.gotRecord (s : State) (p : Nat) (r : Bytes) : State :=
  let code := s.checkRecord p r
  if code = 0 then
    let q := s.port p
    let par := leBytes 1 (portLanes p + 16 * s.portRate p) ++ leBytes 2 (s.portP p P.portMaxPayload)
      ++ leBytes 1 (s.getF (R.prtCtrl p) F.prtCtrlStreams) ++ leBytes 1 (2 ^ q.alg + 16 * 2 ^ q.mode)
    let s := s.putFrame p 0x02 (leBytes 2 0 ++ par)
    let changed := match q.last with
      | some (ser, fw) => decide (takeAt r 0x28 16 ≠ ser ∨ leAt r 0x38 4 ≠ fw)
      | none => false
    let s := if changed then s.report (Src.port p) E.prtPartnerChanged (Rep.fw 3) else s
    let s := s.setPort p { s.port p with recOk := true, record := r }
    s.tryAttach p
  else (s.putFrame p 0x02 (leBytes 2 code)).refuse p code

/-- The port enters DISCOVER and sends its record; a record held from before counts as received (R334, R346). -/
def State.enterDiscover (s : State) (p : Nat) : State :=
  let s := (s.setPortState p 3)
  let h := (s.port p).held
  let s := s.setPort p { s.port p with recOk := false, ackOk := false, held := [] }
  let s := s.sendAccession p
  if h.isEmpty then s else s.gotRecord p h

/-! ### Detach (R343, R344, R517) -/

/-- Lanes that the image defines. -/
def State.lanes (s : State) : List Nat := (List.range 64).filter s.hasLane

/-- What a detach does to the rest of Krein (R344). -/
def State.detachEffects (s : State) (p : Nat) : State :=
  if p < 4 then
    s.lanes.foldl (fun s l => if bit (s.laneP l P.laneHeads) p then s.defaultLane l .fault else s) s
  else if p < 6 then s
  else
    let n := (s.fireQ (p - 6)).length
    (List.range n).foldl (fun s _ => s.raise (R.prtStatus p) F.prtStatusTxLost (R.prtTxlEvt p)) (s.setFireQ (p - 6) [])

/-- The partner of an ATTACHED port is detached (R343): the port enters TRAIN, or DOWN when disabled. -/
def State.detach (s : State) (p cause : Nat) (reason : Nat := 0) : State :=
  if s.attached p then
    let s := s.raise (R.prtStatus p) F.prtStatusDetach (R.prtDetEvt p)
    let s := s.report (Src.port p) E.prtDetached (Rep.fw 3) (cause + 65536 * reason)
    let s := s.enterTrain p
    let s := if s.portEn p then s else s.setPortState p 0
    s.detachEffects p
  else s

/-- Krein sends DETACH while the link holds, then detaches (R343, R517). -/
def State.sendDetach (s : State) (p cause reason : Nat) : State :=
  if s.attached p then (s.putFrame p 0x03 (leBytes 2 reason)).detach p cause else s

/-- Firmware disables the port (R333, R343). -/
def State.disablePort (s : State) (p : Nat) : State :=
  let s := if s.attached p then s.putFrame p 0x03 (leBytes 2 1) else s
  let s := s.setF (R.prtCtrl p) F.prtCtrlEn 0
  let s := s.detach p 5
  (s.enterTrain p).setPortState p 0

/-! ### Frames received (R337 to R342) -/

/-- The types of R338 that a port of this kind receives. -/
def typeKnown (p t : Nat) : Bool :=
  [1, 2, 3, 4].contains t || (if p < 4 then [0x10, 0x11].contains t
    else if p < 6 then decide (0x60 ≤ t ∧ t ≤ 0x65) || [0x70, 0x71].contains t else t == 0x48)

/-- The encoder of the first lane that lists head `p` (R339). -/
def State.headEnc (s : State) (p : Nat) : Nat :=
  match s.lanes.find? (fun l => bit (s.laneP l P.laneHeads) p) with
  | some l => s.laneEnc l
  | none => 0

/-- A LINE stamp lies at or before the position and not before the window (R339). -/
def State.stampOk (s : State) (p : Nat) (f : Frame) : Bool :=
  let now := (s.enc (s.headEnc p)).pos
  Pos.atOrAfter now f.hdr.stamp && decide ((now - f.hdr.stamp).toNat ≤ s.portP p P.portStampWindow)

/-- What the header check of R339 finds. -/
inductive HdrVerdict where
  | ok
  | hdr
  | seq
  | stamp
  deriving DecidableEq, Repr

/-- The header check (R339). -/
def State.hdrCheck (s : State) (p : Nat) (f : Frame) : HdrVerdict :=
  let h := f.hdr
  let t := h.type.toNat
  let fl := h.flags.toNat
  let st := h.stream.toNat
  let x := (s.port p).rx.getD st RxStream.init
  let lim := if 4 ≤ p ∧ p < 6 then f.ext.isSome else f.ext.isNone
  if !typeKnown p t || decide (fl / 8 ≠ 0) || h.rsv3 != 0 || h.rsv14 != 0
      || decide (s.getF (R.prtCtrl p) F.prtCtrlStreams ≤ st)
      || decide (s.portP p P.portMaxPayload < h.len.toNat) || decide (h.len.toNat ≠ f.payload.length)
      || decide (2 ^ 20 < (if bit fl 0 then 0 else x.acc.length) + f.payload.length)
      || (bit fl 0 == x.isOpen) || (bit fl 2 != f.ext.isSome) || !lim
      || (t != 0x10 && h.stamp != 0) || f.badBlock then .hdr
  else if x.nextSeq.isSome && x.nextSeq != some h.seq.toNat then .seq
  else if t == 0x10 && !s.stampOk p f then .stamp
  else .ok

/-- A frame arrives on port `p` (R339, R340): the message's payload when this frame completes it, else none. -/
def State.rxFrame (s : State) (p : Nat) (f : Frame) : State × Option Bytes :=
  let q := s.port p
  let st := f.hdr.stream.toNat
  let x := q.rx.getD st RxStream.init
  let nx := some ((f.hdr.seq.toNat + 1) % 65536)
  let q := { q with lastRxAt := s.timeUs }
  match s.hdrCheck p f with
  | .ok =>
    let first := bit f.hdr.flags.toNat 0
    let c0 := if first then x.seed.getD (crcInit q.alg) else x.cv
    let c := crcRun q.alg c0 f.payload
    let acc := (if first then [] else x.acc) ++ f.payload
    let last := bit f.hdr.flags.toNat 1
    let stamp := if first then f.hdr.stamp else x.stamp
    let x' : RxStream := ⟨!last, f.hdr.type.toNat, if last then [] else acc, c, if first then none else x.seed, nx, stamp⟩
    let s := s.setPort p { q with rx := q.rx.set st x' RxStream.init }
    if last then
      if f.cv = some (Nat.xor c (crcXor q.alg)) then (s.count (R.prtRxMsgs p), some acc)
      else (s.raise (R.prtStatus p) F.prtStatusCvErr (R.prtCvEvt p), none)
    else (s, none)
  | v =>
    let x' := { x with isOpen := false, acc := [], nextSeq := nx }
    let s := s.setPort p { q with rx := q.rx.set st x' RxStream.init }
    (match v with
     | .seq => s.raise (R.prtStatus p) F.prtStatusSeqGap (R.prtSeqEvt p)
     | .stamp => s.raise (R.prtStatus p) F.prtStatusStampErr (R.prtStampEvt p)
     | _ => s.raise (R.prtStatus p) F.prtStatusHdrErr (R.prtHdrEvt p), none)

/-- A frame of an attached partner; other states take no traffic (R333). -/
def State.rxAttached (s : State) (p : Nat) (f : Frame) : State × Option Bytes :=
  if s.attached p then s.rxFrame p f else (s, none)

/-! ### Check-value slots (R342) -/

/-- Streams that have a slot in the present arrangement (R341). -/
def State.cvStreams (s : State) (p : Nat) : Nat := if (s.port p).mode = 0 then 8 else 64

/-- PRT_CV_VAL as read: the running value of the selected stream and direction (R342). -/
def State.cvRead (s : State) (p : Nat) : Nat :=
  let q := s.port p
  let st := s.getF (R.prtCvSel p) F.prtCvSelStream
  if s.isSet (R.prtCvSel p) F.prtCvSelDir then
    let x := q.txs.getD st TxStream.init
    x.seed.getD x.cv
  else
    let x := q.rx.getD st RxStream.init
    if x.isOpen then x.cv else x.seed.getD x.cv

/-- A write of PRT_CV_VAL (R342): it seeds an idle stream, or is discarded with cv_busy. -/
def State.cvWrite (s : State) (p : Nat) (v : Nat) (opening : Bool) : State :=
  let q := s.port p
  let st := s.getF (R.prtCvSel p) F.prtCvSelStream
  let v := v % 2 ^ crcWidth q.alg
  if s.cvStreams p ≤ st then s
  else if s.isSet (R.prtCvSel p) F.prtCvSelDir then
    if opening then s.raise (R.prtStatus p) F.prtStatusCvBusy (R.prtCvbEvt p)
    else
      let x := q.txs.getD st TxStream.init
      s.setPort p { q with txs := q.txs.set st { x with seed := some v } TxStream.init }
  else
    let x := q.rx.getD st RxStream.init
    if x.isOpen || opening then s.raise (R.prtStatus p) F.prtStatusCvBusy (R.prtCvbEvt p)
    else s.setPort p { q with rx := q.rx.set st { x with seed := some v } RxStream.init }

end Sys2Proof.Machine
end

