-- ==== Sys2Proof/Machine/Monitor.lean ====
section
/-! DEFINITION. The monitor converters: starting conversions, results, urgent requests, cross-check, self-calibration and
snapshots (R357 to R377). -/

namespace Sys2Proof.Machine

/-- Converter `x`: 0 A, 1 B. -/
def State.conv (s : State) (x : Nat) : Conv := if x = 0 then s.mon.conv0 else s.mon.conv1

/-- The state with converter `x` holding `k`. -/
def State.setConv (s : State) (x : Nat) (k : Conv) : State :=
  if x = 0 then { s with mon := { s.mon with conv0 := k } } else { s with mon := { s.mon with conv1 := k } }

/-- Converter A is in the always-on domain, B in domain 62 (R357). -/
def State.convPowered (s : State) (x : Nat) : Bool := decide (x = 0) || s.domOn 62

/-- MON_CV_STATE.state: 0 stopped, 1 waiting, 2 delay, 3 converting, 4 urgent, 5 self-calibration, 6 cross-check. -/
def State.convState (s : State) (x : Nat) : Nat := s.getF (R.monCvState x) F.monCvStateState

/-- MON_CV_STATE takes a state and a channel. -/
def State.setConvState (s : State) (x st ch : Nat) : State :=
  (s.setF (R.monCvState x) F.monCvStateState st).setF (R.monCvState x) F.monCvStateChan ch

/-- MON_CV_CTRL.run. -/
def State.convRuns (s : State) (x : Nat) : Bool := s.isSet (R.monCvCtrl x) F.monCvCtrlRun

/-- Sequence mode (R361). -/
def State.convSeq (s : State) (x : Nat) : Bool := s.isSet (R.monCvCtrl x) F.monCvCtrlMode

/-- Work that a trigger, urgent request or cross-check waits for: urgent, self-calibration or cross-check. -/
def State.convTaken (s : State) (x : Nat) : Bool := decide (4 ≤ s.convState x)

/-! ### Sequence entries (R361, R362) -/

/-- Channel, repeat and delay of an entry (R362). -/
def entryChan (w : Word) : Nat := w.toNat % 32
def entryRepeat (w : Word) : Nat := w.toNat / 2 ^ 8 % 256
def entryDelay (w : Word) : Nat := w.toNat / 2 ^ 16

/-- Entry `e` starts: its contents are taken, and its delay, if it has one and `wait` holds, runs first (R362).
DEDUCED, assumption 72. -/
def State.startEntry (s : State) (x e : Nat) (wait : Bool) : State :=
  let w := s.reg (R.monSeq x e)
  let k := s.conv x
  let k : Conv := { k with entry := w, len := if e = 0 then s.getF (R.monCvCtrl x) F.monCvCtrlSeqLen else k.len }
  let s := s.setF (R.monCvState x) F.monCvStateEntry e
  let s := s.setF (R.monCvState x) F.monCvStateLeft (entryRepeat w)
  if wait ∧ entryDelay w ≠ 0 then
    (s.setConv x { k with delayAt := some (s.timeUs + 10 * entryDelay w), delayOver := false }).setConvState x 2 (entryChan w)
  else (s.setConv x k).setConvState x 3 (entryChan w)

/-- The entry after the current one; the table wraps behind entry seq_len (R361, R362). -/
def State.nextEntry (s : State) (x : Nat) : State :=
  let e := s.getF (R.monCvState x) F.monCvStateEntry
  s.startEntry x (if (s.conv x).len ≤ e then 0 else e + 1) true

/-- The delay of the current entry ends (R362, R368). -/
def State.delayEnd (s : State) (x : Nat) : State :=
  let k := s.conv x
  match k.delayAt with
  | none => s
  | some t =>
    if s.timeUs < t then s
    else if s.convState x = 2 then (s.setConv x { k with delayAt := none }).setConvState x 3 (entryChan k.entry)
    else s.setConv x { k with delayAt := none, delayOver := true }

/-! ### Urgent requests, cross-check, self-calibration (R368 to R371) -/

/-- The converter's work is put aside; a running conversion will restart, a delay keeps counting (R368). -/
def State.putAside (s : State) (x st ch : Nat) : State :=
  let s := if s.convState x = 3 then
      s.setConv x { s.conv x with held := some (s.getF (R.monCvState x) F.monCvStateChan) } else s
  s.setConvState x st ch

/-- What a cross-check is skipped for (R369). -/
def State.xchkSkipped (s : State) : Bool :=
  !s.convRuns 0 || !s.convRuns 1 || !s.domOn 62
    || s.getF (R.monCvCtrl 0) F.monCvCtrlLp != s.getF (R.monCvCtrl 1) F.monCvCtrlLp

/-- The cross-check takes both converters (R369). -/
def State.startXchk (s : State) : State :=
  let ch := s.getF R.monXchkCfg F.monXchkCfgChan
  let s : State := { s with mon := { s.mon with xWait := false, x0 := none, x1 := none } }
  if s.xchkSkipped then s else (s.putAside 0 6 ch).putAside 1 6 ch

/-- A cross-check that waits starts once both converters are free (R369). -/
def State.pollXchk (s : State) : State :=
  if s.mon.xWait ∧ ¬ s.convTaken 0 ∧ ¬ s.convTaken 1 then s.startXchk else s

/-- The converter's own work goes on: the aborted conversion restarts, or an entry whose delay ended starts (R368). -/
def State.resumeConv (s : State) (x : Nat) : State :=
  let k := s.conv x
  let s := s.setConv x { k with held := none, delayOver := false }
  if ¬ s.convRuns x then (s.setConv x { k with held := none, delayAt := none, delayOver := false }).setConvState x 0 0
  else match k.held with
    | some ch => s.setConvState x 3 ch
    | none =>
      if k.delayOver then s.setConvState x 3 (entryChan k.entry)
      else if k.delayAt.isSome then s.setConvState x 2 (entryChan k.entry)
      else s.setConvState x 1 0

/-- The urgent channel is converted (R368). -/
def State.goUrgent (s : State) (x : Nat) : State := s.putAside x 4 (s.getF (R.monCvUrg x) F.monCvUrgChan)

/-- Self-calibration begins with channel 31 (R371). -/
def State.goSelfcal (s : State) (x : Nat) : State := s.putAside x 5 31

/-- Urgent work on the converter ends: what waits begins, else its own work goes on (R368, R369, R371, R374). -/
def State.endTaken (s : State) (x : Nat) : State :=
  let s := s.resumeConv x
  if s.isSet (R.monCvCmd x) F.monCvCmdUrgent then s.goUrgent x
  else if s.isSet (R.monCvCmd x) F.monCvCmdSelfcal then s.goSelfcal x
  else s.pollXchk

/-- MON_CV_CMD.urgent is written 1 (R368, R374). -/
def State.urgentReq (s : State) (x : Nat) : State :=
  if ¬ s.convPowered x ∨ s.isSet (R.monCvCmd x) F.monCvCmdUrgent then s
  else
    let s := s.setF (R.monCvCmd x) F.monCvCmdUrgent 1
    if s.convTaken x then s else s.goUrgent x

/-- MON_CV_CMD.selfcal is written 1, or firmware calibrates again (R371, R374). -/
def State.selfcalReq (s : State) (x : Nat) : State :=
  if ¬ s.convPowered x ∨ s.isSet (R.monCvCmd x) F.monCvCmdSelfcal then s
  else
    let s := s.setF (R.monCvCmd x) F.monCvCmdSelfcal 1
    if s.convTaken x then s else s.goSelfcal x

/-- Sum of the readings of sensors 64 to 67. -/
def State.stackTemp4 (s : State) : Int := s.sensor 64 + s.sensor 65 + s.sensor 66 + s.sensor 67

/-- Self-calibration ends (R371). `zeros` and `refs` are the nine raw results of channels 31 and 30. -/
def State.selfcalEnd (s : State) (x : Nat) (zeros refs : List Int) : State :=
  if s.convState x ≠ 5 then s
  else
    let z := zeros.take 9
    let r := refs.take 9
    let n := max z.length 1
    let m := max r.length 1
    let zs := z.foldl (· + ·) 0
    let rs := r.foldl (· + ·) 0
    let o := rneDiv zs n
    -- g_self = num / den
    let den : Int := 10 * (rs - m * o)
    let num : Int := 50331648 * m
    let bad := decide (zs.natAbs > 65536 * n) || decide (den ≤ 0) || decide (num * 100 < 95 * den) || decide (105 * den < num * 100)
    let s := s.setF (R.monCvCmd x) F.monCvCmdSelfcal 0
    let s : State := { s with thm := { s.thm with monTemp := s.thm.monTemp.put x s.stackTemp4 } }
    let s := if bad then
        (s.raise R.monStatus F.monStatusCalFail R.monCalfEvt).report Src.device E.thmMonSelfcal (Rep.fw 3) x
      else (s.setNat (R.monCvOfsSelf x) (ofInt 32 o)).setNat (R.monCvGainSelf x) (rneDiv (num * 2 ^ 30) den.toNat).toNat
    s.endTaken x

/-- Firmware calibrates a converter again when the stacks' mean has moved by more than mon_recal_dt (R371). -/
def State.monRecal (s : State) : State :=
  [0, 1].foldl
    (fun s x => match s.thm.monTemp.get? x with
      | some t => if 4 * 64 * s.monP P.monMonRecalDt < (s.stackTemp4 - t).natAbs then s.selfcalReq x else s
      | none => s) s

/-! ### Results (R364 to R367) -/

/-- The result before clamping (R364). -/
def State.convResult (s : State) (x : Nat) (raw : Int) : Int :=
  let oS := sext 32 (s.regNat (R.monCvOfsSelf x))
  let oF := sext 32 (s.regNat (R.monCvOfsFac x))
  let oU := sext 32 (s.regNat (R.monCvOfsUser x))
  let gS : Int := s.regNat (R.monCvGainSelf x)
  let gF : Int := s.regNat (R.monCvGainFac x)
  let gU : Int := s.regNat (R.monCvGainUser x)
  rneDiv (((raw - oS) * gS * gF - oF * 2 ^ 60) * gU - oU * 2 ^ 90) (2 ^ 90)

/-- A code of 24 bits. -/
def inCode (r : Int) : Bool := decide (-(2 ^ 23) ≤ r ∧ r ≤ 2 ^ 23 - 1)

/-- An over-range result (R365). -/
def State.overRange (s : State) (x : Nat) (raw : Int) (overload : Bool) : Bool :=
  overload || !inCode raw || !inCode (s.convResult x raw)

/-- A tracker takes a result (R367). -/
def track (t : Option (Int × Int)) (r : Int) : Int × Int :=
  match t with
  | some (lo, hi) => (min lo r, max hi r)
  | none => (r, r)

/-- A result enters its channel's accumulator and trackers, or only advances the over-range count (R366, R367). -/
def State.accumulate (s : State) (x ch : Nat) (r : Option Int) : State :=
  let k := s.conv x
  let (sum, n, ov) := k.acc.getD ch (0, 0, 0)
  match r with
  | some r =>
    let acc := k.acc.set ch (ofInt 48 ((sum : Int) + r), (n + 1) % 2 ^ 16, ov) (0, 0, 0)
    let trk := (k.trk.put ch (track (k.trk.get? ch) r)).put (32 + ch) (track (k.trk.get? (32 + ch)) r)
    s.setConv x { k with acc := acc, trk := trk }
  | none =>
    let s := s.setConv x { k with acc := k.acc.set ch (sum, n, (ov + 1) % 2 ^ 16) (0, 0, 0) }
    if x = 0 then s.raise R.monStatus F.monStatusOvrA R.monOvraEvt else s.raise R.monStatus F.monStatusOvrB R.monOvrbEvt

/-- Both results of a cross-check are compared (R369). -/
def State.compareXchk (s : State) : State :=
  match s.mon.x0, s.mon.x1 with
  | some a, some b =>
    let s : State := { s with mon := { s.mon with x0 := none, x1 := none } }
    match a, b with
    | some a, some b =>
      let d := (a - b).natAbs
      let s := (s.setF R.monXchkLast F.monXchkLastCodes d).setF R.monXchkLast F.monXchkLastValid 1
      if s.getF R.monXchkThr F.monXchkThrCodes < d then
        (s.raise R.monStatus F.monStatusXchkFail R.monXchkEvt).report Src.device E.thmMonXchk (Rep.fw 3) (Config.xchkDetail a b)
      else s
    | _, _ => s
  | _, _ => s

/-- After a result of the converter's own work (R361, R362). -/
def State.afterResult (s : State) (x : Nat) : State :=
  if ¬ s.convSeq x then s.setConvState x 1 0
  else
    let left := s.getF (R.monCvState x) F.monCvStateLeft
    if left = 0 then s.nextEntry x else s.setF (R.monCvState x) F.monCvStateLeft (left - 1)

/-- A conversion delivers a result (R364 to R369). -/
def State.deliverResult (s : State) (x : Nat) (raw : Int) (overload : Bool) : State :=
  let st := s.convState x
  if st < 3 ∨ st = 5 ∨ 6 < st then s
  else
    let ch := s.getF (R.monCvState x) F.monCvStateChan
    let r := if s.overRange x raw overload then none else some (s.convResult x raw)
    let s := s.accumulate x ch r
    if st = 3 then s.afterResult x
    else if st = 4 then (s.setF (R.monCvCmd x) F.monCvCmdUrgent 0).endTaken x
    else
      let s : State := if x = 0 then { s with mon := { s.mon with x0 := some r } } else { s with mon := { s.mon with x1 := some r } }
      s.compareXchk.endTaken x

/-- The cross-check's period has passed (R369). -/
def State.crossCheckDue (s : State) : State :=
  let per := s.getF R.monXchkCfg F.monXchkCfgPeriod
  if per = 0 ∨ s.timeUs < s.mon.xAt + per * 1000000 then s
  else
    let s : State := { s with mon := { s.mon with xAt := s.timeUs } }
    if s.xchkSkipped then s
    else if s.convTaken 0 || s.convTaken 1 then { s with mon := { s.mon with xWait := true } }
    else s.startXchk

/-! ### Triggers and control (R361, R363, R376) -/

/-- A trigger edge acts on the converter (R361, R363). -/
def State.convTrigger (s : State) (x : Nat) : State :=
  if ¬ s.convPowered x ∨ ¬ s.convRuns x then s
  else if s.convSeq x then (if s.convState x = 1 then s.startEntry x 0 false else s)
  else if s.convState x = 1 then s.setConvState x 3 (s.getF (R.monCvChan x) F.monCvChanChan)
  else if x = 0 then s.raise R.monStatus F.monStatusTrigOvrA R.monToaEvt
  else s.raise R.monStatus F.monStatusTrigOvrB R.monTobEvt

/-- The selected pin's edge is one that MON_CV_CTRL accepts (R363). -/
def State.edgeTaken (s : State) (x pin : Nat) (rising : Bool) : Bool :=
  let e := s.getF (R.monCvCtrl x) F.monCvCtrlEdge
  s.getF (R.monCvCtrl x) F.monCvCtrlTrig == pin && (e == 2 || (e == 0 && rising) || (e == 1 && !rising))

/-- MON_CV_CTRL is written (R361, R374, R376). A change of mode, or run cleared, ends the converter's own work. -/
def State.convCtrl (s : State) (x : Nat) (w : Word) : State :=
  if ¬ s.convPowered x then s
  else if 8 ≤ F.monCvCtrlRate.get w ∨ 5 ≤ F.monCvCtrlTrig.get w ∨ F.monCvCtrlEdge.get w = 3 then
    s.report Src.device E.thmMonCfg (Rep.fw 3) (Config.monCfgDetail x w.toNat)
  else
    let old := s.convSeq x
    let was := s.convRuns x
    let s := [F.monCvCtrlRun, F.monCvCtrlMode, F.monCvCtrlLp, F.monCvCtrlRate, F.monCvCtrlTrig, F.monCvCtrlEdge,
              F.monCvCtrlSeqLen].foldl (fun s f => s.setF (R.monCvCtrl x) f (f.get w)) s
    if s.convRuns x = was ∧ s.convSeq x = old then s
    else
      let s := s.setConv x { s.conv x with held := none, delayAt := none, delayOver := false }
      if s.convTaken x then s else s.setConvState x (b2n (s.convRuns x)) 0

/-- Converter B's domain goes off: nothing of it stays, and a running cross-check compares nothing (R366, R374). -/
def State.convBOff (s : State) : State :=
  let s : State := { s with mon := { s.mon with conv1 := Conv.init, xWait := false, x1 := some none } }
  s.compareXchk

/-! ### Snapshots (R367) -/

/-- MON_SNAP_SEL of set `t` is written with `w`: bit 31 takes the snapshot. -/
def State.snapshot (s : State) (t : Nat) (w : Word) : State :=
  let ch := F.monSnapSelChan.get w
  let x := F.monSnapSelConv.get w
  let s := (s.setF (R.monSnapSel t) F.monSnapSelChan ch).setF (R.monSnapSel t) F.monSnapSelConv x
  if F.monSnapSelSnap.get w = 0 then s
  else
    let k := s.conv x
    let (sum, n, ov) := if s.convPowered x then k.acc.getD ch (0, 0, 0) else (0, 0, 0)
    let (lo, hi) := if s.convPowered x then (k.trk.get? (32 * t + ch)).getD (2 ^ 23 - 1, -(2 ^ 23)) else (0, 0)
    let s := (s.setNat (R.monSnapSumLo t) (sum % 2 ^ 32)).setNat (R.monSnapSumHi t) (sum / 2 ^ 32)
    let s := s.setNat (R.monSnapCount t) (n + ov * 2 ^ 16)
    let s := (s.setNat (R.monSnapMin t) (ofInt 32 lo)).setNat (R.monSnapMax t) (ofInt 32 hi)
    if s.convPowered x then s.setConv x { k with trk := k.trk.del (32 * t + ch) } else s

/-! ### Factors (R372) -/

/-- Firmware writes converter `x`'s user factors from a payload of record 0x0202; none where there is no record. -/
def State.userFactor (s : State) (x : Nat) (payload : Bytes) : State :=
  if ¬ s.convPowered x then s
  else if payload.isEmpty then (s.setNat (R.monCvOfsUser x) 0).setNat (R.monCvGainUser x) (2 ^ 30)
  else (s.setNat (R.monCvOfsUser x) (leAt payload (8 * x) 4)).setNat (R.monCvGainUser x) (leAt payload (8 * x + 4) 4)

/-- The user factors of both converters. -/
def State.userFactors (s : State) (payload : Bytes) : State := (s.userFactor 0 payload).userFactor 1 payload

/-- Converter `x`'s factory factors from a payload of record 0x0102, o_fac = 0 and g_fac = 1.0 where it is not valid. -/
def State.facFactor (s : State) (x : Nat) (payload : Bytes) : State :=
  if payload.isEmpty then (s.setNat (R.monCvOfsFac x) 0).setNat (R.monCvGainFac x) (2 ^ 30)
  else (s.setNat (R.monCvOfsFac x) (leAt payload (8 * x) 4)).setNat (R.monCvGainFac x) (leAt payload (8 * x + 4) 4)

/-! ### Rails (R360, R392, R499, R502, R512) -/

/-- The least and greatest value of the rail on a channel, mV × 10, and the channel's divider (R360, R499); none for a
channel without a rail. -/
def railOf (ch : Nat) : Option (Int × Int × Int) :=
  match ch with
  | 16 => some (7275, 7725, 1)
  | 17 => some (8245, 8755, 1)
  | 18 => some (8730, 9270, 1)
  | 19 => some (17100, 18900, 2)
  | 20 => some (10670, 11330, 1)
  | 21 => some (3880, 4120, 1)
  | 22 => some (17100, 18900, 2)
  | 23 => some (8245, 8755, 1)
  | 24 => some (11640, 12360, 1)
  | 25 => some (17100, 18900, 2)
  | 26 => some (30000, 36000, 4)
  | 27 => some (7760, 8240, 1)
  | 28 => some (17460, 18540, 2)
  | _ => none

/-- Code `r` of a channel lies outside its rail's range: V = (0.625 + r × 0.625 / 2^23) × divider (R357, R499). -/
def railBad (ch : Nat) (r : Int) : Bool :=
  match railOf ch with
  | none => false
  | some (lo, hi, d) =>
    let v := 6250 * (2 ^ 23 + r) * d
    decide (v < lo * 2 ^ 23) || decide (hi * 2 ^ 23 < v)

end Sys2Proof.Machine
end

