-- ==== Sys2Proof/Machine/Programming.lean ====
section
/-! DEFINITION. Programming: the journal and its jobs, the pump arbiter, write and reverify passes, mapping switches,
refresh, stand-ins, repair and PROGRAM_MODEL (R78 to R111). -/

namespace Sys2Proof.Machine

/-! ### Places -/

/-- The package that runs. -/
def State.runPkg (s : State) : Option Pkg :=
  match s.dsp.running with
  | some k => s.dsp.pkgs.get? k
  | none => none

/-- The physical tile of logical tile `l` of the running package (R203, R99, R103). -/
def State.placeL (s : State) (l : Nat) : Nat :=
  match s.dsp.place.get? l with
  | some p => p
  | none =>
    match s.runPkg with
    | some k => let h := k.dir.homes.getD l (0, 0); tileKey h.1 h.2
    | none => 0

/-- The logical tile of the running package whose place is the physical tile `p`. -/
def State.logicalAt (s : State) (p : Nat) : Option Nat :=
  match s.runPkg with
  | some k => (List.range k.dir.homes.length).find? (fun l => s.placeL l == p)
  | none => none

/-- Logical tile `l` moves to physical tile `p`; a tile at its home is not listed. -/
def State.setPlace (s : State) (l p : Nat) : State :=
  let home := match s.runPkg with
    | some k => let h := k.dir.homes.getD l (0, 0); tileKey h.1 h.2 == p
    | none => false
  { s with dsp := { s.dsp with place := if home then s.dsp.place.del l else s.dsp.place.put l p } }

/-- State of a physical tile. -/
def State.pState (s : State) (p : Nat) : Nat := s.tileState (p / 128) (p % 128)

/-- Physical tile `p`. -/
def State.pTile (s : State) (p : Nat) : TileRt := s.tile (p / 128) (p % 128)

/-- The state with physical tile `p` holding `x`. -/
def State.setPTile (s : State) (p : Nat) (x : TileRt) : State := s.setTile (p / 128) (p % 128) x

/-- TIL_CTRL.issue_en of a physical tile. -/
def State.setIssue (s : State) (p : Nat) (b : Bool) : State :=
  s.setF (R.tilCtrl (p / 128) (p % 128)) F.tilCtrlIssueEn (b2n b)

/-- Archive slot of logical tile `l`, when loaded and verified (R98, R110). -/
def State.slotReady (s : State) (l : Nat) : Option ArcSlot :=
  match s.stk.slots.get? l with
  | some a => if a.loaded && a.verified then some a else none
  | none => none

/-- Index of a physical tile in the wear table and the journal (R457). -/
def wearIx (p : Nat) : Nat := 68 * (p / 128) + p % 128

/-- Physical tile of a wear-table index. -/
def ofWearIx (i : Nat) : Nat := tileKey (i / 68) (i % 68)

/-! ### Wear table and journal (R90, R91, R457) -/

/-- The wear table's payload. -/
def State.wearBytes (s : State) : Bytes :=
  (List.range 1088).flatMap (fun i =>
    let x := s.pTile (ofWearIx i)
    leBytes 4 (min x.cycles (2 ^ 23 - 1) + 2 ^ 23 * b2n x.retired + 2 ^ 24 * (x.sp % 256)))

/-- Firmware writes the wear table. -/
def State.writeWear (s : State) : State := s.writeRec 0x600 s.wearBytes

/-- The substitution entry of relief tile T64 + r of core c (R457). -/
def State.subEntry (s : State) (c r : Nat) : Nat :=
  match s.cal.subs.find? (fun e => e.2 == tileKey c (64 + r)) with
  | some (x, _) => x % 128
  | none => 0xFFFF

/-- The journal's payload (R457): the last job's number, its state, the tiles of every open job, the substitutions. -/
def State.journalBytes (s : State) (st : Nat) : Bytes :=
  let tiles := s.cal.jobs.flatMap (fun e => e.2.tiles)
  leBytes 4 (s.cal.nextJob - 1) ++ leBytes 1 (if s.cal.jobs.isEmpty then st else 1) ++ leBytes 3 0
    ++ leBytes 136 (tiles.foldl (fun n p => Nat.lor n (2 ^ wearIx p)) 0)
    ++ (List.range 64).flatMap (fun i => leBytes 2 (s.subEntry (i / 4) (i % 4)))

/-- Firmware writes the journal; `st` is the state of a job that has just ended. -/
def State.writeJournal (s : State) (st : Nat) : State := s.writeRec 0x602 (s.journalBytes st)

/-- A job opens (R91): its record is written before the first write pass. -/
def State.openJob (s : State) (k : JobKind) (tiles : List Nat) : State :=
  let n := s.cal.nextJob
  ({ s with cal := { s.cal with jobs := s.cal.jobs.put n ⟨k, tiles, 0⟩, nextJob := n + 1 } } : State).writeJournal 1

/-- A job ends with state `st`: the wear table is updated and the journal closed (R91). -/
def State.closeJob (s : State) (n st : Nat) : State :=
  (({ s with cal := { s.cal with jobs := s.cal.jobs.del n } } : State).writeWear).writeJournal st

/-- Move a job on. -/
def State.stepJob (s : State) (n : Nat) (j : Job) (st : Nat) : State :=
  { s with cal := { s.cal with jobs := s.cal.jobs.put n { j with step := st } } }

/-- The open job that names physical tile `p`. -/
def State.jobOf (s : State) (p : Nat) : Option (Nat × Job) := s.cal.jobs.find? (fun e => e.2.tiles.contains p)

/-- The logical tile that a job programs into physical tile `p`. -/
def State.jobLogical (s : State) (j : Job) (p : Nat) : Option Nat :=
  match j.kind with
  | .refresh x _ => (s.pTile x).holds
  | .standIn x _ => s.logicalAt x
  | .resume => s.logicalAt p
  | .repair ts => (ts.find? (fun e => e.2 == p)).map (·.1)
  | .model k =>
    match s.dsp.pkgs.get? k with
    | some g => (List.range g.dir.homes.length).find? (fun l =>
        let h := g.dir.homes.getD l (0, 0)
        tileKey h.1 h.2 == p)
    | none => none

/-! ### The pump arbiter (R86 to R88) -/

/-- A tile waits for programming power. -/
def State.startProg (s : State) (p : Nat) : State :=
  s.setPTile p { s.pTile p with prog := some ⟨0, 0, 0, s.timeUs, false⟩ }

/-- Charge of a tile in 1/16 W (R87). -/
def ProgRun.charge (r : ProgRun) : Nat := if r.phase = 1 then 12 else if r.phase = 4 then 3 else 0

/-- The tiles with a programming pass. -/
def State.progs (s : State) : List (Nat × ProgRun) :=
  s.mc.tiles.filterMap (fun e => e.2.prog.map (fun r => (e.1, r)))

/-- A context is started: RUNNING, DRAINING, TEARING or SUSPENDED (R287). -/
def State.laneStarted (s : State) : Bool :=
  (List.range 64).any (fun x =>
    let st := s.ctxState x
    st == 2 || st == 3 || st == 4 || st == 6)

/-- The job is an online refresh or a stand-in, which refresh_budget governs (R97). -/
def Job.online (j : Job) : Bool :=
  match j.kind with
  | .refresh _ _ | .standIn _ _ => true
  | _ => false

/-- Budget in force for a tile's admission, 1/16 W (R86, R87, R97). -/
def State.pumpBudget (s : State) (p : Nat) : Nat :=
  let locked := 4 * s.getF R.pwrPumpLim F.pwrPumpLimBudget
  let online := match s.jobOf p with | some (_, j) => j.online | none => true
  if online && s.laneStarted then min locked (4 * s.tuneP P.tuneRefreshBudget) else locked

/-- No batch may start: a sensor reads 95 °C or more, or an orderly stop runs (R88). -/
def State.progHeld (s : State) : Bool :=
  s.isSet R.thmLevel F.thmLevelStopping
    || (List.range 68).any (fun i => !s.isSet (R.thmTemp i) F.thmTempFailed && decide (95 * 64 ≤ s.fwTemp i))

/-- The tile's core has a free channel, its slot is ready, and its core is powered and not fenced (R78, R110). -/
def State.pumpReady (s : State) (p : Nat) (r : ProgRun) : Bool :=
  let used := (s.progs.filter (fun e => e.1 / 128 == p / 128 && (e.2.phase == 1 || e.2.phase == 4))).length
  let slot := match s.jobOf p with
    | some (_, j) => match s.jobLogical j p with | some l => (s.slotReady l).isSome | none => false
    | none => false
  decide (used < 8) && s.domOn 68 && (r.phase == 3 || slot) && s.pState p != 0 && s.pState p != 5

/-- The waiting tiles that a channel can take. -/
def State.pumpQueue (s : State) : List (Nat × ProgRun) :=
  s.progs.filter (fun e => (e.2.phase == 0 || e.2.phase == 3) && s.pumpReady e.1 e.2)

/-- The oldest waiting tile. -/
def State.pumpHead (s : State) : Option (Nat × ProgRun) :=
  s.pumpQueue.foldl
    (fun (m : Option (Nat × ProgRun)) e => match m with
      | none => some e
      | some h => if e.2.since < h.2.since then some e else some h) none

/-- The admission keeps the charges within the budget and the tiles within the cap (R87). -/
def State.pumpFits (s : State) (p : Nat) (r : ProgRun) : Bool :=
  let on := s.progs.filter (fun e => e.2.phase == 1 || e.2.phase == 4)
  let sum := (on.map (fun e => e.2.charge)).foldl (· + ·) 0
  let add := if r.phase = 0 then 12 else 3
  decide (sum + add ≤ s.pumpBudget p ∧ on.length + 1 ≤ s.getF R.pwrPumpLim F.pwrPumpLimTiles)

/-- Rows, columns, null columns and group size of a slot's record (R107). -/
def TileRt.load (x : TileRt) (h : Bytes) : TileRt :=
  { x with rows := leAt h 0x0A 2, cols := leAt h 0x0C 2, grp := leAt h 8 1 % 4,
           nulls := (List.range 512).filter (fun c => bit (leAt h (0x40 + c / 8) 1) (c % 8)) }

/-- A tile enters its write pass (R85, R139): PROG, with nothing issued, committed or collected. -/
def State.beginWrite (s : State) (p : Nat) (r : ProgRun) : State :=
  let c := p / 128
  let t := p % 128
  match s.jobOf p with
  | none => s
  | some (_, j) =>
    match s.jobLogical j p with
    | none => s
    | some l =>
      let h := match s.slotReady l with | some a => a.hdr | none => []
      let s := (s.setIssue p false).setTileState c t 4
      let s := s.setF (R.calTileCtrl c t) F.calTileCtrlCommit 0
      let s := s.setF (R.tilCtrl c t) F.tilCtrlGrpSize (leAt h 8 1)
      let x := (s.tile c t).load h
      s.setTile c t { x with q := [], wantRatio := none, wantCommit := false, gaps := [], forced := false, holds := some l,
                             stale := true, prog := some { r with phase := 1, batch := 0, running := !s.progHeld } }

/-- The pump arbiter admits the oldest waiting tile when the budget and the tile cap allow (R87). DEDUCED, assumption 90. -/
def State.pumpAdmit (s : State) : State :=
  match s.pumpHead with
  | none => s
  | some (p, r) =>
    if s.pumpFits p r && !s.progHeld then
      if r.phase = 0 then s.beginWrite p r
      else s.setPTile p { s.pTile p with prog := some { r with phase := 4, batch := 0, failed := 0, running := true } }
    else s

/-- Passes held by temperature go on once no sensor reads 95 °C (R88). -/
def State.resumeProgs (s : State) : State :=
  if s.progHeld then s
  else
    { s with mc := { s.mc with tiles := s.mc.tiles.map (fun e =>
        (e.1, { e.2 with prog := e.2.prog.map (fun r =>
          if r.phase = 1 ∨ r.phase = 4 then { r with running := true } else r) })) } }

/-- Batches of a pass: 2,048 of weights and 128 of the scale store (R79). -/
def batchesPerPass : Nat := 2176

/-! ### What a tile's programming leaves (R84, R90, R101, R130) -/

/-- The relief tiles of core `c` that stand in for retired tiles. -/
def State.reliefUsed (s : State) (c : Nat) : Nat :=
  (s.cal.subs.filter (fun e => e.1 / 128 == c && (s.pTile e.1).retired)).length

/-- The relief tiles of core `c` in SPARE that take part in no job and are not withheld (R98, R101). -/
def State.spareOf (s : State) (c : Nat) : List Nat :=
  ((List.range 4).map (fun r => tileKey c (64 + r))).filter
    (fun y => s.pState y == 6 && (s.jobOf y).isNone && !(s.pTile y).withheld)

/-- Retired tiles whose logical tile has no stand-in yet, and whose slot is ready, get one where a relief tile is in SPARE
(R130). -/
def State.startStandIns (s : State) : State :=
  (s.mc.tiles.map (·.1)).foldl
    (fun s x =>
      if (s.pTile x).retired && decide (x % 128 < 64) && (s.jobOf x).isNone && (s.cal.subs.get? x).isNone
          && !s.cal.jobs.any (fun e => match e.2.kind with | .standIn z _ => z == x | _ => false) then
        match s.logicalAt x with
        | some l =>
          if (s.slotReady l).isSome then
            match s.spareOf (x / 128) with
            | y :: _ => s.openJob (.standIn x y) [y]
            | [] =>
              if 4 ≤ s.reliefUsed (x / 128) then s.report (Src.core (x / 128)) E.calReliefExhausted (Rep.fw 2) else s
          else s
        | none => s
      else s) s

/-- A mappable tile is retired (R101, R130): it is not issued, and its wear-table entry says so. -/
def State.retireTile (s : State) (x : Nat) (st : Nat) : State :=
  let s := s.setPTile x { s.pTile x with retired := true, prog := none }
  let s := (s.setIssue x false).setTileState (x / 128) (x % 128) st
  s.report (Src.tile (x / 128) (x % 128)) E.calTileRetired (Rep.fw 2)

/-- A relief tile returns to SPARE, out of a job. -/
def State.toSpare (s : State) (y : Nat) (stale : Bool) : State :=
  let a := R.tilState (y / 128) (y % 128)
  let s := s.setPTile y { s.pTile y with stale := stale, prog := none }
  let s := (s.setF a F.tilStateSubst 0).setF a F.tilStateStandsFor 0
  (s.setIssue y false).setTileState (y / 128) (y % 128) 6

/-- Relief tile `y` of job `n` has failed, or has calibrated below the threshold (R101): once more, then withheld. -/
def State.reliefFailed (s : State) (n y : Nat) : State :=
  let x := s.pTile y
  if x.fails = 0 then (s.setPTile y { x with fails := 1 }).startProg y
  else
    let s := s.setPTile y { x with withheld := true }
    let s := (s.toSpare y true).report (Src.tile (y / 128) (y % 128)) E.calReliefWithheld (Rep.fw 2)
    (s.closeJob n 0).startStandIns

/-! ### Mapping switches (R99 to R101) -/

/-- Firmware requests that logical tile `l` move to physical tile `p`. -/
def State.wantSwitch (s : State) (l p : Nat) : State := { s with cal := { s.cal with switches := s.cal.switches ++ [(l, p)] } }

/-- The tile that takes over inherits queue, gain step and quiet count, and is issued from now on (R61, R100). -/
def State.takeOver (s : State) (l old new : Nat) : State :=
  let a := R.tilRange (old / 128) (old % 128)
  let b := R.tilRange (new / 128) (new % 128)
  let s := s.setF b F.tilRangeStep (s.getF a F.tilRangeStep)
  let s := s.setF b F.tilRangeQuiet (s.getF a F.tilRangeQuiet)
  let q := (s.pTile old).q
  let s := s.setPTile new { s.pTile new with q := (s.pTile new).q ++ q }
  let s := s.setPTile old { s.pTile old with q := [] }
  let s := (s.setIssue new true).setIssue old false
  (s.syncStep (new / 128) (new % 128)).setPlace l new

/-- The physical tile's fidelity is at or above its core's threshold. -/
def State.fidOk (s : State) (p : Nat) : Bool :=
  decide (s.thresh (p / 128) ≤ s.getF (R.tilFidelity (p / 128) (p % 128)) F.tilFidelityFid)

/-- A relief tile stands in for tile `x` of its core: it reads subst = 1 and stands_for = x (R99). -/
def State.standFor (s : State) (x y : Nat) : State :=
  let a := R.tilState (y / 128) (y % 128)
  let s := (s.setF a F.tilStateSubst 1).setF a F.tilStateStandsFor (x % 128)
  let s := s.setTileState (y / 128) (y % 128) (if s.fidOk y then 2 else 3)
  { s with cal := { s.cal with subs := s.cal.subs.put x y } }

/-- Every target of the repair is in place. -/
def State.repairDone (s : State) (ts : List (Nat × Nat)) : Bool := ts.all (fun e => s.placeL e.1 == e.2)

/-- What a switch of logical tile `l` to `new` does to the job that asked for it (R99, R101 to R103). -/
def State.afterSwitch (s : State) (n : Nat) (j : Job) (l new : Nat) : State :=
  match j.kind with
  | .refresh x y =>
    if new = y then ((s.standFor x y).stepJob n { j with step := 3 } 3).writeJournal 1
    else
      let s : State := { s with cal := { s.cal with subs := s.cal.subs.del x } }
      ((s.toSpare y false).closeJob n 0).startStandIns
  | .standIn x y => (s.standFor x y).closeJob n 0
  | .repair ts =>
    let s : State := { s with cal := { s.cal with repaired := s.cal.repaired ++ [l] } }
    let s := if s.tileState (new / 128) (new % 128) = 6 then
        s.setTileState (new / 128) (new % 128) (if s.fidOk new then 2 else 3) else s
    if s.repairDone ts then s.closeJob n 0 else s
  | .model _ | .resume => s

/-- The requested switch away from physical tile `old` takes effect, if no input is partly issued to it (R100). -/
def State.doSwitch (s : State) (old : Nat) : State :=
  match s.cal.switches.find? (fun e => s.placeL e.1 == old) with
  | none => s
  | some (l, new) =>
    if !(s.pTile old).whole then s
    else
      let s : State := { s with cal := { s.cal with switches := s.cal.switches.filter (fun e => e != (l, new)) } }
      let s := s.takeOver l old new
      match s.cal.jobs.find? (fun e => match e.2.kind with
          | .refresh x y => (x == old && y == new) || (y == old && x == new)
          | .standIn x y => x == old && y == new
          | .repair ts => ts.contains (l, new)
          | .model _ | .resume => false) with
      | some (n, j) => s.afterSwitch n j l new
      | none => s

/-! ### Jobs move on -/

/-- The journal's payload names every tile of the job. -/
def journalNames (payload : Bytes) (j : Job) : Bool := j.tiles.all (fun p => bit (leAt payload 8 136) (wearIx p))

/-- The journal's payload lists the substitution of `x` by `y`. -/
def journalSubs (payload : Bytes) (x y : Nat) : Bool :=
  leAt payload (144 + 2 * (4 * (y / 128) + (y % 128 - 64))) 2 == x % 128

/-- The tiles whose write passes come once the job's record is written: Y of a refresh, every tile otherwise (R99, R111). -/
def Job.firstTiles (j : Job) : List Nat :=
  match j.kind with
  | .refresh _ y => [y]
  | _ => j.tiles

/-- A journal page pair has been written with `payload`: jobs that waited for it go on (R91, R99). -/
def State.journalWritten (s : State) (payload : Bytes) : State :=
  s.cal.jobs.foldl
    (fun s e =>
      let j := e.2
      if j.step = 0 && journalNames payload j then
        j.firstTiles.foldl State.startProg (s.stepJob e.1 j 1)
      else if j.step = 3 then
        match j.kind with
        | .refresh x y => if journalSubs payload x y then (s.stepJob e.1 j 4).startProg x else s
        | _ => s
      else s) s

/-! ### Refresh (R97 to R99) -/

/-- Refreshes in progress in core `c`, or in the device. -/
def State.refreshes (s : State) (c : Option Nat) : Nat :=
  (s.cal.jobs.filter (fun e => match e.2.kind with
    | .refresh x _ => match c with | some k => x / 128 == k | none => true
    | _ => false)).length

/-- A refresh of tile `x` may start, and through which relief tile (R98). -/
def State.refreshThrough (s : State) (x : Nat) : Option Nat :=
  let c := x / 128
  match (s.pTile x).holds with
  | none => none
  | some l =>
    if s.refreshes (some c) < s.tuneP P.tuneRefreshMaxCore && (s.slotReady l).isSome && (s.jobOf x).isNone
        && s.placeL l == x then (s.spareOf c).head? else none

/-- The mappable tiles in BELOW, in order of core and tile. -/
def State.belowTiles (s : State) : List Nat :=
  (List.range 16).flatMap (fun c => ((List.range 64).filter (fun t => s.tileState c t == 3)).map (tileKey c))

/-- The fidelity of a physical tile. -/
def State.fidOf (s : State) (p : Nat) : Nat := s.getF (R.tilFidelity (p / 128) (p % 128)) F.tilFidelityFid

/-- Of the BELOW tiles that may start, the one of lowest fidelity, lowest core, lowest tile (R98).
DEDUCED, assumption 91. -/
def State.refreshPick (s : State) : Option (Nat × Nat) :=
  s.belowTiles.foldl
    (fun (m : Option (Nat × Nat)) x => match s.refreshThrough x with
      | none => m
      | some y => match m with
        | none => some (x, y)
        | some (z, _) => if s.fidOf x < s.fidOf z then some (x, y) else m) none

/-- Firmware starts a refresh (R98, R99). A BELOW tile whose core has no relief tile left is logged (R101). -/
def State.refreshStart (s : State) : State :=
  let s := (List.range 16).foldl
    (fun s c => if s.belowTiles.any (fun x => x / 128 == c) && decide (4 ≤ s.reliefUsed c) then
        s.report (Src.core c) E.calReliefExhausted (Rep.fw 2) else s) s
  if s.refreshes none < s.tuneP P.tuneRefreshMaxDev && !s.progHeld then
    match s.refreshPick with
    | some (x, y) => (s.setPTile y { s.pTile y with fails := 0 }).openJob (.refresh x y) [y, x]
    | none => s
  else s

/-! ### Repair (R102, R103) -/

/-- FLT_CORE_STATE of core `c`: 0 live, 1 rung 1, 2 rung 2, 3 fenced until the next boot (R424). -/
def State.coreState (s : State) (c : Nat) : Nat := s.regNat R.fltCoreState / 4 ^ c % 4

/-- Core `c` is fenced until the next boot. -/
def State.coreFenced (s : State) (c : Nat) : Bool := s.coreState c == 3

/-- Programming passes under way in core `c`. -/
def State.channelsUsed (s : State) (c : Nat) : Nat := (s.progs.filter (fun e => e.1 / 128 == c)).length

/-- Insert a core by its free channels, most first; equal ones stay in order. -/
def insertCore (s : State) (c : Nat) : List Nat → List Nat
  | [] => [c]
  | d :: ds => if s.channelsUsed c < s.channelsUsed d then c :: d :: ds else d :: insertCore s c ds

/-- The live cores, most free pump channels first (R103). -/
def State.liveCores (s : State) : List Nat :=
  ((List.range 16).filter (fun c => !s.coreFenced c)).foldl (fun l c => insertCore s c l) []

/-- The mappable tiles of core `c` that no package tile occupies, that are not retired and that no job names. -/
def State.openTiles (s : State) (c : Nat) : List Nat :=
  ((List.range 64).map (tileKey c)).filter
    (fun p => (s.logicalAt p).isNone && !(s.pTile p).retired && (s.jobOf p).isNone
      && !s.cal.jobs.any (fun e => e.2.tiles.contains p))

/-- The relief tiles of core `c` that a repair may take (R103). -/
def State.repairRelief (s : State) (c : Nat) : List Nat :=
  let sp := s.spareOf c
  sp.take (sp.length - s.tuneP P.tuneRepairKeepRelief)

/-- A repair job has a target for logical tile `l`. -/
def State.inRepair (s : State) (l : Nat) : Bool :=
  s.cal.jobs.any (fun e => match e.2.kind with | .repair ts => ts.any (fun w => w.1 == l) | _ => false)

/-- The logical tiles of the running package that lie on core `c` and that no repair is under way for. -/
def State.lostTiles (s : State) (c : Nat) : List Nat :=
  match s.runPkg with
  | some k => (List.range k.dir.homes.length).filter (fun l => s.placeL l / 128 == c && !s.inRepair l)
  | none => []

/-- Copies that may be dropped: a layer with another copy on live cores only, highest layer first (R103). -/
def State.dropCopy (s : State) : Option (Nat × Nat × List Nat) :=
  match s.runPkg with
  | none => none
  | some k =>
    k.dir.layers.foldl
      (fun (m : Option (Nat × Nat × List Nat)) l =>
        let ok := fun (c : List Nat) => c.all (fun i => !s.coreFenced (s.placeL i / 128))
        let left := l.copies.zipIdx.filter (fun e => !s.dsp.dropped.contains (l.index, e.2) && ok e.1)
        match left with
        | _ :: e :: _ => match m with
          | some (i, _) => if i < l.index then some (l.index, e.2, e.1) else m
          | none => some (l.index, e.2, e.1)
        | _ => m) none

/-- Drop replicas until `n` of their tiles are free, within `fuel` copies. -/
def State.dropFor (s : State) : Nat → Nat → List Nat → State × List Nat
  | 0, _, got => (s, got)
  | fuel + 1, n, got =>
    if n ≤ got.length then (s, got)
    else match s.dropCopy with
      | none => (s, got)
      | some (l, c, tiles) =>
        let got := got ++ tiles.map s.placeL
        State.dropFor { s with dsp := { s.dsp with dropped := s.dsp.dropped ++ [(l, c)] } } fuel n got

/-- Firmware repairs the tiles of core `c` (R103): targets in order of preference; a shortage is logged. -/
def State.repairCore (s : State) (c : Nat) : State :=
  let lost := s.lostTiles c
  if lost.isEmpty then s
  else
    let free := s.liveCores.flatMap s.openTiles
    let (s, dropped) := s.dropFor 64 (lost.length - free.length) []
    let relief := s.liveCores.flatMap s.repairRelief
    let targets := lost.zip (free ++ dropped ++ relief)
    let s := if targets.length < lost.length then
        s.report (Src.core c) E.calRepairShort (Rep.fw 2) (lost.length - targets.length) else s
    let s := s.dropLostCopies
    if targets.isEmpty then s else s.openJob (.repair targets) (targets.map (·.2))

/-- A fence of core `c` abandons the jobs on its tiles (R101). -/
def State.abandonJobs (s : State) (p : Job → Bool) : State :=
  let hit := s.cal.jobs.filter (fun e => p e.2)
  hit.foldl
    (fun s e =>
      let j := e.2
      let s := j.tiles.foldl (fun s p => s.setPTile p { s.pTile p with prog := none }) s
      let s : State := { s with cal := { s.cal with switches := s.cal.switches.filter (fun w => !j.tiles.contains w.2) } }
      let s := match j.kind with
        | .refresh x _ => s.report (Src.tile (x / 128) (x % 128)) E.calRefreshAbandoned (Rep.fw 2)
        | _ => s
      s.closeJob e.1 2) s

/-! ### PROGRAM_MODEL (R101, R111) -/

/-- Every substitution and repair is dissolved: relief tiles in CAL or BELOW return to SPARE. -/
def State.dissolve (s : State) : State :=
  let ys := s.cal.subs.map (·.2)
  let s : State := { s with cal := { s.cal with subs := [], repaired := [], switches := [] },
                            dsp := { s.dsp with place := [], dropped := [] } }
  ys.foldl (fun s y => if s.pState y = 2 ∨ s.pState y = 3 then s.toSpare y true else s) s

/-- The job that programs package `k` at home positions opens (R111). -/
def State.openModel (s : State) (k : Nat) : State :=
  let s : State := { s with cal := { s.cal with modelWait := none } }
  let s := (s.abandonJobs (fun _ => true)).dissolve
  match s.dsp.pkgs.get? k with
  | none => s
  | some g => s.openJob (.model k) ((g.dir.homes.filter (fun h => !s.coreFenced h.1)).map (fun h => tileKey h.1 h.2))

/-- Every tile of the model is programmed and calibrated, or retired. -/
def State.modelDone (s : State) (j : Job) : Bool :=
  decide (0 < j.step) && j.tiles.all (fun p => (s.pTile p).prog.isNone && (s.pState p == 2 || s.pState p == 3))

/-- The final reply of the PROGRAM_MODEL that runs carries the first error of its job (R481, R482). -/
def State.modelErr (s : State) (j : Job) (code : Nat) : State :=
  match j.kind with
  | .model _ => { s with sdm := { s.sdm with long := s.sdm.long.map (fun l => if l.err = 0 then { l with err := code } else l) } }
  | _ => s

/-- Payload of the programmed-image hash record (R457). -/
def Pkg.hashRec (g : Pkg) (k : Nat) : Bytes := takeAt g.weightHash 0 32 ++ leBytes 1 k ++ leBytes 3 0

/-! ### A pass ends (R79 to R84) -/

/-- An entry of the calibration cache (R123). The tile's temperature is the mean of its core's sensors. -/
def State.cacheEntry (s : State) (c t : Nat) : Bytes :=
  let x := s.tile c t
  let flags := b2n (s.tileTracked c t) + 2 * b2n (s.tileState c t == 6)
  leBytes 1 c ++ leBytes 1 t ++ leBytes 2 (trimGet x.act vreadKey)
    ++ (List.range 4).flatMap (fun g => leBytes 1 (trimGet x.act (trimKey (529 + g) false))) ++ leBytes 4 x.cycles
    ++ leBytes 2 (ofInt 16 (s.coreTemp4 c / 4)) ++ leBytes 2 (s.getF (R.tilFidelity c t) F.tilFidelityFid)
    ++ leBytes 2 (s.getF (R.tilPipGain c t) F.tilPipGainRatio) ++ leBytes 2 flags ++ leBytes 12 0

/-- Factory-calibration revision of record 0x0100, 0 when it is not valid (R118). -/
def State.fcalRev (s : State) : Nat := match s.recOf 0x0100 with | some p => leAt p 0 4 | none => 0

/-- Payload of the calibration cache (R123). -/
def State.cacheBytes (s : State) : Bytes :=
  let h := match s.runPkg with | some g => takeAt g.weightHash 0 32 | none => leBytes 32 0
  leBytes 4 1088 ++ leBytes 4 s.fcalRev ++ h ++ leBytes 4 (s.counter 3) ++ leBytes 20 0
    ++ (List.range 16).flatMap (fun c => (List.range 68).flatMap (fun t => s.cacheEntry c t))

/-- Firmware writes the calibration cache (R123, R463). -/
def State.writeCache (s : State) : State :=
  ({ s with cal := { s.cal with cacheAt := s.timeUs } } : State).enqueue 6 (.cache s.cacheBytes)

/-- The model's job ends when its last tile is done (R111): the hash record, the wear table and the cache are written. -/
def State.modelCheck (s : State) (n : Nat) : State :=
  match s.cal.jobs.get? n with
  | some j =>
    match j.kind with
    | .model k =>
      if s.modelDone j then
        let s := s.closeJob n 0
        match s.dsp.pkgs.get? k with
        | some g => ((s.writeRec 0x500 (g.hashRec k) true).writeCache).startStandIns
        | none => s
      else s
    | .resume =>
      if s.modelDone j then ((s.closeJob n 0).report Src.device E.calJobResumed (Rep.fw 2) n).startStandIns else s
    | _ => s
  | none => s

/-- A tile of job `n` has failed its programming (R84, R101, R103). -/
def State.progFailed (s : State) (n : Nat) (j : Job) (p : Nat) : State :=
  match j.kind with
  | .refresh x _ => if p = x then ((s.retireTile p 4).closeJob n 0).startStandIns else s.reliefFailed n p
  | .standIn _ _ => s.reliefFailed n p
  | .repair ts =>
    let s := if p % 128 < 64 then s.retireTile p 4 else (s.setPTile p { s.pTile p with withheld := true }).toSpare p true
    let ts' := ts.filter (fun e => e.2 != p)
    let s := s.stepJob n { j with kind := .repair ts', tiles := j.tiles.filter (· != p) } j.step
    let s := if s.repairDone ts' then s.closeJob n 0 else s
    match ts.find? (fun e => e.2 == p) with
    | some (l, _) => s.repairCore (s.placeL l / 128)
    | none => s
  | .model _ | .resume =>
    ((s.retireTile p 4).stepJob n { j with tiles := j.tiles.filter (· != p) } j.step).modelCheck n

/-- A batch of tile `p`'s pass ended with `failed` cells outside the window (R79, R81, R83, R84). -/
def State.batchDone (s : State) (p failed : Nat) : State :=
  let x := s.pTile p
  match x.prog with
  | none => s
  | some r =>
    if !r.running then s
    else
      let r := { r with batch := r.batch + 1, failed := if r.phase = 4 then r.failed + failed else r.failed,
                        running := !s.progHeld }
      if r.batch < batchesPerPass then s.setPTile p { x with prog := some r }
      else if r.phase = 1 then
        let s := s.setPTile p { x with cycles := x.cycles + 1, prog := some ⟨2, 0, 0, s.timeUs, false⟩ }
        if x.cycles + 1 = s.tuneP P.tuneWearWarn then
          s.report (Src.tile (p / 128) (p % 128)) E.calWearWarn (Rep.fw 2) (x.cycles + 1)
        else s
      else
        let sp := Config.freeValue s.fresh % 256
        let s : State := { s with fresh := s.fresh + 1 }
        let s := s.setPTile p { x with prog := none, sp := sp, stale := decide (64 < r.failed) }
        let s := s.setTileState (p / 128) (p % 128) 1
        if r.failed ≤ 64 then s
        else
          let s := s.report (Src.tile (p / 128) (p % 128)) E.calProgFailed (Rep.fw 2) r.failed
          match s.jobOf p with
          | some (n, j) => (s.modelErr j E.calProgFailed).progFailed n j p
          | none => s

/-- At least 100 ms after its write pass the tile's settle-and-reverify pass waits for power, or starts (R83, R87). -/
def State.settle2 (s : State) (p : Nat) : State :=
  let x := s.pTile p
  match x.prog with
  | some r =>
    if r.phase = 2 ∧ r.since + 100000 ≤ s.timeUs then
      let s := s.setPTile p { x with prog := some { r with phase := 3, since := s.timeUs } }
      match s.pumpHead with
      | some (h, _) => if h = p then s.pumpAdmit else s
      | none => s
    else s
  | none => s

/-! ### A tile of a job is calibrated (R99, R101, R103, R111) -/

/-- Tile `p` of job `n` has been calibrated. -/
def State.jobCalibrated (s : State) (n : Nat) (j : Job) (p : Nat) : State :=
  match j.kind with
  | .refresh x y =>
    match (s.pTile x).holds with
    | none => s
    | some l =>
      if p = y then
        if s.fidOk y then (s.stepJob n j 2).wantSwitch l y else s.reliefFailed n y
      else if s.fidOk x then (s.stepJob n j 5).wantSwitch l x
      else ((s.retireTile x 4).closeJob n 0).startStandIns
  | .standIn x y =>
    match s.logicalAt x with
    | some l => if s.fidOk y then (s.stepJob n j 2).wantSwitch l y else s.reliefFailed n y
    | none => s.closeJob n 0
  | .repair ts =>
    match ts.find? (fun e => e.2 == p) with
    | some (l, _) => s.wantSwitch l p
    | none => s
  | .model _ | .resume =>
    let x := s.pTile p
    let s := if x.retired then
        if s.fidOk p then s.setPTile p { x with retired := false }
        else s.stepJob n { j with tiles := j.tiles.filter (· != p) } j.step
      else s
    let s := if s.fidOk p then s else if x.retired then s.retireTile p 4 else s
    s.modelCheck n

end Sys2Proof.Machine
end

