-- ==== Sys2Proof/Machine/Power.lean ====
section
/-! DEFINITION. Power domains, the wake sequencer, the load-step handshake, power states and thermal control (R378 to
R397). -/

namespace Sys2Proof.Machine

/-! ### Which domain holds a register (R378) -/

/-- The switched domain whose wake resets the register at `a`, none for the always-on domain (R378, R379).
DEDUCED, assumption 96. -/
def domainOf (a : Nat) : Option Nat :=
  let page := a / 0x10000
  let off := a % 0x10000
  if 16 ≤ page ∧ page < 32 then
    some (3 * (page - 16) + (if off < 0x4000 then 0 else 1))
  else match page with
    | 1 => if a = R.idBoot then none else some 60
    | 4 => if (0x140 ≤ off ∧ off < 0x180) ∨ (0x500 ≤ off ∧ off < 0x600) then some 62 else none
    | 5 => if 0x200 ≤ off ∧ off < 0x300 then some 63 else none
    | 7 => if off < 0x100 then some 69 else some (52 + (off - 0x100) / 0x40)
    | 8 => some 64
    | 11 => some 66
    | 12 => some 48
    | _ => none

/-- The registers of domain `d` return to their reset values (R379). -/
def State.resetDomRegs (s : State) (d : Nat) : State :=
  { s with regs := s.regs.filter (fun e => domainOf e.1 != some d) }

/-- Weight of a domain in 0.25 A, ramp in µs, and step current in 10 mA with its rail: 0 CORE, 1 SRAM, 2 XA, 3 SER, 4 MON,
5 IO, 6 XH (R378). -/
def domSpec (d : Nat) : Nat × Nat × Nat × Nat :=
  if d < 48 then (if d % 3 = 0 then (2, 20, 25, 2) else if d % 3 = 1 then (8, 20, 100, 0) else (4, 20, 50, 1))
  else if d < 52 then (6, 50, 150, 0)
  else if d < 56 then (2, 20, 30, 3)
  else if d < 58 then (3, 20, 50, 3)
  else if d < 60 then (1, 20, 10, 3)
  else match d with
    | 60 => (4, 20, 80, 0)
    | 61 => (1, 20, 10, 0)
    | 62 => (1, 20, 2, 4)
    | 63 => (1, 20, 5, 4)
    | 64 => (1, 20, 5, 2)
    | 65 => (1, 20, 5, 5)
    | 66 => (3, 20, 60, 0)
    | 67 => (1, 20, 2, 5)
    | 68 => (2, 20, 5, 6)
    | _ => (2, 20, 30, 0)

/-- A word with one bit set or cleared. -/
def putBit (w : Nat) (i : Nat) (b : Bool) : Nat :=
  let w' := w - (if bit w i then 2 ^ i else 0)
  if b then w' + 2 ^ i else w'

/-- PWR_DOM_ON of domain `d`. -/
def State.setDomOn (s : State) (d : Nat) (b : Bool) : State :=
  s.setNat (R.pwrDomOn (d / 32)) (putBit (s.regNat (R.pwrDomOn (d / 32))) (d % 32) b)

/-- PWR_DOM_REQ of domain `d`. -/
def State.setDomReq (s : State) (d : Nat) (b : Bool) : State :=
  s.setNat (R.pwrDomReq (d / 32)) (putBit (s.regNat (R.pwrDomReq (d / 32))) (d % 32) b)

/-! ### What a domain's unit loses and regains -/

/-- A tile whose crossbar domain is off: its cells, its factory record and firmware's records of it stay (R382). -/
def TileRt.off (x : TileRt) : TileRt :=
  { TileRt.init with
    rows := x.rows, cols := x.cols, nulls := x.nulls, grp := x.grp, holds := x.holds, stale := x.stale || x.prog.isSome,
    fac := x.fac, cycles := x.cycles, sp := x.sp, retired := x.retired, fails := x.fails, withheld := x.withheld }

/-- The tiles of core `c` lose what needs power, and read OFF, or FENCED when the core is fenced (R67). -/
def State.tilesOff (s : State) (c : Nat) (st : Nat) : State :=
  let s : State := { s with mc := { s.mc with
    tiles := (s.mc.tiles.map (fun e => if e.1 / 128 = c then (e.1, e.2.off) else e)).filter (fun e => decide (e.2 ≠ TileRt.init)) } }
  (List.range 68).foldl (fun s t => (s.setTileState c t st).setIssue (tileKey c t) false) s

/-- Power-up calibration of the tiles of core `c` is to come (R67, R101): each is UNCAL, a retired one stays in PROG.
DEDUCED, assumption 92. -/
def State.tilesOn (s : State) (c : Nat) : State :=
  let a := R.tilSummary c
  let s := ((s.setF a F.tilSummaryNCal 0).setF a F.tilSummaryNBelow 0).setF a F.tilSummaryNOther 68
  let s := s.setF (R.tilThresh c) F.tilThreshThresh (s.tuneP P.tuneRefreshThresh)
  (List.range 68).foldl
    (fun s t =>
      let x := s.tile c t
      let s := s.setF (R.tilState c t) F.tilStateState (if s.coreFenced c then 5 else if x.retired then 4 else 1)
      s.setF (R.tilCtrl c t) F.tilCtrlGrpSize x.grp) s

/-- The accumulators and scratchpad of core `c` are lost. -/
def State.sramOff (s : State) (c : Nat) : State :=
  { s with mc := { s.mc with
    acc := s.mc.acc.filter (fun e => e.1 / 1024 != c), scratch := s.mc.scratch.filter (fun e => e.1 / 2 ^ 24 != c),
    meshWait := s.mc.meshWait.filter (fun e => e.1 != c) } }

/-- The dispatcher's instances and tokens are lost. -/
def State.dispatcherOff (s : State) : State :=
  { s with dsp := { s.dsp with insts := [], tokens := [], gathers := [], strips := [], lastToken := [], defaulted := [] } }

/-- A domain is off: PWR_DOM_ON reads 0 and what its unit held is lost. -/
def State.domOff (s : State) (d : Nat) : State :=
  let s := s.setDomOn d false
  let s : State := { s with pwr := { s.pwr with ramping := s.pwr.ramping.del d, queue := s.pwr.queue.filter (· != d),
                                                gateAfter := s.pwr.gateAfter.filter (· != d) } }
  if d < 48 then
    if d % 3 = 0 then s.tilesOff (d / 3) (if s.coreFenced (d / 3) then 5 else 0)
    else if d % 3 = 2 then s.sramOff (d / 3)
    else s
  else if 52 ≤ d ∧ d < 60 then
    let p := d - 52
    let s := if s.attached p then s.detach p 5 else s
    (s.enterTrain p).setPortState p 0
  else if d = 60 then { s with sys := { s.sys with ccUp := false }, flt := { s.flt with pending := [] } }
  else if d = 62 then s.convBOff
  else if d = 64 then s.losePower
  else if d = 66 then s.dispatcherOff
  else s

/-- A domain is awake: its registers hold their reset values (R379). -/
def State.domWake (s : State) (d : Nat) : State :=
  let s := (s.resetDomRegs d).setDomOn d true
  if d < 48 ∧ d % 3 = 0 then s.tilesOn (d / 3) else s

/-- PWR_STATE.ramping and queued follow the sequencer. -/
def State.syncPwr (s : State) : State :=
  let w := (s.pwr.ramping.map (fun e => (domSpec e.1).1)).foldl (· + ·) 0
  let s := s.setF R.pwrState F.pwrStateRamping w
  s.setF R.pwrState F.pwrStateQueued s.pwr.queue.length

/-! ### The load-step handshake (R386) -/

/-- LOAD_STEP_REQ is asserted when a planned step waits, LOAD_STEP_ACK is deasserted and no step is under way. -/
def State.tryReq (s : State) : State :=
  if !s.pwr.steps.isEmpty && !s.pwr.ack && s.pwr.reqAt.isNone then
    ({ s with pwr := { s.pwr with reqAt := some s.timeUs, madeAt := none } } : State).emit (.pin "LOAD_STEP_REQ" true)
  else s

/-- A planned step is made after the handshake. -/
def State.planStep (s : State) (p : PlanStep) : State :=
  if s.pwr.steps.contains p then s
  else ({ s with pwr := { s.pwr with steps := s.pwr.steps ++ [p] } } : State).tryReq

/-- disp_en and a fall to level 0 are planned steps: PWR_LOADSTEP.en is 1 and 2.2 A per awake core digital domain exceeds
load_step_a. -/
def State.bigStep (s : State) : Bool :=
  let n := ((List.range 16).filter (fun c => s.domOn (3 * c + 1))).length
  s.isSet R.pwrLoadstep F.pwrLoadstepEn && decide (10 * s.getF R.pwrLoadstep F.pwrLoadstepAmps < 22 * n)

/-- Step currents on the rail of domain `d` that change in this cycle with it, 10 mA. -/
def State.railStep (s : State) (d : Nat) (l : Tab Nat) : Nat :=
  let r := (domSpec d).2.2.2
  ((l.filter (fun e => e.2 == s.timeUs && e.1 != d && (domSpec e.1).2.2.2 == r)).map (fun e => (domSpec e.1).2.2.1)).foldl
    (· + ·) (domSpec d).2.2.1

/-- The wake or gating of domain `d` in this cycle is a planned step. -/
def State.domStep (s : State) (d : Nat) (l : Tab Nat) : Bool :=
  s.isSet R.pwrLoadstep F.pwrLoadstepEn && decide (100 * s.getF R.pwrLoadstep F.pwrLoadstepAmps < s.railStep d l)

/-! ### The sequencer (R380) -/

/-- Domain `d` starts to ramp. -/
def State.startRamp (s : State) (d : Nat) : State :=
  ({ s with pwr := { s.pwr with queue := s.pwr.queue.filter (· != d), ramping := s.pwr.ramping.put d s.timeUs } } : State).syncPwr

/-- A wake request joins the queue; one for a domain that is awake, ramping or queued changes nothing. -/
def State.wakeReq (s : State) (d : Nat) : State :=
  let s := s.setDomReq d true
  if s.domOn d || s.pwr.queue.contains d || ((s.pwr.ramping.get? d).isSome && !s.pwr.gateAfter.contains d) then s
  else ({ s with pwr := { s.pwr with queue := s.pwr.queue ++ [d] } } : State).syncPwr

/-- The head of the queue starts once its weight fits; while it waits, inrush_wait is set (R380). -/
def State.wakeStart (s : State) : State :=
  match s.pwr.queue with
  | [] => s
  | d :: _ =>
    let w := (s.pwr.ramping.map (fun e => (domSpec e.1).1)).foldl (· + ·) (domSpec d).1
    if (s.pwr.ramping.get? d).isSome || s.pwr.steps.contains (.wake d) then s
    else if s.getF R.pwrInrushBudget F.pwrInrushBudgetValue < w then s.raise R.pwrStatus F.pwrStatusInrushWait R.pwrInrEvt
    else if s.domStep d s.pwr.ramping then s.planStep (.wake d)
    else s.startRamp d

/-- A domain that is on is gated now (R380). -/
def State.gateNow (s : State) (d : Nat) : State :=
  (({ s with pwr := { s.pwr with gated := s.pwr.gated.put d s.timeUs } } : State).domOff d).syncPwr

/-- A gate request (R380): it waits for the end of a ramp, or for the handshake. -/
def State.gateReq (s : State) (d : Nat) : State :=
  let s := s.setDomReq d false
  let s := ({ s with pwr := { s.pwr with queue := s.pwr.queue.filter (· != d) } } : State).syncPwr
  if (s.pwr.ramping.get? d).isSome then
    if s.pwr.gateAfter.contains d then s else { s with pwr := { s.pwr with gateAfter := s.pwr.gateAfter ++ [d] } }
  else if !s.domOn d then s
  else if s.domStep d s.pwr.gated then s.planStep (.gate d)
  else s.gateNow d

/-- Power-good of a ramping domain (R379): it is awake, or gated where a gate request waits. -/
def State.rampEnd (s : State) (d : Nat) : State :=
  if (s.pwr.ramping.get? d).isNone then s
  else
    let s : State := { s with pwr := { s.pwr with ramping := s.pwr.ramping.del d } }
    let s := (s.domWake d).syncPwr
    if s.pwr.gateAfter.contains d then s.gateNow d else s

/-- Twice the ramp has passed without power-good (R379): the domain is switched off again. The second part tells whether
the row applied. -/
def State.rampFail (s : State) (d : Nat) : State × Bool :=
  match s.pwr.ramping.get? d with
  | some t =>
    if t + 2 * (domSpec d).2.1 ≤ s.timeUs then
      let s := (s.domOff d).syncPwr
      ((s.raise R.pwrStatus F.pwrStatusDomFail R.pwrDomfEvt).report (Src.domain d) E.pwrDomainFail Rep.power, true)
    else (s, false)
  | none => (s, false)

/-! ### Throttle levels (R390, R391) -/

/-- The level that applies: the thermal level, the power-caused level, level 2 of a stop (R390 to R392, R395). -/
def State.wantLevel (s : State) : Nat :=
  let stop := if s.isSet R.thmLevel F.thmLevelStopping then 2 else 0
  max stop (max s.thm.level (b2n (s.isSet R.thmLevel F.thmLevelPower)))

/-- THM_LEVEL follows; entering a level sets its status bit. -/
def State.applyLevel (s : State) : State :=
  let old := s.getF R.thmLevel F.thmLevelLevel
  let l := s.wantLevel
  let s := s.setF R.thmLevel F.thmLevelLevel l
  let s := s.setF R.thmLevel F.thmLevelThermal (b2n (decide (0 < s.thm.level) || s.isSet R.thmLevel F.thmLevelStopping))
  let s := if old = 0 ∧ 0 < l then s.raise R.thmStatus F.thmStatusThrottle R.thmThrEvt else s
  if old < 2 ∧ l = 2 then s.raise R.thmStatus F.thmStatusLevel2 R.thmL2Evt else s

/-- The thermal level becomes `l`; a rise is logged. -/
def State.setThermal (s : State) (l : Nat) : State :=
  let up := decide (s.thm.level < l)
  let s := ({ s with thm := { s.thm with level := l, hotAt := none, coolAt := none, coldAt := none } } : State).applyLevel
  if up then s.report Src.device E.thmThrottle Rep.thermal l else s

/-- FAULT_N is asserted (R410). -/
def State.assertFault (s : State) : State :=
  if s.flt.faultN then s
  else ({ s with flt := { s.flt with faultN := true } } : State).emit (.pin "FAULT_N" false)

/-- FAULT_N is released. -/
def State.releaseFault (s : State) : State :=
  if s.flt.faultN then ({ s with flt := { s.flt with faultN := false } } : State).emit (.pin "FAULT_N" true) else s

/-- The device recovery reset ends (R410). -/
def State.endDrr (s : State) : State :=
  match s.flt.drrAt with
  | none => s
  | some _ =>
    let s := ({ s with flt := { s.flt with drrAt := none } } : State).releaseFault
    let s := s.raise R.fltHostStatus F.fltHostStatusDrr R.fltHdrrEvt
    s.report Src.device E.fltRecovered (Rep.fw 3) 4

/-- The boot completes at this stage (R515), and with it a device recovery reset. -/
def State.bootDone (s : State) (stage : Nat) : State :=
  let s := s.setF R.idBoot F.idBootStage stage
  ({ s with sys := { s.sys with boot := none, leaving := false } } : State).endDrr

/-- Line-ready (R438). After the first one of a boot firmware loads the archive, unless the Stacks still hold it, writes the
cache, and raises the floors where the image says so (R110, R123, R444). -/
def State.lineReady (s : State) : State :=
  if s.getF R.idBoot F.idBootStage = 7 then s.bootDone 7
  else
    let s := s.bootDone 7
    let s := s.writeCache
    let s : State := if s.stk.arcPkg = s.dsp.running then s
      else { s with stk := { s.stk with arcPkg := s.dsp.running, slots := [], arcComplete := false } }
    { s with sys := { s.sys with raiseDue := decide (s.bootP P.bootFloorCommit = 1) } }

/-- A planned step is made (R386). -/
def State.makeStep (s : State) (p : PlanStep) : State :=
  match p with
  | .wake d => if s.pwr.queue.contains d then s.startRamp d else s
  | .gate d => if s.domOn d then s.gateNow d else s
  | .dispEn =>
    let s := s.setF R.dspCtrl F.dspCtrlDispEn 1
    if s.laneStarted then s.lineReady else s
  | .levelFall => if s.thm.level = 1 ∧ s.thm.coldAt.isSome then s.setThermal 0 else s
  | .powerFall => (s.setF R.thmLevel F.thmLevelPower 0).applyLevel

/-- The steps of one handshake: the oldest, with every wake and gating that waits when it is one. -/
def stepGroup : List PlanStep → List PlanStep × List PlanStep
  | [] => ([], [])
  | p :: ps =>
    let dom := fun q => match q with | PlanStep.wake _ | PlanStep.gate _ => true | _ => false
    if dom p then (p :: ps.filter dom, ps.filter (fun q => !dom q)) else ([p], ps)

/-- Krein makes the step that the handshake is for. -/
def State.makeSteps (s : State) : State :=
  let (now, later) := stepGroup s.pwr.steps
  let s : State := { s with pwr := { s.pwr with steps := later, madeAt := some s.timeUs } }
  now.foldl State.makeStep s

/-- A planned step that waits for the handshake, or is made at once (R386). -/
def State.doStep (s : State) (p : PlanStep) : State := if s.bigStep then s.planStep p else s.makeStep p

/-- LOAD_STEP_ACK is asserted: the step is made at the next boundary. -/
def State.loadAck (s : State) : State :=
  let s : State := { s with pwr := { s.pwr with ack := true } }
  if s.pwr.reqAt.isSome && s.pwr.madeAt.isNone then s.makeSteps else s

/-- LOAD_STEP_ACK is deasserted: a step that waits may assert LOAD_STEP_REQ. -/
def State.loadNack (s : State) : State := ({ s with pwr := { s.pwr with ack := false } } : State).tryReq

/-- load_step_to has passed without ACK. -/
def State.loadTimeout (s : State) : State :=
  match s.pwr.reqAt with
  | some t =>
    if s.pwr.madeAt.isNone ∧ t + s.getF R.pwrLoadstep F.pwrLoadstepTimeout ≤ s.timeUs then
      let s := s.makeSteps
      let s : State := { s with pwr := { s.pwr with cutAt := some s.timeUs } }
      (s.raise R.pwrStatus F.pwrStatusNoack R.pwrNoackEvt).report Src.device E.pwrLoadstepNoack Rep.power
    else s
  | none => s

/-- 100 µs after the step, LOAD_STEP_REQ is deasserted. -/
def State.loadReqEnd (s : State) : State :=
  match s.pwr.madeAt with
  | some t =>
    if s.pwr.reqAt.isSome ∧ t + 100 ≤ s.timeUs then
      let s : State := { s with pwr := { s.pwr with reqAt := none, madeAt := none } }
      (s.emit (.pin "LOAD_STEP_REQ" false)).tryReq
    else s
  | none => s

/-- 1 ms after a step made without ACK, the full slew_step applies (R386). -/
def State.slewBack (s : State) : State :=
  match s.pwr.cutAt with
  | some t => if t + 1000 ≤ s.timeUs then { s with pwr := { s.pwr with cutAt := none } } else s
  | none => s

/-! ### Power limit (R391) -/

/-- A 10 ms mean of the power estimate, 10 mW units. -/
def State.powerMean (s : State) (mean : Nat) : State :=
  let s := s.setF R.pwrEst F.pwrEstMw10 mean
  let lim := 100 * s.getF R.pwrLimit F.pwrLimitValue
  let low := decide (20 * mean < 19 * lim)
  let s : State := { s with pwr := { s.pwr with
    lowAt := if low then (match s.pwr.lowAt with | some t => some t | none => some s.timeUs) else none } }
  if lim < mean ∧ ¬ s.isSet R.thmLevel F.thmLevelPower then
    let s := (s.setF R.thmLevel F.thmLevelPower 1).applyLevel
    (s.raise R.pwrStatus F.pwrStatusPlimit R.pwrPlimEvt).report Src.device E.pwrLimitThrottle Rep.power mean
  else s

/-- The mean has stayed below 95% of PWR_LIMIT for 10 ms: the power-caused level ends, with the handshake where the level
falls to 0 (R386, R391). -/
def State.powerEnd (s : State) : State :=
  match s.pwr.lowAt with
  | some t =>
    if s.isSet R.thmLevel F.thmLevelPower && decide (t + 10000 ≤ s.timeUs) then
      if s.thm.level = 0 && !s.isSet R.thmLevel F.thmLevelStopping then s.doStep .powerFall
      else s.makeStep .powerFall
    else s
  | none => s

/-! ### Sensors (R387, R388) -/

/-- The sensors of the group of sensor `i`: its core's, or the stacks'. -/
def sensorGroup (i : Nat) : List Nat :=
  if i < 64 then (List.range 4).map (fun j => 4 * (i / 4) + j) else [64, 65, 66, 67]

/-- THM_TEMP.failed. -/
def State.sensorFailed (s : State) (i : Nat) : Bool := s.isSet (R.thmTemp i) F.thmTempFailed

/-- Highest of a list of readings. -/
def topOf : List Int → Option Int
  | [] => none
  | x :: xs => match topOf xs with
    | some y => some (if x < y then y else x)
    | none => some x

/-- The reading that stands for sensor `i` (R388); none when its whole group has failed. `f` reads a sensor. -/
def State.effective (s : State) (f : Nat → Int) (i : Nat) : Option Int :=
  if s.sensorFailed i then
    topOf (((sensorGroup i).filter (fun j => j != i && !s.sensorFailed j)).map f)
  else some (f i)

/-- T_max and the lowest sensor that holds it (R389). -/
def State.tMax (s : State) (f : Nat → Int) : Option (Int × Nat) :=
  (List.range 68).foldl
    (fun (m : Option (Int × Nat)) i => match s.effective f i, m with
      | some t, none => some (t, i)
      | some t, some (u, j) => if u < t then some (t, i) else some (u, j)
      | none, m => m) none

/-- A reading at an end of the readout range. -/
def atEnd (t : Int) : Bool := decide (t ≤ -55 * 64 ∨ 150 * 64 ≤ t)

/-- One sensor's conversion (R387, R388). -/
def State.sense (s : State) (i : Nat) (t : Int) : State :=
  let s := s.setF (R.thmTemp i) F.thmTempTemp (ofInt 16 t)
  let n := if atEnd t then s.thm.ends.getD i 0 + 1 else 0
  let s : State := { s with thm := { s.thm with ends := s.thm.ends.set i (min n 3) 0 } }
  if 3 ≤ n ∧ ¬ s.sensorFailed i then
    let s := s.setF (R.thmTemp i) F.thmTempFailed 1
    (s.raise R.thmStatus F.thmStatusSensorFail R.thmSenfEvt).report (Src.sensor i) E.thmSensorFail Rep.thermal
  else s

/-- Every sensor of some group has failed. -/
def State.groupLost (s : State) : Bool :=
  (List.range 17).any (fun g => (sensorGroup (4 * g)).all s.sensorFailed)

/-- A boot or a return from STANDBY that runs is abandoned (R452); a device recovery reset ends with it. -/
def State.abandonBoot (s : State) : State :=
  { s with sys := { s.sys with boot := none, leaving := false }, cal := { s.cal with running := false },
           flt := { s.flt with drrAt := none } }

/-- An orderly stop starts (R392). Cause 1: T_max; 2: a group of sensors failed; 3: a rail. -/
def State.orderlyStop (s : State) (cause : Nat) : State :=
  if s.isSet R.thmLevel F.thmLevelStopping then s
  else
    let s := s.abandonBoot.assertFault.setF R.thmLevel F.thmLevelStopping 1
    let s := s.raise R.thmStatus F.thmStatusStop R.thmStopEvt
    let s := s.applyLevel
    let s : State := { s with thm := { s.thm with stopAt := some s.timeUs, drained := false } }
    s.report Src.device E.thmStop Rep.thermal cause

/-- THM_THR in 1/64 °C. -/
def State.thr64 (s : State) : Int := 64 * (s.getF R.thmThr F.thmThrCelsius : Int)

/-- A time since which something holds. -/
def sinceIf (b : Bool) (old : Option Nat) (now : Nat) : Option Nat :=
  if b then (match old with | some t => some t | none => some now) else none

/-- The throttle acts on T_max `t` (R390). -/
def State.throttle (s : State) (t : Int) : State :=
  let thr := s.thr64
  let hot := decide (thr ≤ t)
  let s :=
    if s.thm.level = 0 then
      if thr + 192 ≤ t then s.setThermal 2 else if hot then s.setThermal 1 else s
    else if s.thm.level = 1 ∧ thr + 192 ≤ t then s.setThermal 2
    else s
  { s with thm := { s.thm with
    hotAt := sinceIf hot s.thm.hotAt s.timeUs, coolAt := sinceIf (!hot) s.thm.coolAt s.timeUs,
    coldAt := sinceIf (decide (t < thr - 320)) s.thm.coldAt s.timeUs } }

/-- THM_WARN at 95 °C, graft-corrected (R389); held passes go on below it (R88). -/
def State.warnTemp (s : State) : State :=
  match s.tMax s.fwTemp with
  | none => s
  | some (t, i) =>
    let s := if 95 * 64 ≤ t then
        if s.thm.warned then s
        else (({ s with thm := { s.thm with warned := true } } : State)).report (Src.sensor i) E.thmWarn (Rep.fw 3) (ofInt 32 t)
      else { s with thm := { s.thm with warned := false } }
    s.resumeProgs

/-- Cores whose sensors have changed by more than 0.5 °C in 100 ms (R133). -/
def State.slewCheck (s : State) : State :=
  if s.thm.prevAt + 100000 ≤ s.timeUs then
    let now := (List.range 68).map s.sensor
    let moved := fun (i : Nat) => decide (32 < (now.getD i 0 - s.thm.prev.getD i 0).natAbs)
    let cores := (List.range 16).filter (fun c => !s.thm.prev.isEmpty && (List.range 4).any (fun j => moved (4 * c + j)))
    { s with thm := { s.thm with prev := now, prevAt := s.timeUs, slewing := cores } }
  else s

/-- Every sensor is converted and T_max updated (R387 to R392). -/
def State.convertTemps (s : State) (ts : List Int) : State :=
  let s := (ts.take 68).zipIdx.foldl (fun s e => s.sense e.2 e.1) s
  let s := match s.tMax s.sensor with
    | some (t, i) =>
      let s := (s.setF R.thmMax F.thmMaxTemp (ofInt 16 t)).setF R.thmMax F.thmMaxSensor i
      let s := s.throttle t
      if 108 * 64 ≤ t then s.orderlyStop 1 else s
    | none => s
  let s := if s.groupLost then s.orderlyStop 2 else s
  s.warnTemp.slewCheck.monRecal

/-- T_max at or above THM_THR for 10 ms at level 1 (R390). -/
def State.throttleUp (s : State) : State :=
  match s.thm.hotAt with
  | some t => if s.thm.level = 1 ∧ t + 10000 ≤ s.timeUs then s.setThermal 2 else s
  | none => s

/-- T_max below its threshold for 10 ms lowers the level; level 0 comes after the handshake where one applies (R386). -/
def State.throttleDown (s : State) : State :=
  if s.thm.level = 2 then
    match s.thm.coolAt with
    | some t => if t + 10000 ≤ s.timeUs then s.setThermal 1 else s
    | none => s
  else if s.thm.level = 1 then
    match s.thm.coldAt with
    | some t =>
      if t + 10000 ≤ s.timeUs then
        if s.isSet R.thmLevel F.thmLevelPower || s.isSet R.thmLevel F.thmLevelStopping then s.makeStep .levelFall
        else s.doStep .levelFall
      else s
    | none => s
  else s

/-! ### Power states (R382, R383, R392, R394) -/

/-- Domain states of STANDBY: stacks, control cluster, security engine, monitor converter B, parameter store. -/
def standbyDom (d : Nat) : Bool := decide (48 ≤ d ∧ d < 52) || d == 60 || d == 61 || d == 62 || d == 64

/-- Switch off every domain for which `keep` does not hold. -/
def State.gateAll (s : State) (keep : Nat → Bool) : State :=
  ((List.range 70).filter (fun d => !keep d)).foldl
    (fun s d =>
      let s := s.setDomReq d false
      if s.domOn d || (s.pwr.ramping.get? d).isSome || s.pwr.queue.contains d then s.gateNow d else s) s

/-- PWR_STATE.state. -/
def State.setPwrState (s : State) (st : Nat) : State := s.setF R.pwrState F.pwrStateState st

/-- The Stacks lose their contents: folios, archive, buffers, directories (R230, R394). -/
def State.stacksLost (s : State) : State :=
  let k := s.stk
  let s : State := { s with stk := { k with
    folios := [], giveUp := [], reqs := [], fetchWait := [], appends := [], xfers := [], mem := [], built := false,
    selfRefresh := false, slots := [], arcPkg := none, arcComplete := false, remap := [], epochs := [], lastSerial := [] } }
  s.setF R.stkCtrl F.stkCtrlAdmitEn 0

/-- A hard trip (R394): every switched domain goes off without sequencing. -/
def State.hardTrip (s : State) (i : Nat) (t : Int) : State :=
  let s := (s.abandonBoot.emit (.pin "THERM_TRIP_N" false)).assertFault
  let a := R.thmTripCause
  let s := (s.setF a F.thmTripCauseTemp (ofInt 16 t)).setF a F.thmTripCauseSensor i
  let s := (s.setF a F.thmTripCauseLogged 0).setF a F.thmTripCauseValid 1
  let s := s.enterSafe 1 false
  let s := (s.gateAll (fun _ => false)).stacksLost
  let s := (s.setPwrState 3).setF R.thmLevel F.thmLevelStopping 1
  { s with thm := { s.thm with stopAt := none, drained := false, tripN := true } }

/-- The reading on which the trip comparator of sensor `i` acts (R388, R394). -/
def State.tripReading (s : State) (i : Nat) (t : Int) : Option Int :=
  if s.sensorFailed i then s.effective s.sensor i else some t

end Sys2Proof.Machine
end

