-- ==== Sys2Proof/Machine/Fabric.lean ====
section
/-! DEFINITION. The peer link: routing, heartbeats, fence notices and the fabric manager's role (R347 to R352), and folio
transfers (R262 to R265). A message is one frame of the model, whatever number of frames carries it on the link. -/

namespace Sys2Proof.Machine

/-! ### Members and routes (R347 to R349) -/

/-- This device's fabric index. -/
def State.fabIndex (s : State) : Nat := s.getF R.prtFab F.prtFabIndex

/-- Device ID of member `i` in the fabric table, 0 for none (R348). -/
def State.fabDev (s : State) (i : Nat) : Nat := s.fabP (P.fabDev0 + i)

/-- Indexes of the members in the table. -/
def State.fabMembers (s : State) : List Nat := (List.range 8).filter (fun i => decide (s.fabDev i ≠ 0))

/-- The index of a device ID in the fabric table. -/
def State.fabOf (s : State) (dev : Nat) : Option Nat := s.fabMembers.find? (fun i => s.fabDev i == dev)

/-- The fabric is configured: this device is in its own table. -/
def State.inFabric (s : State) : Bool := decide (s.fabDev s.fabIndex ≠ 0)

/-- What is known of member `i`. -/
def State.member (s : State) (i : Nat) : Member := s.prt.fab.members.getD i ⟨0, false, 0, 0, 0, 0⟩

/-- The state with member `i` known as `m`; PRT_FAB.alive follows. -/
def State.setMember (s : State) (i : Nat) (m : Member) : State :=
  let s : State := { s with prt := { s.prt with fab := { s.prt.fab with members := s.prt.fab.members.put i m } } }
  s.setF R.prtFab F.prtFabAlive (putBit (s.getF R.prtFab F.prtFabAlive) i (!m.lost))

/-- The acting fabric manager. -/
def State.actingFm (s : State) : Nat := s.prt.fab.acting.getD (s.fabP P.fabFmIndex)

/-- The role of acting manager passes to member `i`. -/
def State.setActing (s : State) (i : Nat) : State :=
  let s : State := { s with prt := { s.prt with fab := { s.prt.fab with acting := some i } } }
  s.setF R.prtFab F.prtFabFm (b2n (i == s.fabIndex))

/-- This device is the acting manager. -/
def State.isFm (s : State) : Bool := s.actingFm == s.fabIndex && s.inFabric

/-- The port towards rising (or falling) indexes. -/
def peerPort (up : Bool) : Nat := if up == Config.pp0Up then 4 else 5

/-- The port on the shorter path to member `d`; in a ring the other one when that port is detached (R349). -/
def State.routePort (s : State) (d : Nat) : Nat :=
  let i := s.fabIndex
  if Config.ring then
    let n := max s.fabMembers.length 1
    let u := (d + n - i) % n
    let v := (i + n - d) % n
    let p := peerPort (if u < v then true else if v < u then false else Config.ringTieUp)
    if s.attached p then p else 9 - p
  else peerPort (decide (i < d))

/-- The 8 B peer extension (R337). -/
def extBytes (dest src hop ctx gen : Nat) : Bytes :=
  leBytes 1 dest ++ leBytes 1 src ++ leBytes 1 hop ++ leBytes 1 ctx ++ leBytes 1 (gen % 16) ++ leBytes 3 0

/-- Send a message to member `d`. -/
def State.sendPeer (s : State) (d t : Nat) (payload : Bytes) (ctx gen : Nat := 0) : State :=
  s.sendFrame (s.routePort d) t payload (extBytes d s.fabIndex 0 ctx gen)

/-- Broadcast a message on both peer ports. -/
def State.castPeer (s : State) (t : Nat) (payload : Bytes) : State :=
  let e := extBytes 0xFF s.fabIndex 0 0 0
  (s.sendFrame 4 t payload e).sendFrame 5 t payload e

/-- What happens to a message that has arrived (R349): local delivery, forwarding by the other peer port, or a drop. -/
def State.peerRx (s : State) (p : Nat) (f : Frame) : State × Option Bytes :=
  match s.rxAttached p f, f.ext with
  | (s, some bs), some e =>
    let fwd := fun (s : State) =>
      if 7 ≤ e.hop.toNat then s.report (Src.port p) E.prtHopLimit Rep.peerLink
      else s.sendFrame (9 - p) f.hdr.type.toNat bs (extBytes e.dest.toNat e.src.toNat (e.hop.toNat + 1) e.ctx.toNat e.gen.toNat)
    if e.dest.toNat = 0xFF then
      let key := (e.src.toNat, leAt bs 0x10 4)
      if e.src.toNat = s.fabIndex ∨ s.prt.fab.seen.contains key then (s, none)
      else (fwd { s with prt := { s.prt with fab := { s.prt.fab with seen := key :: s.prt.fab.seen } } }, some bs)
    else if e.dest.toNat = s.fabIndex then (s, some bs)
    else (fwd s, none)
  | (s, _), _ => (s, none)

/-! ### Heartbeats and notices (R350, R351) -/

/-- The device's state in a heartbeat: 0 booting, 1 line-ready, 2 in device recovery reset, 3 stopping (R350). -/
def State.hbState (s : State) : Nat :=
  if s.flt.drrAt.isSome then 2
  else if s.isSet R.thmLevel F.thmLevelStopping || s.getF R.pwrState F.pwrStateState != 0 then 3
  else if s.getF R.idBoot F.idBootStage = 7 then 1 else 0

/-- Map of fenced cores. -/
def State.fencedMap (s : State) : Nat :=
  (List.range 16).foldl (fun w c => w + (if s.coreFenced c then 2 ^ c else 0)) 0

/-- Shelves that accept hand-over: hand-over targets whose allocator admits (R262, R350). -/
def State.shelvesOpen (s : State) : Nat :=
  (List.range 64).foldl
    (fun w k =>
      let target := (List.range 16).any (fun i => match s.handoverEntry i with | some (_, _, l) => l == k | none => false)
      w + (if target && !s.shelfRefuses k then 2 ^ k else 0)) 0

/-- The 32 B payload of R350. -/
def hbBytes (dev seq st fenced shelves : Nat) : Bytes :=
  leBytes 16 dev ++ leBytes 4 seq ++ leBytes 1 st ++ leBytes 1 0 ++ leBytes 2 fenced ++ leBytes 8 shelves

/-- The next sequence number of this sender (R350). -/
def State.nextHbSeq (s : State) : Nat × State :=
  let n := (s.prt.fab.hbSeq + 1) % 2 ^ 32
  (n, { s with prt := { s.prt with fab := { s.prt.fab with hbSeq := n } } })

/-- This device's heartbeat payload. -/
def State.hbPayload (s : State) (seq : Nat) : Bytes :=
  hbBytes (s.fabDev s.fabIndex) seq s.hbState s.fencedMap s.shelvesOpen

/-- The heartbeat of a period: to the acting manager, or the manager's own to every member (R350). -/
def State.sendHeartbeats (s : State) : State :=
  let ds := if s.isFm then s.fabMembers.filter (· != s.fabIndex) else [s.actingFm]
  ds.foldl (fun s d => let (n, s) := s.nextHbSeq; s.sendPeer d 0x70 (s.hbPayload n)) s

/-- A heartbeat on both peer ports (R408). -/
def State.castHeartbeat (s : State) : State :=
  if s.inFabric then let (n, s) := s.nextHbSeq; s.castPeer 0x70 (s.hbPayload n) else s

/-- The acting manager broadcasts a FENCE_NOTICE about member `i` (R351), and holds it as the latest itself. -/
def State.notice (s : State) (i reason : Nat) : State :=
  let (n, s) := s.nextHbSeq
  let m := s.member i
  let fenced := if i = s.fabIndex then s.fencedMap else m.fenced
  let shelves := if i = s.fabIndex then s.shelvesOpen else m.shelves
  (s.castPeer 0x71 (hbBytes (s.fabDev i) n reason fenced shelves)).setNat R.prtFabSeq n

/-- hb_period in µs (R348: in steps of 0.1 ms). DEDUCED, assumption 69. -/
def State.hbPeriod (s : State) : Nat := 100 * s.fabP P.fabHbPeriod

/-- A heartbeat of member `i` has arrived (R351, R352). -/
def State.gotHeartbeat (s : State) (i st fenced shelves : Nat) : State :=
  let m := s.member i
  let known := (s.prt.fab.members.get? i).isSome
  let gap := s.fabP P.fabHbMiss * s.hbPeriod
  let run := if ¬ known ∨ m.lost ∨ m.hbAt + gap ≤ s.timeUs then s.timeUs else m.runSince
  let s := s.setMember i ⟨s.timeUs, false, st, fenced, shelves, run⟩
  if s.isFm then
    let s := if m.lost then s.notice i 4 else s
    let s := if known ∧ (m.fenced ≠ fenced ∨ m.shelves ≠ shelves) then s.notice i 2 else s
    if st = 2 ∧ m.state ≠ 2 then s.notice i 3
    else if st = 1 ∧ m.state = 2 then s.notice i 4
    else s
  else s

/-- A FENCE_NOTICE is applied (R351, R352, R424). -/
def State.applyNotice (s : State) (dev seq reason fenced shelves : Nat) : State :=
  match s.fabOf dev with
  | none => s
  | some i =>
    let m := s.member i
    let s := s.setMember i { m with lost := decide (reason = 1) || (m.lost && reason != 4), fenced := fenced, shelves := shelves }
    let s := s.setNat R.prtFabSeq seq
    let s := if reason = 5 ∨ (reason = 4 ∧ i = s.fabP P.fabFmIndex ∧ s.actingFm ≠ i) then s.setActing i else s
    if i = s.fabIndex then s else s.raise R.fltHostStatus F.fltHostStatusPeer R.fltHperEvt

/-- hb_miss periods without a heartbeat of member `i` (R351, R352). -/
def State.missed (s : State) (i : Nat) : State :=
  let m := s.member i
  if ¬ s.inFabric ∨ i = s.fabIndex ∨ m.lost ∨ s.fabDev i = 0
      ∨ s.timeUs < m.hbAt + s.fabP P.fabHbMiss * s.hbPeriod then s
  else if s.isFm then (s.setMember i { m with lost := true }).notice i 1
  else if i ≠ s.actingFm then s
  else
    let s := s.setMember i { m with lost := true }
    if s.fabP P.fabFmBackup = s.fabIndex then ((s.setActing s.fabIndex).notice i 1).notice s.fabIndex 5
    else if s.fabP P.fabFmBackup = 0xFF ∨ s.fabP P.fabFmBackup = i then
      s.report (Src.peer i) E.prtFmLost (Rep.fw 3)
    else s

/-- The configured manager has been heard for 1 s without a gap (R352). -/
def State.fmBack (s : State) : State :=
  let i := s.fabP P.fabFmIndex
  let m := s.member i
  if s.isFm ∧ s.fabIndex ≠ i ∧ (s.prt.fab.members.get? i).isSome ∧ ¬ m.lost ∧ m.runSince + 1000000 ≤ s.timeUs then
    (s.notice i 4).setActing i
  else s

/-! ### Folio transfers (R262 to R265) -/

/-- Bytes of a header field list: n_l, layer offsets, s2 table and page table (R237). -/
def pad (n : Nat) (bs : Bytes) : Bytes := takeAt bs 0 n

/-- The 8 KiB header of a folio (R237). -/
def Folio.header (f : Folio) (call : Nat) : Bytes :=
  let l := f.layout
  leBytes 4 0x464F4C49 ++ leBytes 2 1 ++ leBytes 1 f.st ++ leBytes 1 f.epoch ++ leBytes 4 call ++ leBytes 1 f.ctx
    ++ leBytes 1 f.gen ++ leBytes 2 l.layers.length ++ leBytes 4 l.stride ++ leBytes 2 f.positions
    ++ leBytes 2 f.pages.length ++ leBytes 8 f.admitPos.toNat ++ leBytes 8 f.closePos.toNat ++ leBytes 8 f.relPos.toNat
    ++ leBytes 4 f.flags ++ pad 32 l.hash ++ leBytes 16 f.originDev ++ leBytes 4 f.originCall ++ pad 152 f.track
    ++ pad 128 (f.nl.flatMap (leBytes 2))
    ++ pad 128 ((List.range l.layers.length).flatMap (fun i => leBytes 2 (l.offset i)))
    ++ (List.range 1024).flatMap (fun i => leBytes 2 (f.s2Of (i / 16) (i % 16)).1 ++ leBytes 2 (f.s2Of (i / 16) (i % 16)).2)
    ++ pad 2048 (f.pages.flatMap (leBytes 4)) ++ leBytes 8 f.rejoin.toNat ++ leBytes 1528 0

/-- The s2 table of a header (R237). -/
def s2Table (h : Bytes) : Tab (Nat × Nat) :=
  (List.range 1024).foldl (fun t i => t.set i (leAt h (0x200 + 4 * i) 2, leAt h (0x202 + 4 * i) 2) (0, 0)) []

/-- Length of the data of a transfer: header and entries (R263). -/
def Layout.xferLen (l : Layout) (positions : Nat) : Nat := 0x2000 + positions * l.stride

/-- The peer takes hand-overs to its shelf, as the latest notice or heartbeat lists them (R351). -/
def State.peerAccepts (s : State) (i shelf : Nat) : Bool :=
  match s.prt.fab.members.get? i with
  | some m => !m.lost && bit m.shelves shelf
  | none => false

/-- A tracking task asks to hand closed folio `call` to the target of map entry `e` (R262, R263). -/
def State.handOver (s : State) (call e : Nat) : State :=
  match s.folio call, s.handoverEntry e with
  | some f, some (dev, shelf, l) =>
    match s.fabOf dev with
    | some i =>
      if f.st = 2 ∧ l = callShelf call ∧ s.peerAccepts i shelf then
        let s := s.setFolio call { f with st := 3 }
        let len := f.layout.xferLen f.positions
        let x : Xfer := ⟨true, i, 0, 0, none, shelf, f.positions, len, s.timeUs, [], 0⟩
        let s : State := { s with stk := { s.stk with xfers := s.stk.xfers.put call x } }
        s.sendPeer i 0x60 (Config.xferBytes 0x60 [call, f.positions, len, shelf] f.layout.hash) f.ctx f.gen
      else s
    | none => s
  | _, _ => s

/-- The receiver answers an offer (R264): its code, 0 to go on with admission. -/
def State.offerCode (s : State) (src call shelf : Nat) (hash : Bytes) : Nat :=
  let mapped := (List.range 16).any (fun i => match s.handoverEntry i with
    | some (dev, ps, l) => dev == s.fabDev src && ps == callShelf call && l == shelf
    | none => false)
  if ¬ mapped then E.stkXferRefused
  else if (s.ctx (s.shelfCtx shelf)).layout.hash ≠ hash then E.stkXferLayout
  else 0

/-- The folio of a transfer that failed at the receiver is released and logged (R264). -/
def State.xferBad (s : State) (call : Nat) : State :=
  let s : State := { s with stk := { s.stk with xfers := s.stk.xfers.del call } }
  let s := s.releaseFolio call
  (s.raise R.stkStatus F.stkStatusXferFail R.stkXferEvt).report (Src.shelf (callShelf call)) E.stkXferBad (Rep.fw 3) call

/-- FOLIO_OFFER of member `src`, its context and generation (R263, R264). -/
def State.gotOffer (s : State) (src ctx gen : Nat) (m : OfferMsg) : State :=
  let shelf := m.shelf.val
  let refuse := fun (s : State) code => s.sendPeer src 0x62 (Config.xferBytes 0x62 [code] [])
  let code := s.offerCode src m.call.toNat shelf m.layoutHash
  if code ≠ 0 then refuse s code
  else match s.admitFolio shelf with
    | (s, none) => refuse s E.stkFull
    | (s, some call) =>
      match s.folio call with
      | none => refuse s E.stkFull
      | some f =>
        match s.extend call (f.layout.pagesFor m.positions - f.pages.length) with
        | (s, false) => refuse (s.releaseFolio call) E.stkFull
        | (s, true) =>
          match s.folio call with
          | none => refuse s E.stkFull
          | some f =>
            let s := s.setFolio call { f with st := 3 }
            let x : Xfer := ⟨false, src, ctx, gen, some m.call.toNat, shelf, m.positions, m.dataLen, s.timeUs, [], 0⟩
            let s : State := { s with stk := { s.stk with xfers := s.stk.xfers.put call x } }
            s.sendPeer src 0x61 (Config.xferBytes 0x61 [call] []) f.ctx f.gen

/-- The transfer of role `sender` with member `src` that a message is about: the oldest that `ok` admits. A message carries
no other name of its transfer than R263 gives it. -/
def State.xferOf (s : State) (sender : Bool) (src : Nat) (ok : Xfer → Bool) : Option (Nat × Xfer) :=
  (s.stk.xfers.filter (fun e => e.2.sender == sender && e.2.peer == src && ok e.2)).foldl
    (fun b e => match b with
      | some (k, x) => if e.2.lastAt < x.lastAt then some e else some (k, x)
      | none => some e) none

/-- The data of a folio: header, then entries (R263). -/
def State.xferData (s : State) (call : Nat) (f : Folio) : Bytes :=
  f.header call ++ s.folioRead f 0x2000 (f.positions * f.layout.stride)

/-- FOLIO_ACCEPT (R263): the sender sends the data in pieces of 2 KiB, then FOLIO_DONE. -/
def State.gotAccept (s : State) (src newCall : Nat) : State :=
  match s.xferOf true src (fun x => x.peerCall.isNone) with
  | none => s
  | some (call, x) =>
    match s.folio call with
    | none => { s with stk := { s.stk with xfers := s.stk.xfers.del call } }
    | some f =>
      let s : State := { s with stk := { s.stk with xfers := s.stk.xfers.put call { x with peerCall := some newCall } } }
      let bs := s.xferData call f
      let s := (chunks 2048 (ceilDiv bs.length 2048) bs).zipIdx.foldl
        (fun s e => s.sendPeer src 0x63 (Config.xferBytes 0x63 [2048 * e.2] e.1) f.ctx f.gen) s
      s.sendPeer src 0x64 (Config.xferBytes 0x64 [bs.length] ((shake256 bs).take 32)) f.ctx f.gen

/-- The sender's transfer fails: the folio returns to state 2 with its release position unchanged (R265). -/
def State.xferBack (s : State) (call code : Nat) : State :=
  let s : State := { s with stk := { s.stk with xfers := s.stk.xfers.del call } }
  let s := match s.folio call with
    | some f => if f.st = 3 then s.setFolio call { f with st := 2 } else s
    | none => s
  (s.raise R.stkStatus F.stkStatusXferFail R.stkXferEvt).report (Src.shelf (callShelf call)) code (Rep.fw 3) call

/-- FOLIO_REFUSE (R265). -/
def State.gotRefuse (s : State) (src code : Nat) : State :=
  match s.xferOf true src (fun x => x.peerCall.isNone) with
  | none => s
  | some (call, _) => s.xferBack call code

/-- FOLIO_DATA of the sender's context and generation (R263): a piece of at most 2 KiB. -/
def State.gotData (s : State) (src ctx gen off : Nat) (data : Bytes) : State :=
  match s.xferOf false src (fun x => x.peerCtx == ctx && x.peerGen == gen) with
  | none => s
  | some (call, x) =>
    if 2048 < data.length ∨ x.dataLen < off + data.length then s
    else
      let x := { x with got := x.got.setRun 0 off data, gotLen := x.gotLen + data.length, lastAt := s.timeUs }
      { s with stk := { s.stk with xfers := s.stk.xfers.put call x } }

/-- A received folio is installed, closed and acknowledged (R264). -/
def State.installFolio (s : State) (call : Nat) (x : Xfer) (f : Folio) (bs : Bytes) : State :=
  let f : Folio := { f with
    st := 1, flags := 2, originDev := s.fabDev x.peer, originCall := x.peerCall.getD 0, positions := x.positions,
    nl := (List.range f.layout.layers.length).map (fun i => leAt bs (0x100 + 2 * i) 2),
    s2 := s2Table bs, track := takeAt bs 0x68 152 }
  let s := s.setFolio call f
  let s := s.folioWrite f 0x2000 (bs.drop 0x2000)
  let s : State := { s with stk := { s.stk with xfers := s.stk.xfers.del call } }
  let s := s.closeFolio call (s.shelfPos (callShelf call)) false
  s.sendPeer x.peer 0x65 (Config.xferBytes 0x65 [call] []) f.ctx f.gen

/-- FOLIO_DONE (R264): count and hash are checked against the data received. -/
def State.gotDone (s : State) (src ctx gen count : Nat) (hash : Bytes) : State :=
  match s.xferOf false src (fun x => x.peerCtx == ctx && x.peerGen == gen) with
  | none => s
  | some (call, x) =>
    let bs := x.got.getRun 0 0 x.dataLen
    match s.folio call with
    | none => { s with stk := { s.stk with xfers := s.stk.xfers.del call } }
    | some f =>
      if count = x.gotLen ∧ x.gotLen = x.dataLen ∧ x.dataLen = f.layout.xferLen x.positions
          ∧ (shake256 bs).take 32 = hash then s.installFolio call x f bs
      else s.xferBad call

/-- FOLIO_ACK (R265): the sender releases the folio at once; without its transfer the ACK is ignored. -/
def State.gotAck (s : State) (src newCall : Nat) : State :=
  match s.xferOf true src (fun x => x.peerCall == some newCall) with
  | none => s
  | some (call, _) => ({ s with stk := { s.stk with xfers := s.stk.xfers.del call } } : State).releaseFolio call

/-- xfer_timeout passes (R264, R265). -/
def State.xferLate (s : State) (call : Nat) : State :=
  match s.stk.xfers.get? call with
  | none => s
  | some x =>
    if s.timeUs < x.lastAt + 1000 * s.xferTimeout then s
    else if x.sender then s.xferBack call E.stkXferTimeout else s.xferBad call

end Sys2Proof.Machine
end

