-- ==== Sys2Proof/Machine/PortCmds.lean ====
section
/-! DEFINITION. Commands of the ports and of the fabric (R330 to R356, R262 to R265): training and discovery, frames
received, detach, KEEPALIVE, heartbeats, notices and folio transfers. -/

namespace Sys2Proof.Machine

/-! ### Training and discovery (R333, R334, R336) -/

/-- PRT_CTRL.en is set: a powered port in DOWN enters TRAIN (R333). -/
def State.enablePort (s : State) (p : Nat) : State :=
  if s.domOn (52 + p) then
    let s := s.setF (R.prtCtrl p) F.prtCtrlEn 1
    if s.portState p = 0 then (s.setPort p { s.port p with fails := 0 }).enterTrain p else s
  else s

def execPortEnable (p : PortIx) (s : State) : Out := .next (s.enablePort p.val)

def execPortDisable (p : PortIx) (s : State) : Out :=
  .next (if s.domOn (52 + p.val) then s.disablePort p.val else s)

/-- The port is in state `st` and has been for `us` µs. -/
def State.portSince (s : State) (p st us : Nat) : Bool :=
  s.portState p == st && decide ((s.port p).since + us ≤ s.timeUs)

/-- Block lock on every receive lane (R333). -/
def State.gotLock (s : State) (p : Nat) : State :=
  if s.portState p = 1 then
    let s := (s.setPortState p 2).setF (R.prtState p) F.prtStateLanesUp (2 ^ portLanes p - 1)
    s.setPort p { s.port p with fails := 0 }
  else s

def execBlockLock (p : PortIx) (s : State) : Out := .next (s.gotLock p.val)

/-- 2 ms in TRAIN without block lock (R333); the tenth failure in a row is logged. DEDUCED, assumption 36. -/
def State.trainLate (s : State) (p : Nat) : State :=
  if s.portSince p 1 2000 then
    let n := (s.port p).fails + 1
    let s := (s.setPort p { s.port p with fails := n }).enterTrain p
    if n = 10 then s.report (Src.port p) E.prtTrainFail (Rep.port p) else s
  else s

def execTrainTimeout (p : PortIx) (s : State) : Out := .next (s.trainLate p.val)

def execLanesDeskewed (p : PortIx) (s : State) : Out :=
  .next (if s.portState p.val = 2 then s.enterDiscover p.val else s)

def execAlignTimeout (p : PortIx) (s : State) : Out := .next (if s.portSince p.val 2 1000 then s.enterTrain p.val else s)

/-- The payload of a message of type `t` that this frame completes, on a port whose partner may send it. -/
def State.rxType (s : State) (p t : Nat) (f : Frame) : State × Option Bytes :=
  if f.hdr.type.toNat = t then s.rxFrame p f else (s, none)

/-- An ACCESSION frame (R334, R336, R343, R346): in DISCOVER the record is judged; while ATTACHED the partner has restarted
and is detached, and discovery starts from the record. -/
def State.rxAccession (s : State) (p : Nat) (f : Frame) : State :=
  if s.portState p = 3 then
    match s.rxType p 0x01 f with
    | (s, some r) => if (s.port p).recOk then s else s.gotRecord p r
    | (s, none) => s
  else if s.attached p then
    match s.rxType p 0x01 f with
    | (s, some r) =>
      let s := s.detach p 4
      s.setPort p { s.port p with held := r }
    | (s, none) => s
  else s

def execAccession (p : PortIx) (f : Frame) (s : State) : Out := .next (s.rxAccession p.val f)

/-- Krein repeats its record every 1 ms until the partner's has arrived (R334). -/
def execAccessionRepeat (p : PortIx) (s : State) : Out :=
  .next (if s.portState p.val = 3 ∧ (s.port p.val).recOk = false ∧ (s.port p.val).accAt + 1000 ≤ s.timeUs then
    s.sendAccession p.val else s)

/-- ACCESSION_ACK (R334). -/
def State.rxAck (s : State) (p : Nat) (f : Frame) : State :=
  if s.portState p = 3 then
    match s.rxType p 0x02 f with
    | (s, some bs) =>
      if leAt bs 0 2 = 0 then (s.setPort p { s.port p with ackOk := true }).tryAttach p else s.refuse p (leAt bs 0 2)
    | (s, none) => s
  else s

def execAccessionAck (p : PortIx) (f : Frame) (s : State) : Out := .next (s.rxAck p.val f)

def execDiscoverTimeout (p : PortIx) (s : State) : Out :=
  .next (if s.portSince p.val 3 10000 then s.enterTrain p.val else s)

def execRefusedTimeout (p : PortIx) (s : State) : Out :=
  .next (if s.portSince p.val 5 1000000 then s.enterDiscover p.val else s)

/-! ### Detach (R343) -/

/-- Block lock is lost on a receive lane for 10 µs. DEDUCED, assumption 37. -/
def State.lockLost (s : State) (p lanesUp : Nat) : State :=
  let full := 2 ^ portLanes p - 1
  let up := Nat.land lanesUp full
  if up = full ∨ s.portState p < 2 then s
  else
    let s := s.setF (R.prtState p) F.prtStateLanesUp up
    if s.attached p then s.detach p 1
    else if s.portState p = 5 then s.enterTrain p
    else s

def execBlockLockLost (p : PortIx) (lanesUp : Byte) (s : State) : Out := .next (s.lockLost p.val lanesUp.toNat)

/-- keep_timeout in µs. DEDUCED, assumption 69. -/
def State.keepUs (s : State) (p : Nat) : Nat := 10 * s.getF (R.prtCtrl p) F.prtCtrlKeepTo

def execKeepTimeout (p : PortIx) (s : State) : Out :=
  .next (if s.attached p.val && decide ((s.port p.val).lastRxAt + s.keepUs p.val ≤ s.timeUs) then s.detach p.val 2 else s)

/-- A DETACH message (R343, R517). -/
def State.rxDetach (s : State) (p : Nat) (f : Frame) : State :=
  if s.attached p then
    match s.rxType p 0x03 f with
    | (s, some bs) => s.detach p 3 (leAt bs 0 2)
    | (s, none) => s
  else s

def execDetach (p : PortIx) (f : Frame) (s : State) : Out := .next (s.rxDetach p.val f)

/-- 100 µs without another frame (R338). -/
def execKeepalive (p : PortIx) (s : State) : Out :=
  .next (if s.attached p.val && decide ((s.port p.val).lastTxAt + 100 ≤ s.timeUs) then s.sendFrame p.val 0x04 [] else s)

/-- A KEEPALIVE frame restarts keep_timeout (R343). -/
def execKeepaliveReceived (p : PortIx) (f : Frame) (s : State) : Out :=
  .next (if s.attached p.val then (s.rxType p.val 0x04 f).1 else s)

/-! ### Sensor and actuation ports (R275, R315, R338) -/

/-- Camera head and lines per strip of the SOURCE tasks that port `p` feeds in context `x` (R272). -/
def State.sources (s : State) (x p : Nat) : List (Nat × Nat) :=
  match s.ctxCat x with
  | some c =>
    ((c.tasks.filter (fun (t : TaskRec) => t.kind == 0 && t.kf.getD 0 0 == p)).map
      (fun (t : TaskRec) => (t.kf.getD 1 0, t.kf.getD 2 0))).dedup
  | none => []

/-- One line, or a line that is missing, has arrived on lane `l` from port `p`: each strip that it completes triggers its
SOURCE task (R275, R287). DEDUCED, assumption 39. -/
def State.lineOn (s : State) (p : Nat) (stamp : Pos) (l : Nat) : State :=
  let x := s.shelfCtx (s.laneP l P.laneShelf)
  if s.ctxState x = 2 ∨ s.ctxState x = 6 then
    let key := 8 * l + p
    let n := (s.dsp.strips.getD key ⟨0⟩).lines + 1
    let s : State := { s with dsp := { s.dsp with strips := s.dsp.strips.put key ⟨n⟩ } }
    (s.sources x p).foldl (fun s e => if e.2 ≠ 0 ∧ n % e.2 = 0 then s.instantiate x l p e.1 stamp else s) s
  else s

/-- The frame ends a LINE message: by its last flag, or by an abort (R339, R340). DEDUCED, assumption 38. -/
def State.lineEnds (s s' : State) (p : Nat) (f : Frame) : Bool :=
  let st := f.hdr.stream.toNat
  ((s.port p).rx.getD st RxStream.init).isOpen != ((s'.port p).rx.getD st RxStream.init).isOpen
    || (bit f.hdr.flags.toNat 0 && bit f.hdr.flags.toNat 1)

/-- A LINE frame (R338, R339): a message that is delivered is a line, one that is aborted a missing line. -/
def State.rxLine (s : State) (p : Nat) (f : Frame) : State :=
  if s.attached p && decide (p < 4) then
    let (s', r) := s.rxType p 0x10 f
    let x := (s'.port p).rx.getD f.hdr.stream.toNat RxStream.init
    let done := r.isSome || (!x.isOpen && s.lineEnds s' p f && f.hdr.type == 0x10)
    let stamp := if r.isSome then x.stamp else f.hdr.stamp
    if done then (s'.lanes.filter (fun l => bit (s'.laneP l P.laneHeads) p)).foldl (fun s l => s.lineOn p stamp l) s' else s'
  else s

def execLine (p : PortIx) (f : Frame) (s : State) : Out := .next (s.rxLine p.val f)

/-- HEAD_STATUS (R338). DESIGN CHOICE, assumption 40. -/
def State.rxHead (s : State) (p : Nat) (f : Frame) : State :=
  if s.attached p && decide (p < 4) then
    match s.rxType p 0x11 f with
    | (s, some bs) => s.report (Src.port p) E.prtHeadReport (Rep.fw 3) (leAt bs 0 2)
    | (s, none) => s
  else s

def execHeadStatus (p : PortIx) (f : Frame) (s : State) : Out := .next (s.rxHead p.val f)

/-- STATUS from a valve board (R315). DESIGN CHOICE, assumption 40. -/
def State.rxStatus (s : State) (p : Nat) (f : Frame) : State :=
  if s.attached p && decide (6 ≤ p) then
    match s.rxType p 0x48 f with
    | (s, some bs) => (s.raise R.actStatus F.actStatusBoardReport R.actBoardEvt).report (Src.port p) E.actBoardReport
        (Rep.fw 3) (leAt bs 0 4)
    | (s, none) => s
  else s

def execStatus (p : PortIx) (f : Frame) (s : State) : Out := .next (s.rxStatus p.val f)

/-! ### Peer frames (R262 to R265, R349 to R352) -/

/-- A peer message of type `t` that is for this device: its source, context, generation and payload (R349). -/
def State.rxPeer (s : State) (p t : Nat) (f : Frame) : State × Option (PeerExt × Bytes) :=
  if f.hdr.type.toNat = t ∧ 4 ≤ p ∧ p < 6 then
    match s.peerRx p f, f.ext with
    | (s, some bs), some e => (s, some (e, bs))
    | (s, _), _ => (s, none)
  else (s, none)

def execFolioOffer (p : PortIx) (f : Frame) (m : OfferMsg) (s : State) : Out :=
  .next (match s.rxPeer p.val 0x60 f with
    | (s, some (e, _)) => s.gotOffer e.src.toNat e.ctx.toNat e.gen.toNat m
    | (s, none) => s)

/-- A reply judged by the context and generation that it echoes (R289). -/
def State.staleReply (s : State) (e : PeerExt) : Bool := s.ctxGen (e.ctx.toNat % 64) != e.gen.toNat

/-- A stale reply is discarded and counted (R289). DESIGN CHOICE, assumption 41. -/
def State.dropStale (s : State) : State := s.raise R.dspStatus F.dspStatusStale R.dspStaleEvt

def execFolioAccept (p : PortIx) (f : Frame) (newCall : BitVec 24) (s : State) : Out :=
  .next (match s.rxPeer p.val 0x61 f with
    | (s, some (e, _)) => if s.staleReply e then s.dropStale else s.gotAccept e.src.toNat newCall.toNat
    | (s, none) => s)

def execFolioRefuse (p : PortIx) (f : Frame) (code : BitVec 16) (s : State) : Out :=
  .next (match s.rxPeer p.val 0x62 f with
    | (s, some (e, _)) => if s.staleReply e then s.dropStale else s.gotRefuse e.src.toNat code.toNat
    | (s, none) => s)

def execFolioData (p : PortIx) (f : Frame) (off : Nat) (data : Bytes) (s : State) : Out :=
  .next (match s.rxPeer p.val 0x63 f with
    | (s, some (e, _)) => s.gotData e.src.toNat e.ctx.toNat e.gen.toNat off data
    | (s, none) => s)

def execFolioDone (p : PortIx) (f : Frame) (count : Nat) (hash : Bytes) (s : State) : Out :=
  .next (match s.rxPeer p.val 0x64 f with
    | (s, some (e, _)) => s.gotDone e.src.toNat e.ctx.toNat e.gen.toNat count hash
    | (s, none) => s)

def execFolioAck (p : PortIx) (f : Frame) (newCall : BitVec 24) (s : State) : Out :=
  .next (match s.rxPeer p.val 0x65 f with
    | (s, some (e, _)) => if s.staleReply e then s.dropStale else s.gotAck e.src.toNat newCall.toNat
    | (s, none) => s)

/-- xfer_timeout passes for the transfer of a call number (R264, R265). -/
def execXferTimeout (entry : Nat) (s : State) : Out := .next (s.xferLate entry)

/-- HEARTBEAT (R350, R351). -/
def State.rxHeartbeat (s : State) (p : Nat) (f : Frame) : State :=
  match s.rxPeer p 0x70 f with
  | (s, some (_, bs)) =>
    match s.fabOf (leAt bs 0 16) with
    | some i => s.gotHeartbeat i (leAt bs 0x14 1) (leAt bs 0x16 2) (leAt bs 0x18 8)
    | none => s
  | (s, none) => s

def execHeartbeat (p : PortIx) (f : Frame) (s : State) : Out := .next (s.rxHeartbeat p.val f)

/-- hb_period has passed since the last heartbeat (R350). -/
def State.heartbeatDue (s : State) : State :=
  if s.inFabric && decide (s.prt.fab.lastHbAt + s.hbPeriod ≤ s.timeUs) then
    let s := s.sendHeartbeats
    { s with prt := { s.prt with fab := { s.prt.fab with lastHbAt := s.timeUs } } }
  else s

def execHeartbeatPeriod (s : State) : Out := .next s.heartbeatDue

def execHbMiss (member : Fin 8) (s : State) : Out := .next (s.missed member.val)

/-- FENCE_NOTICE (R351). -/
def State.rxNotice (s : State) (p : Nat) (f : Frame) : State :=
  match s.rxPeer p 0x71 f with
  | (s, some (_, bs)) => s.applyNotice (leAt bs 0 16) (leAt bs 0x10 4) (leAt bs 0x14 1) (leAt bs 0x16 2) (leAt bs 0x18 8)
  | (s, none) => s

def execFenceNotice (p : PortIx) (f : Frame) (s : State) : Out := .next (s.rxNotice p.val f)

def execFmReturn (s : State) : Out := .next s.fmBack

/-! ### Check-value slots (R342) -/

def execCvSlotWrite (p : PortIx) (value : Word) (opening : Bool) (s : State) : Out :=
  .next (s.cvWrite p.val value.toNat opening)

end Sys2Proof.Machine
end

