-- ==== Sys2Proof/Machine/Image.lean ====
section
/-! DEFINITION. The configuration image in the flash: address space, colophon, manifests, sections (R427 to R433), and the
configuration section's records (R434). -/

namespace Sys2Proof.Machine

/-! ### The flash (R427, R428) -/

/-- Bytes of the flash address space that the boot uses: both chip selects, at most 1 GiB (R428). -/
def Flash.size (f : Flash) : Nat := min (f.cap0 + f.cap1) (2 ^ 30)

/-- `n` bytes from flash address `a`; an erased byte reads 0xFF. -/
def Flash.read (f : Flash) (a n : Nat) : Bytes := f.mem.getRun 0xFF a n

/-! ### Manifests and sections (R429 to R433) -/

/-- The first 32 bytes of SHAKE256: the hash of R435. -/
def hash256 (bs : Bytes) : Bytes := (shake256 bs).take 32

/-- A section entry (R432): type, flash address and length in bytes, hash, and whether its reserved bytes are 0. -/
structure Sect where
  type : Nat
  addr : Nat
  len : Nat
  hash : Bytes
  ok : Bool
  deriving DecidableEq, Repr

/-- The section entry at the head of `bs`. -/
def sectOf (bs : Bytes) : Sect :=
  ⟨leAt bs 0 1, 4096 * leAt bs 4 4, leAt bs 8 4, takeAt bs 0x10 32, decide (leAt bs 1 3 = 0 ∧ leAt bs 0xC 4 = 0)⟩

/-- The `n` section entries at offset `off` of a manifest. -/
def sectsOf (m : Bytes) (off n : Nat) : List Sect := (List.range n).map (fun i => sectOf (m.drop (off + 48 * i)))

/-- Sections of the firmware manifest (R430). -/
def fwSects (m : Bytes) : List Sect := sectsOf m 0x10 (leAt m 8 1)

/-- Sections of the integrator manifest (R431). -/
def intSects (m : Bytes) : List Sect := sectsOf m 0x30 (leAt m 8 1)

/-- The section of a type. -/
def findSect (l : List Sect) (t : Nat) : Option Sect := l.find? (fun s => s.type == t)

/-- Firmware security version, revision, public key and signature of a manifest (R430). -/
def fwSvn (m : Bytes) : Nat := leAt m 0 2
def fwRev (m : Bytes) : Nat := leAt m 4 4
def fwKey (m : Bytes) : Bytes := takeAt m 0x190 1952
def fwSig (m : Bytes) : Bytes := takeAt m 0x930 3309

/-- The firmware binding (R431): SHAKE256 over offsets 0x000 to 0x161C of the firmware manifest. -/
def fwBinding (m : Bytes) : Bytes := hash256 (takeAt m 0 0x161D)

/-- Integrator security version, boot package, image length in bytes, binding, key and signature (R431). -/
def intSvn (m : Bytes) : Nat := leAt m 0 2
def intPkg (m : Bytes) : Nat := leAt m 9 1
def intLen (m : Bytes) : Nat := 4096 * leAt m 0xC 4
def intBinding (m : Bytes) : Bytes := takeAt m 0x10 32
def intKey (m : Bytes) : Bytes := takeAt m 0x630 1952
def intSig (m : Bytes) : Bytes := takeAt m 0xDD0 3309

/-- Section types of the firmware manifest, with the largest length of each (R433). -/
def fwTypes : List Nat := [1, 2, 3, 4, 5]

/-- Section types of the integrator manifest (R433). -/
def intTypes : List Nat := [0x10, 0x20, 0x21, 0x22, 0x23, 0x24, 0x30, 0x31, 0x32, 0x33, 0x34]

/-- No type occurs twice. -/
def distinct : List Nat → Bool
  | [] => true
  | x :: xs => !xs.contains x && distinct xs

/-- Two sections do not overlap. -/
def Sect.apart (a b : Sect) : Bool := decide (a.addr + a.len ≤ b.addr ∨ b.addr + b.len ≤ a.addr)

/-- No two sections of a list overlap. -/
def allApart : List Sect → Bool
  | [] => true
  | x :: xs => xs.all x.apart && allApart xs

/-- Placement and types of the sections of one image (R432, R433). -/
def placed (f : Flash) (fw it : Bytes) : Bool :=
  let fs := fwSects fw
  let is := intSects it
  let n := intLen it
  decide (1 ≤ leAt fw 8 1 ∧ leAt fw 8 1 ≤ 8) && decide (1 ≤ leAt it 8 1 ∧ leAt it 8 1 ≤ 32) && decide (n ≤ f.size)
    && (fs ++ is).all (fun s => s.ok && decide (0x4000 ≤ s.addr ∧ s.addr + s.len ≤ n))
    && allApart (fs ++ is) && distinct (fs.map (·.type)) && distinct (is.map (·.type))
    && fs.all (fun s => fwTypes.contains s.type && (s.type == 5 || decide (s.len ≤ 524288)))
    && is.all (fun s => intTypes.contains s.type)

/-- Bytes of a section. -/
def Sect.bytes (s : Sect) (f : Flash) : Bytes := f.read s.addr s.len

/-! ### The configuration section (R434, R117) -/

/-- The records of the section body: type and payload; none where a record's version, length or CRC-32C is wrong. -/
def cfgRecs : Nat → Bytes → Option (List (Nat × Bytes))
  | 0, _ => some []
  | n + 1, bs =>
    let len := leAt bs 4 4
    if bs.length < 12 + len ∨ leAt bs 2 2 ≠ 1 ∨ leAt bs (8 + len) 4 ≠ crc32c (bs.take (8 + len)) then none
    else (cfgRecs n (bs.drop (12 + len))).map ((leAt bs 0 2, takeAt bs 8 len) :: ·)

/-- The values of a payload in the order of its parameters; a payload may end before a parameter (R434). -/
def readVals : List ParamSpec → Bytes → List Nat
  | [], _ => []
  | p :: ps, bs => if bs.length < p.bytes then [] else leAt bs 0 p.bytes :: readVals ps (bs.drop p.bytes)

/-- Every value lies in its range, and every missing parameter has a default (R434). -/
def valsOk : List ParamSpec → List Nat → Bool
  | [], _ => true
  | p :: ps, [] => p.dflt.isSome && valsOk ps []
  | p :: ps, v :: vs => decide (p.lo ≤ v ∧ v ≤ p.hi) && valsOk ps vs

/-- `n` little-endian values of `w` bytes each from the payload; `d` for each that is missing. -/
def readRun (w d : Nat) : Nat → Bytes → List Nat
  | 0, _ => []
  | n + 1, bs => (if bs.length < w then d else leAt bs 0 w) :: readRun w d n (bs.drop w)

/-- The Stacks record (R266): shelf count, the per-shelf values, the device values and the hand-over map, in the order of
the list kept: count; 64 each of window, max_positions and open_max; reserve, early_release, buffer size, timeout; map. -/
def stkVals (bs : Bytes) : List Nat :=
  let n := if bs.length < 4 then 4 else leAt bs 0 4
  let k := min n 64
  let per := fun (w d off : Nat) => readRun w d k (bs.drop off) ++ List.replicate (64 - k) d
  let o := 4 + 16 * k
  let m := bs.drop (o + 16)
  n :: per 8 700000 4 ++ per 4 1024 (4 + 8 * k) ++ per 4 70000 (4 + 12 * k)
    ++ readRun 4 4096 1 (bs.drop o) ++ readRun 4 0 1 (bs.drop (o + 4)) ++ readRun 4 0 1 (bs.drop (o + 8))
    ++ readRun 4 5 1 (bs.drop (o + 12))
    ++ (List.range (min 16 (m.length / 24))).flatMap (fun i => [leAt m (24 * i) 16, leAt m (24 * i + 16) 4, leAt m (24 * i + 20) 4])

/-- Ranges of the Stacks record (R266). -/
def stkOk (v : List Nat) : Bool :=
  decide (1 ≤ v.getD 0 0 ∧ v.getD 0 0 ≤ 64)
    && ((v.drop 1).take 64).all (fun x => decide (x < 2 ^ 46))
    && ((v.drop 65).take 64).all (fun x => decide (32 ≤ x ∧ x ≤ 1024))
    && ((v.drop 129).take 64).all (fun x => decide (1000 ≤ x ∧ x < 2 ^ 32))
    && decide (v.getD 193 0 ≤ 65536 ∧ v.getD 194 0 ≤ 1 ∧ v.getD 195 0 ≤ 65536 ∧ 1 ≤ v.getD 196 0 ∧ v.getD 196 0 ≤ 100)

/-- An action table's fields lie in their ranges (R310). -/
def tableOk (bs : Bytes) : Bool :=
  decide (bs.length = 544) && decide (leAt bs 4 1 ≤ 15) && decide (leAt bs 5 27 = 0)
    && (List.range 256).all (fun p => decide (leAt bs (0x20 + p) 1 ≤ 15))
    && (List.range 16).all (fun a => decide (leAt bs (0x120 + 16 * a) 1 ≤ 31 ∧ leAt bs (0x121 + 16 * a) 1 = 0
        ∧ leAt bs (0x12A + 16 * a) 2 = 0))

/-- Safe values (R326). -/
def safeOk (bs : Bytes) : Bool :=
  decide (bs.length = 36) && (List.range 8).all (fun ch => decide (leAt bs (4 * ch) 4 < 2 ^ 21)) && decide (leAt bs 34 2 = 0)

/-- A lane record's values, lane_min_heads defaulting to the number of its heads (R353). -/
def laneVals (v : List Nat) : List Nat :=
  if v.length = 19 then v ++ [(List.range 4).foldl (fun n i => n + b2n (bit (v.getD 18 0) i)) 0] else v

/-- Largest instance count of a type (R434); 0 for an unknown type. -/
def cfgMax (type : Nat) : Nat :=
  match type with
  | 0x401 => 64
  | 0x402 => 16
  | 0x403 => 64
  | 0x406 => 8
  | _ => if [0x400, 0x404, 0x405, 0x407, 0x408, 0x409, 0x40A, 0x40B, 0x40C].contains type then 1 else 0

/-- One record: its instance (its rank among the records of its type, ctx_index for a context) and values; none where a
field is out of range. -/
def cfgEntry (part : Part) (type rank : Nat) (bs : Bytes) : Option (Nat × List Nat) :=
  if cfgMax type ≤ rank then none
  else if type = 0x402 then (if tableOk bs then some (rank, bs.map (·.toNat)) else none)
  else if type = 0x40B then (if safeOk bs then some (0, bs.map (·.toNat)) else none)
  else if type = 0x404 then (if stkOk (stkVals bs) then some (0, stkVals bs) else none)
  else
    let sp := paramSpecs part type rank
    let v := readVals sp bs
    let v := if type = 0x401 then laneVals v else v
    if valsOk sp v then some (if type = 0x403 then v.getD 0 0 else rank, v) else none

/-- The records in force, record by record; none where one fails (R434). -/
def cfgTable (part : Part) : List (Nat × Bytes) → Tab (List Nat) → List Nat → Option (Tab (List Nat))
  | [], t, _ => some t
  | (type, bs) :: rs, t, seen =>
    match cfgEntry part type ((seen.filter (· == type)).length) bs with
    | none => none
    | some (i, v) =>
      if (t.get? (cfgKey type i)).isSome then none else cfgTable part rs (t.put (cfgKey type i) v) (type :: seen)

/-- Fields of different records that must agree (R317, R341, R348, R353, R286). DESIGN CHOICE, assumption 68. -/
def State.crossOk (s : State) : Bool :=
  s.hasRec 0x400 0
    && (List.range 8).all (fun p => s.portP p P.portCvMode != 0 || decide (s.portP p P.portStreams ≤ 8))
    && (List.range 4).all (fun p => s.portP p P.portPortEn == 0
        || decide (P.portFormat < ((s.cfg.get? (cfgKey 0x406 p)).getD []).length))
    && ((s.portP 4 P.portPortEn == 0 && s.portP 5 P.portPortEn == 0) || !s.fabMembers.isEmpty)
    && (decide (s.fabP P.fabFmBackup ≤ 7) || s.fabP P.fabFmBackup == 0xFF)
    && (List.range 64).all (fun i => !s.hasRec 0x403 i || (List.range 64).all (fun j =>
        j == i || !s.hasRec 0x403 j || Nat.land (s.ctxP i P.ctxShelves) (s.ctxP j P.ctxShelves) == 0))

/-- The lane conditions of R303. -/
def State.laneOk (s : State) (l : Nat) : Bool :=
  let lead := if s.laneP l P.laneLeadMode = 0 then s.laneP l P.laneLeadLc else 0
  decide (lead + s.laneP l P.laneMarginOpen < s.laneP l P.laneValveDist)
    && s.hasRec 0x402 (s.laneP l P.laneActionTable)
    && s.portP (6 + s.laneP l P.laneApPort) P.portPortEn == 1
    && s.lanes.all (fun k => k == l || s.laneP k P.laneShelf != s.laneP l P.laneShelf)

/-- The configuration section `bs`: the records in force and the code of the first failure, 0 for none (R434, R303). -/
def State.parseCfg (s : State) (bs : Bytes) : State × Nat :=
  if leAt bs 0 4 ≠ 0x47464E43 ∨ leAt bs 4 2 ≠ 1 then (s, E.bootCfgFields)
  else match cfgRecs (leAt bs 6 2) (bs.drop 16) with
    | none => (s, E.bootCfgFields)
    | some rs => match cfgTable s.part rs [] [] with
      | none => (s, E.bootCfgFields)
      | some t =>
        let s' := { s with cfg := t }
        if ¬ s'.crossOk then (s, E.bootCfgFields)
        else if ¬ s'.lanes.all s'.laneOk then (s, E.lckLaneCfg)
        else (s', 0)

end Sys2Proof.Machine
end

