-- ==== Sys2Proof/Machine/Tiler.lean ====
section
/-! DEFINITION. Plans of attention state ops: memory footprints, the tiler of R217 to R219, descriptor tables (R221 to R223)
and accumulator occupancy (R224 to R226). -/

namespace Sys2Proof.Machine

/-- Extents of a plan (R217): L2 tile (sB, sH, sN) and L1 tile (tB, tH, tN); M is never cut. -/
structure Plan where
  sB : Nat
  sH : Nat
  sN : Nat
  tB : Nat
  tH : Nat
  tN : Nat
  deriving DecidableEq, Repr

/-- Bytes of one group with its scale code (R208). -/
def StateOp.g (op : StateOp) : Nat := if op.b3 then 25 else 33

/-- l1_bytes (R208). -/
def l1Bytes (g b h m n : Nat) : Nat := 64 * b * h * m + 4 * g * b * h * n + 4 * b * h * m * n + 4 * b * h

/-- l2_bytes (R208). -/
def l2Bytes (g b h m n : Nat) : Nat := 64 * b * h * m + 4 * g * b * h * n + 4 * b * h

/-- Bytes fetched for one tile: queries, keys and values once, scales (R208, R209). -/
def tileBytes (g b h m n : Nat) : Nat := 64 * b * h * m + 2 * g * b * h * n + 4 * b * h

/-- Divisors of `n`. -/
def divisors (n : Nat) : List Nat := (List.range (n + 1)).filter (fun d => decide (0 < d) && n % d == 0)

/-- Resident rows of a plan in which N is innermost at each level (R225). -/
def Plan.rows (p : Plan) (m n : Nat) : Nat := if p.sN < n then p.sB * p.sH * m else p.tB * p.tH * m

/-- Entries that one op needs (R210, R225). -/
def opEntries (conc rows : Nat) : Nat := conc * ceilDiv rows 7

/-- The plan satisfies R218 with `avail` accumulator entries. -/
def Plan.fits (p : Plan) (op : StateOp) (n avail : Nat) : Bool :=
  decide (l1Bytes op.g p.tB p.tH op.rows p.tN ≤ 262144 ∧ l2Bytes op.g p.sB p.sH op.rows p.sN ≤ op.l2Budget
    ∧ opEntries op.concurrency (p.rows op.rows n) ≤ avail)

/-- The estimated time of a plan (R218), in units of 1/(3·205·192) ns: per L2 tile the larger of the fetch time (both levels)
and the compute time at 1.5 GHz, times the number of L2 tiles. DEDUCED, assumption 89. -/
def Plan.cost (p : Plan) (op : StateOp) (b n : Nat) : Nat :=
  let nL2 := (b / p.sB) * (op.heads / p.sH) * (n / p.sN)
  let nL1 := (p.sB / p.tB) * (p.sH / p.tH) * (p.sN / p.tN)
  let f3 := tileBytes op.g p.sB p.sH op.rows p.sN
  let f2 := nL1 * tileBytes op.g p.tB p.tH op.rows p.tN
  let fetch := 3 * (f3 * 192 + f2 * 205)
  let cycles := 2 * p.sB * p.sH * op.rows * p.sN * 64 / 512 + 40 * nL1
  nL2 * max fetch (cycles * 2 * 205 * 192)

/-- `a` is taken before `b` (R218): less time, then larger tN, then larger tH, then smaller sB. -/
def Plan.better (op : StateOp) (b n : Nat) (x y : Plan) : Bool :=
  let cx := x.cost op b n
  let cy := y.cost op b n
  decide (cx < cy) || (cx == cy && (decide (y.tN < x.tN) || (x.tN == y.tN && (decide (y.tH < x.tH)
    || (x.tH == y.tH && decide (x.sB < y.sB))))))

/-- Every plan of the op for a bucket pair (R218, R219). -/
def allPlans (op : StateOp) (b n : Nat) : List Plan :=
  (divisors b).flatMap (fun sB => (divisors op.heads).flatMap (fun sH => (divisors n).flatMap (fun sN =>
    (divisors sB).flatMap (fun tB => (divisors sH).flatMap (fun tH => (divisors sN).map (fun tN =>
      ⟨sB, sH, sN, tB, tH, tN⟩))))))

/-- The tiler's plan for batch bucket `b` and folio bucket `n` (R217 to R219). -/
def tilerPlan (op : StateOp) (avail b n : Nat) : Option Plan :=
  (allPlans op b n).foldl
    (fun m p =>
      if p.fits op n avail then
        match m with
        | none => some p
        | some q => if p.better op b n q then some p else some q
      else m) none

/-! ### Descriptor tables (R221, R222) -/

/-- The levels of a table in order-position order. -/
def DescTable.ordered (t : DescTable) : List LevelRec :=
  (List.range t.levels.length).filterMap (fun o => t.levels.find? (fun l => l.order == o))

/-- The header and records are encoded as R221 says, and the order positions as R222 (1) and (2). -/
def DescTable.wf (t : DescTable) : Bool :=
  let o := t.ordered
  t.hdrOk && decide (1 ≤ t.levels.length ∧ t.levels.length ≤ 6) && o.length == t.levels.length
    && t.levels.all (fun l => decide (1 ≤ l.bound ∧ 1 ≤ l.stride ∧ l.level ≠ 3) && l.rsv == 0)
    && (o.zip (o.drop 1)).all (fun (a, b) => decide (a.level ≤ b.level))

/-- The extent of a dimension (R207). -/
def dimExtent (op : StateOp) (b n : Nat) : Nat → Nat
  | 0 => b
  | 1 => op.heads
  | 2 => op.rows
  | _ => n

/-- The levels of one dim cover its extent (R222 (3)). -/
def coversGo : Nat → List LevelRec → Bool
  | _, [] => true
  | e, l :: ls => l.bound * l.stride == e && coversGo l.stride ls

/-- The table covers every dim of its bucket combination (R222). -/
def DescTable.covers (t : DescTable) (op : StateOp) : Bool :=
  op.folioBuckets.contains t.folio && op.batchBuckets.contains t.batch
    && [0, 1, 2, 3].all (fun d => coversGo (dimExtent op t.batch t.folio d) (t.ordered.filter (fun l => l.dim == d)))

/-- The extent of dim `d` in the tile of levels up to `lv` (R222). -/
def DescTable.extent (t : DescTable) (op : StateOp) (lv d : Nat) : Nat :=
  ((t.ordered.filter (fun l => l.dim == d && decide (l.level ≤ lv))).map (·.stride)).getLast?.getD
    (dimExtent op t.batch t.folio d)

/-- l1_bytes of a table. -/
def DescTable.l1 (t : DescTable) (op : StateOp) : Nat :=
  l1Bytes op.g (t.extent op 1 0) (t.extent op 1 1) (t.extent op 1 2) (t.extent op 1 3)

/-- l2_bytes of a table. -/
def DescTable.l2 (t : DescTable) (op : StateOp) : Nat :=
  l2Bytes op.g (t.extent op 0 0) (t.extent op 0 1) (t.extent op 0 2) (t.extent op 0 3)

/-- Resident rows of a table (R225). -/
def DescTable.rows (t : DescTable) (op : StateOp) : Nat :=
  match t.ordered.find? (fun l => l.dim == 3 && decide (1 < l.bound)) with
  | none => t.extent op 1 0 * t.extent op 1 1 * t.extent op 1 2
  | some o =>
    let e := fun d =>
      ((t.ordered.filter (fun l => l.dim == d && decide (l.order < o.order))).map (·.stride)).getLast?.getD
        (dimExtent op t.batch t.folio d)
    e 0 * e 1 * e 2

/-! ### Occupancy (R206, R224) -/

/-- The home core of a logical tile. -/
def PkgDir.homeCore (d : PkgDir) (l : Nat) : Nat := (d.homes.getD l (0, 0)).1

/-- Row blocks of a matrix (R196, R198). -/
def Mat.rowBlocks (m : Mat) : Nat := if m.parts ≤ 1 then ceilDiv m.k 1024 else m.parts

/-- Column blocks of a matrix (R196). -/
def Mat.colBlocks (m : Mat) : Nat := ceilDiv m.n 512

/-- The column blocks of a layer's copy: the logical tiles that each combines (R196, R206). -/
def Layer.columns (l : Layer) (copy : List Nat) : List (List Nat) :=
  l.mats.flatMap (fun m => (List.range m.colBlocks).map (fun j =>
    (List.range m.rowBlocks).map (fun i => copy.getD (m.first + j * m.rowBlocks + i) 0)))

/-- The core in which a column block combines: that of its lowest source core and tile (R175, R206). -/
def PkgDir.combineCore (d : PkgDir) (col : List Nat) : Nat :=
  (col.map (fun l => (d.homes.getD l (0, 0)).1)).foldl min 15

/-- Entries reserved in core `c` for static-weight layers (R224). -/
def PkgDir.staticEntries (d : PkgDir) (c : Nat) : Nat :=
  let homed := (d.homes.filter (fun h => h.1 == c)).length
  let far := (d.layers.flatMap (fun l => l.copies.flatMap (fun k => l.columns k))).foldl
    (fun n col => if d.combineCore col = c then n + (col.filter (fun l => d.homeCore l != c)).length else n) 0
  4 * (homed + far)

/-- Smallest bucket at or above `n`; the largest bucket when none is (R212). -/
def bucketOf (bs : List Nat) (n : Nat) : Nat :=
  let up := bs.filter (fun b => decide (n ≤ b))
  match up with
  | [] => bs.foldl max 0
  | b :: rest => rest.foldl min b

/-- Entries left to the ops of a core. -/
def PkgDir.availFor (d : PkgDir) (op : StateOp) : Nat := 1024 - d.staticEntries (d.homeCore op.home)

/-- The L1 extent along N by which a task of the op visits its positions (R217, R222): the tiler's plan or the table. -/
def Catalogue.tileN (cat : Catalogue) (d : PkgDir) (oi : Nat) (op : StateOp) (batch folio : Nat) : Nat :=
  let table := cat.tables.find? (fun t => t.op == oi && t.folio == folio && t.batch == batch)
  let byTable := match table with | some t => t.extent op 1 3 | none => folio
  if op.planMode = 1 then byTable
  else match tilerPlan op (d.availFor op) batch folio with
    | some p => p.tN
    | none => byTable

end Sys2Proof.Machine
end

