-- ==== Sys2Proof/Machine/Loader.lean ====
section
/-! DEFINITION. Reading a package from the flash (R270 to R273, R221, R433) and the loader's checks (R227, R274). -/

namespace Sys2Proof.Machine

/-! ### Catalogue bytes (R270 to R273, R221) -/

/-- The next multiple of 64. -/
def align64 (n : Nat) : Nat := ceilDiv n 64 * 64

/-- A task record (R271); `succ` is the successor table. -/
def taskRec (succ bs : Bytes) : TaskRec :=
  let b2 := leAt bs 2 1
  let first := leAt bs 0xA 4
  { index := leAt bs 0 2, kind := b2 % 8, budget := b2 / 8 % 8, flags := leAt bs 3 1, layer := leAt bs 4 2,
    anchor := leAt bs 6 2, npred := leAt bs 8 1,
    succs := (List.range (leAt bs 9 1)).map (fun i => leAt succ (2 * (first + i)) 2),
    op := leAt bs 0xE 2, operands := (List.range 4).map (fun i => leAt bs (0x10 + 4 * i) 4), act := leAt bs 0x20 1 % 8,
    outFmt := leAt bs 0x21 1 % 16, kf := Config.kindFields (b2 % 8) (takeAt bs 0x30 16) }

/-- A buffer table entry (R273). -/
def bufRec (bs : Bytes) : Buf := ⟨leAt bs 0 1, leAt bs 1 1, leAt bs 4 8, 64 * leAt bs 12 4⟩

/-- A level record (R221). -/
def levelRec (w : Nat) : LevelRec :=
  ⟨w % 2 ^ 16, w / 2 ^ 16 % 2 ^ 16, w / 2 ^ 32 % 4, w / 2 ^ 34 % 8, w / 2 ^ 37 % 4, w / 2 ^ 39⟩

/-- A descriptor table (R221). -/
def descTable (bs : Bytes) : DescTable :=
  let n := leAt bs 6 1
  ⟨decide (leAt bs 0 4 = 0x4C504454 ∧ leAt bs 4 2 = 1 ∧ 1 ≤ n ∧ n ≤ 6 ∧ leAt bs 11 5 = 0), leAt bs 7 1, leAt bs 8 2,
   leAt bs 10 1, (List.range (min n 6)).map (fun i => levelRec (leAt bs (16 + 8 * i) 8))⟩

/-- `n` descriptor tables one after another, and their length in bytes. -/
def descTables : Nat → Bytes → List DescTable × Nat
  | 0, _ => ([], 0)
  | n + 1, bs =>
    let len := 16 + 8 * min (leAt bs 6 1) 6
    let r := descTables n (bs.drop len)
    (descTable bs :: r.1, len + r.2)

/-- A catalogue at the head of `bs`, and its length (R270). -/
def catalogueOf (bs : Bytes) : Catalogue × Nat :=
  let nt := leAt bs 6 2
  let ns := leAt bs 8 4
  let nb := leAt bs 0xC 2
  let no := leAt bs 0xE 2
  let nd := leAt bs 0x10 2
  let sAt := 64 + 64 * nt
  let bAt := align64 (sAt + 2 * ns)
  let oAt := align64 (bAt + 16 * nb)
  let dAt := align64 (oAt + Config.stateOpBytes no)
  let succ := takeAt bs sAt (2 * ns)
  let ds := descTables nd (bs.drop dAt)
  let bad := if leAt bs 0 4 ≠ 0x43415447 then E.ldrBadMagic else if leAt bs 4 2 ≠ 1 then E.ldrBadVersion else 0
  (⟨bad, nt, (List.range nt).map (fun i => taskRec succ (takeAt bs (64 + 64 * i) 64)),
    (List.range nb).map (fun i => bufRec (takeAt bs (bAt + 16 * i) 16)), Config.stateOps no (bs.drop oAt), ds.1⟩, dAt + ds.2)

/-- The catalogues of a section, one after another at 64 B boundaries (R433). -/
def catalogues : Nat → Bytes → List Catalogue
  | 0, _ => []
  | fuel + 1, bs =>
    if bs.isEmpty then [] else
    let r := catalogueOf bs
    if r.1.bad ≠ 0 then [r.1] else r.1 :: catalogues fuel (bs.drop (align64 r.2))

/-! ### The checks of R227, step by step: each answers its code, 0 when it passes -/

/-- The first code that is not 0. -/
def firstCode : List Nat → Nat
  | [] => 0
  | c :: cs => if c = 0 then firstCode cs else c

/-- `code` unless `b` holds. -/
def need (b : Bool) (code : Nat) : Nat := if b then 0 else code

/-- Magic and version that open a section. -/
def openCode (bs : Bytes) (magic : Nat) : Nat :=
  if leAt bs 0 4 ≠ magic then E.ldrBadMagic else need (leAt bs 4 2 == 1) E.ldrBadVersion

/-- A format code of a vector-unit place (R152). -/
def vecFmt (c : Nat) : Bool := decide (c ≤ fmtCode .mx4)

/-- A crossbar row input format (R152). -/
def rowFmt (c : Nat) : Bool := c == fmtCode .int4 || c == fmtCode .int8

/-- Step 4 on one task (R152, R183, R187). -/
def TaskRec.fmtCheck (t : TaskRec) : Nat :=
  let f0 := t.operands.getD 0 0xFFFFFFFF / 4096 % 16
  let fmts := match t.kind with
    | 0 => t.outFmt == fmtCode .uint8 || t.outFmt == fmtCode .uint12
    | 1 => rowFmt (t.kf.getD 3 0)
    | 2 => t.operands.all (fun r => r == 0xFFFFFFFF || vecFmt (r / 4096 % 16)) && vecFmt t.outFmt
        && (!Config.isEpilogue t.op || t.outFmt != fmtCode .uint12)
    | _ => true
  let k := if t.kind = 2 then Config.topKOf t.op t.kf else none
  firstCode [need (fmts && (k.isNone || f0 != fmtCode .mx4)) E.mapFormat,
             need (decide (t.act < 6) && (match k with | some k => decide (1 ≤ k ∧ k ≤ 16) | none => true)) E.mapCode]

/-- Step 5 on one layer (R196, R198). -/
def Layer.shapeOk (l : Layer) : Bool :=
  l.mats.all (fun m => decide (1 ≤ m.k ∧ m.k ≤ 65536 ∧ 1 ≤ m.n ∧ m.n ≤ 65536) && [64, 256, 1024].contains m.b
    && m.k % m.b == 0 && [1, 2, 4, 8].contains m.parts
    && (m.parts == 1 || (decide (m.k ≤ 1024) && m.k % (m.parts * m.b) == 0)))
    && l.copies.all (fun c => decide (c.length ≤ 1024
        ∧ c.length = (l.mats.map (fun m => m.rowBlocks * m.colBlocks)).foldl (· + ·) 0))

/-- Two homes are never equal. -/
def homesApart : List (Nat × Nat) → Bool
  | [] => true
  | h :: hs => !hs.contains h && homesApart hs

/-- Step 7 on one layer (R204): copies of one shape whose tile hashes, as the weight image gives them, are equal. -/
def Layer.copiesOk (l : Layer) (tileHash : Nat → Bytes) : Bool :=
  decide (1 ≤ l.copies.length ∧ l.copies.length ≤ 4)
    && l.copies.all (fun c => c.length == (l.copies.headD []).length
        && (c.zip (l.copies.headD [])).all (fun e => tileHash e.1 == tileHash e.2))

/-- Bases are aligned (step 8). -/
def Buf.aligned (b : Buf) : Bool := if b.mem = 0 then b.base % 64 == 0 else b.base % 2048 == 0

/-- A buffer lies in its memory (step 8, R232). -/
def State.bufPlaced (s : State) (b : Buf) : Bool :=
  if b.mem = 0 then decide (b.core < 16 ∧ b.base + b.size ≤ 6 * 2 ^ 20)
  else decide (s.poolHi * 65536 ≤ b.base ∧ b.base + b.size ≤ s.topPage * 65536)

/-- Two scratchpad buffers of one core do not overlap. -/
def Buf.apart (a b : Buf) : Bool :=
  decide (a.mem ≠ 0 ∨ b.mem ≠ 0 ∨ a.core ≠ b.core ∨ a.base + a.size ≤ b.base ∨ b.base + b.size ≤ a.base)

/-- No two of the buffers overlap. -/
def bufsApart : List Buf → Bool
  | [] => true
  | b :: bs => bs.all b.apart && bufsApart bs

/-- Every operand's buffer is as large as its task needs. -/
def Catalogue.bufsLarge (c : Catalogue) : Bool :=
  c.tasks.all (fun t => (List.range 4).all (fun i =>
    let r := t.operands.getD i 0xFFFFFFFF
    r == 0xFFFFFFFF || (match c.bufs[r % 4096]? with
      | some b => decide (r / 65536 * 64 + Config.bufNeed t i ≤ b.size)
      | none => false)))

/-- The folio layout of a catalogue (R236). -/
def Catalogue.layout (c : Catalogue) : Layout :=
  ⟨c.stateLayers.map (fun l => match c.ops.find? (fun o => o.layer == l) with
    | some o => (o.heads, o.b3)
    | none => (0, false))⟩

/-- Contexts of the image that run catalogue `i` of package `k` (R286). -/
def State.ctxsOf (s : State) (k i : Nat) : List Nat :=
  (List.range 64).filter (fun x => s.hasRec 0x403 x && s.ctxP x P.ctxPackage == k && s.ctxP x P.ctxCatalogue == i)

/-- The largest max_positions of the shelves of those contexts. -/
def State.maxPos (s : State) (k i : Nat) : Nat :=
  ((s.ctxsOf k i).flatMap (fun x => ((List.range 64).filter (fun h => bit (s.ctxP x P.ctxShelves) h)).map s.maxPositions)).foldl
    max 0

/-- Step 9 on one op (R216). -/
def StateOp.paramsOk (o : StateOp) (tiles : Nat) : Bool :=
  decide (1 ≤ o.heads ∧ o.heads ≤ 16 ∧ 1 ≤ o.rows ∧ o.rows ≤ 16 ∧ o.mask ≤ 1 ∧ o.planMode ≤ 2 ∧ 1 ≤ o.concurrency
    ∧ o.concurrency ≤ 8 ∧ 65536 ≤ o.l2Budget ∧ o.l2Budget ≤ 4 * 2 ^ 20 ∧ o.l2Budget % 64 = 0 ∧ o.home < tiles)

/-- Bucket sets of one op (R212). -/
def StateOp.bucketsOk (o : StateOp) (maxPos : Nat) : Bool :=
  !o.folioBuckets.isEmpty && !o.batchBuckets.isEmpty
    && o.folioBuckets.all [32, 64, 128, 256, 512, 1024].contains && o.batchBuckets.all [1, 4, 16, 64].contains
    && decide (maxPos ≤ o.folioBuckets.foldl max 0)

/-- Bucket combinations of an op (R217). -/
def StateOp.combos (o : StateOp) : List (Nat × Nat) := o.batchBuckets.flatMap (fun b => o.folioBuckets.map (fun n => (b, n)))

/-- The table of an op for a bucket combination. -/
def Catalogue.tableOf (c : Catalogue) (oi b n : Nat) : Option DescTable :=
  c.tables.find? (fun t => t.op == oi && t.batch == b && t.folio == n)

/-- Step 10 (R221 to R223). -/
def Catalogue.descCheck (c : Catalogue) : Nat :=
  firstCode [
    need (c.tables.all (fun t => t.wf && decide (t.op < c.ops.length))) E.mapDescBad,
    need (c.tables.all (fun t => match c.ops[t.op]? with | some o => t.covers o | none => false)
      && c.ops.zipIdx.all (fun e => e.1.planMode != 1 || e.1.combos.all (fun k => (c.tableOf e.2 k.1 k.2).isSome))) E.mapDescCover]

/-- Step 11 (R208). -/
def Catalogue.footCheck (c : Catalogue) : Nat :=
  firstCode [
    need (c.tables.all (fun t => match c.ops[t.op]? with | some o => decide (t.l1 o ≤ 262144) | none => true)) E.mapL1Over,
    need (c.tables.all (fun t => match c.ops[t.op]? with | some o => decide (t.l2 o ≤ o.l2Budget) | none => true)) E.mapL2Over]

/-- Entries of an op in its home core, over its bucket combinations (R225, R226); a combination without a plan needs as many
as its smallest plan, that of one row of one head. -/
def Catalogue.opNeed (c : Catalogue) (d : PkgDir) (oi : Nat) (o : StateOp) : Nat :=
  (o.combos.map (fun k =>
    let byTable := match c.tableOf oi k.1 k.2 with
      | some t => opEntries o.concurrency (t.rows o)
      | none => opEntries o.concurrency o.rows
    if o.planMode = 1 then byTable
    else match tilerPlan o (d.availFor o) k.1 k.2 with
      | some p => opEntries o.concurrency (p.rows o.rows k.2)
      | none => byTable)).foldl max 0

/-- Step 12 (R226). -/
def Catalogue.accCheck (c : Catalogue) (d : PkgDir) : Nat :=
  need ((List.range 16).all (fun m =>
    decide (d.staticEntries m
      + ((c.ops.zipIdx.filter (fun e => d.homeCore e.1.home == m)).map (fun e => c.opNeed d e.2 e.1)).foldl (· + ·) 0 ≤ 1024)))
    E.mapAccumShort

/-- Step 13 (R217 to R219). -/
def Catalogue.planCheck (c : Catalogue) (d : PkgDir) : Nat :=
  need (c.ops.zipIdx.all (fun e => e.1.planMode == 1 || e.1.combos.all (fun k =>
    (tilerPlan e.1 (d.availFor e.1) k.1 k.2).isSome || (e.1.planMode == 2 && (c.tableOf e.2 k.1 k.2).isSome)))) E.mapNoPlan

/-- The dispatcher's check when a catalogue starts (R274). -/
def Catalogue.orderOk (c : Catalogue) : Bool :=
  c.tasks.zipIdx.all (fun e => e.1.index == e.2 && decide (e.1.succs.length ≤ 32 ∧ e.1.npred ≤ 32)
    && e.1.succs.all (fun j => decide (e.2 < j)))

/-- Steps 4 and 8 to 13 on catalogue `i` of package `k`, in the order of R227. -/
def State.catSteps (s : State) (k i : Nat) (d : PkgDir) (c : Catalogue) : List Nat :=
  let l := c.layout
  let mp := s.maxPos k i
  [need (c.bufs.all Buf.aligned) E.mapAlign,
   need (c.bufs.all s.bufPlaced && bufsApart c.bufs && c.bufsLarge) E.mapBufSize,
   need (c.ops.all (fun o => o.paramsOk d.homes.length) && decide (l.layers.length ≤ 64 ∧ l.stride ≤ 65536 ∧ l.pagesFor mp ≤ 512))
     E.mapStateOp,
   need (c.ops.all (fun o => o.bucketsOk mp)) E.mapBucketSet,
   c.descCheck, c.footCheck, c.accCheck d, c.planCheck d]

/-- Steps 3 to 13 of R227 on a package: 0, or the code of the first failure. -/
def State.pkgCheck (s : State) (k : Nat) (d : PkgDir) (cats : List Catalogue) (tileHash : Nat → Bytes) : Nat :=
  let cs := cats.zipIdx.map (fun e => s.catSteps k e.2 d e.1)
  let col := fun (j : Nat) => firstCode (cs.map (fun l => l.getD j 0))
  firstCode ([need (decide (1 ≤ d.homes.length ∧ d.homes.length ≤ 1024)) E.ldrTooLarge,
    need (cats.all (fun c => decide (1 ≤ c.ntasks ∧ c.ntasks ≤ 4096))) E.mapTaskCount,
    firstCode (cats.flatMap (fun c => c.tasks.map TaskRec.fmtCheck)),
    need (d.layers.all (fun l => rowFmt l.inFmt)) E.mapFormat,
    need (d.layers.all Layer.shapeOk) E.mapBlockShape,
    need (d.homes.all (fun h => decide (h.1 ≤ 15 ∧ h.2 ≤ 63))) E.mapPlaceRange,
    need (homesApart d.homes) E.mapPlaceOverlap,
    need (d.layers.all (fun l => l.copiesOk tileHash)) E.mapReplicaShape]
    ++ (List.range 8).map col)

/-! ### Reading a package (R433, R441) -/

/-- The image carries package `k`: its directory section is listed. -/
def State.hasPkg (s : State) (k : Nat) : Bool := (findSect (intSects s.sys.intMan) (0x20 + 16 * k)).isSome

/-- Section `j` (0 directory to 4 signature blocks) of package `k`. -/
def State.pkgSect (s : State) (k j : Nat) : Option Sect := findSect (intSects s.sys.intMan) (0x20 + 16 * k + j)

/-- Bytes of section `j` of package `k`, none of them where the image has no such section. -/
def State.pkgBytes (s : State) (k j : Nat) : Bytes :=
  match s.pkgSect k j with
  | some x => x.bytes s.sys.flash
  | none => []

/-- A section's hash agrees with its entry (R227 step 2). -/
def State.pkgHashOk (s : State) (k j : Nat) (bs : Bytes) : Bool :=
  match s.pkgSect k j with
  | some x => hash256 bs == x.hash
  | none => false

/-- The hash of the tile record of logical tile `t` in the weight image (R107). -/
def State.flashTileHash (s : State) (k t : Nat) : Bytes :=
  match s.pkgSect k 3 with
  | some x => s.sys.flash.read (x.addr + 0xC3000 * t + 0x10) 32
  | none => []

/-- The 48 B entries of the package's sections in manifest order (R448). -/
def State.pkgEntries (s : State) (k : Nat) : Bytes :=
  (List.range (leAt s.sys.intMan 8 1)).flatMap (fun i =>
    let e := takeAt s.sys.intMan (0x30 + 48 * i) 48
    let t := leAt e 0 1
    if 0x20 + 16 * k ≤ t ∧ t ≤ 0x24 + 16 * k then e else [])

/-- The package as the flash holds it. -/
def State.readPkg (s : State) (k : Nat) : Pkg :=
  let cb := s.pkgBytes k 1
  ⟨Config.pkgDir (s.pkgBytes k 0), catalogues (cb.length + 1) cb,
   (match s.pkgSect k 3 with | some x => x.hash | none => []), hash256 (s.pkgEntries k)⟩

/-- The loader's checks on package `k` (R227, R274): 0, or the code of the first failure. -/
def State.loadCode (s : State) (k : Nat) : Nat :=
  let p := s.readPkg k
  let sig := s.pkgBytes k 4
  firstCode [openCode (s.pkgBytes k 0) 0x52494450, firstCode (p.cats.map (·.bad)), need (!p.cats.isEmpty) E.ldrBadMagic,
    openCode (s.pkgBytes k 2) 0x44495352, openCode sig 0x4B4C4253,
    need (s.pkgHashOk k 0 (s.pkgBytes k 0) && s.pkgHashOk k 1 (s.pkgBytes k 1) && s.pkgHashOk k 2 (s.pkgBytes k 2)
      && s.pkgHashOk k 4 (takeAt sig Config.sigHeader (32 * p.dir.homes.length))) E.ldrBadHash,
    s.pkgCheck k p.dir p.cats (s.flashTileHash k),
    need (p.cats.all Catalogue.orderOk) E.dspCatOrder]

end Sys2Proof.Machine
end

