-- ==== Sys2Proof/Machine/Recovery.lean ====
section
/-! DEFINITION. Recovery: task timeouts, the escalation ladder up to core fences, the crash dump, closing of aggregator
records and the fault summary (R285, R398 to R406, R411 to R420). -/

namespace Sys2Proof.Machine

/-! ### Ladder state -/

/-- A core on no rung. -/
def Ladder.init : Ladder := ⟨0, [], [], [], none, [], [], none, false, none⟩

/-- Ladder state of core `c`. -/
def State.ladder (s : State) (c : Nat) : Ladder := s.flt.cores.getD c Ladder.init

/-- The state with core `c` on ladder state `l`. -/
def State.setLadder (s : State) (c : Nat) (l : Ladder) : State :=
  { s with flt := { s.flt with cores := s.flt.cores.set c l Ladder.init } }

/-- FLT_CORE_STATE of core `c`. -/
def State.setCoreState (s : State) (c v : Nat) : State :=
  s.setF R.fltCoreState ⟨2 * c, 2⟩ v

/-! ### The crash dump (R402, R411 to R414) -/

/-- First Stacks address of the crash dump (R104, R411). -/
def dumpBase : Nat := 0x3C000000

/-- What a slot index entry records of a timeout. -/
structure HangInfo where
  code : Nat
  ctx : Nat
  gen : Nat
  task : Nat
  token : Nat
  call : Nat
  deriving DecidableEq, Repr

/-- The next dump slot is taken for engine `e` of core `c` (R414). -/
def State.takeDump (s : State) (c e : Nat) (h : HangInfo) : State × Nat :=
  let d := s.flt.dump
  let n := d.next
  let slot : DumpSlot := ⟨h.code, c, e, h.ctx, h.gen, h.task, s.timeUs, h.token, h.call, 1, 1, 0⟩
  let d' := { d with st := if d.st = 2 then 2 else 1, written := d.written + 1, next := (n + 1) % 2044, time := s.timeUs }
  ({ s with flt := { s.flt with dump := d', slots := s.flt.slots.put n slot } }, n)

/-- Change dump slot `n`. -/
def State.modSlot (s : State) (n : Nat) (f : DumpSlot → DumpSlot) : State :=
  { s with flt := { s.flt with slots := s.flt.slots.modify n f } }

/-- The 32 KiB sample of core `c` (R402, R411): bank edges, then the accumulator headers. -/
def State.sample (s : State) (c : Nat) : Bytes :=
  (List.range 48).flatMap (fun b => s.padRead c (b * 131072) 256 ++ s.padRead c (b * 131072 + 130816) 256)
    ++ (List.range 1024).flatMap (fun e => leBytes 8 (match s.accEntry c e with | some x => x.header | none => 0))

/-- The sample copy of engine `e` of core `c` ends: its slot is complete (R402, R413). -/
def State.copySample (s : State) (c n : Nat) : State :=
  let bs := s.sample c
  let s : State := { s with stk := { s.stk with mem := s.stk.mem.setRun 0 (dumpBase + 0x20000 + n * 0x8000) bs } }
  let s := s.modSlot n (fun x => { x with st := 2, crc := crc32c bs })
  s.raise R.fltHostStatus F.fltHostStatusDump R.fltHdmpEvt

/-- The slots of the core's fenced engines show the rung reached; a slot still being written is incomplete when `stop`. -/
def State.climbSlots (s : State) (c rung : Nat) (stop : Bool) : State :=
  (s.ladder c).slotOf.foldl
    (fun s e => s.modSlot e.2 (fun x => { x with rung := rung, st := if stop ∧ x.st = 1 then 3 else x.st })) s

/-! ### Work lost with an engine or a core (R401, R403) -/

/-- The tokens for which `p` holds are cancelled and their objects defaulted. -/
def State.loseTokens (s : State) (p : Nat → Token → Bool) : State :=
  (s.dsp.tokens.filter (fun e => p e.1 e.2)).foldl
    (fun s e => ((s.markToken e.2).cancelToken e.1).settle e.2.ctx) s

/-- Tokens with an instance that runs on core `c` for which `p` holds. -/
def State.runsOn (s : State) (c : Nat) (p : Inst → Bool) (n : Nat) : Bool :=
  s.dsp.insts.any (fun e => e.2.token == n && e.2.st == .running && e.2.core == c && p e.2)

/-- What a fenced engine's work becomes (R401). -/
def State.fenceWork (s : State) (c e : Nat) : State :=
  if e = 0 then
    let s : State := { s with stk := { s.stk with fetchWait := s.stk.fetchWait.filter (fun r => r.core != c) } }
    s.loseTokens (fun n _ => s.runsOn c (fun x => x.engine == 3) n)
  else if e = 1 then
    let q := s.mc.tiles.flatMap (fun t => if t.1 / 128 = c then t.2.q.map (·.token) else [])
    s.loseTokens (fun n _ => q.contains n)
  else s

/-- The inputs issued to the tiles of core `c` are removed and no longer counted (R291). -/
def State.dropRuns (s : State) (c : Nat) : State :=
  let hit := s.mc.tiles.filter (fun e => e.1 / 128 == c)
  let ctxs := hit.flatMap (fun e => e.2.runs.filterMap (fun r => if r.2.entry.isSome then some r.2.inp.ctx else none))
  let s : State := { s with mc := { s.mc with tiles := s.mc.tiles.map (fun e =>
    if e.1 / 128 = c then (e.1, { e.2 with q := [], runs := [], slices := [] }) else e) } }
  ctxs.foldl (fun s x => s.countOut x false) s

/-- Requests of core `c` leave the counters (R291). -/
def State.dropReqs (s : State) (c : Nat) : State :=
  let mine := s.stk.reqs.filter (fun e => e.2.core == c && (match e.2.kind with | .xfer _ | .archive => false | _ => true))
  let s : State := { s with stk := { s.stk with reqs := s.stk.reqs.filter (fun e => !mine.any (fun m => m.1 == e.1)) } }
  mine.foldl (fun s e => s.countOut e.2.ctx false) s

/-- Every tile of core `c` enters FENCED; copies on it lose eligibility (R102, R403). -/
def State.fenceTiles (s : State) (c : Nat) : State :=
  ((List.range 68).foldl (fun s t => s.setTileState c t 5) s).dropLostCopies

/-! ### Rungs 3, 2, 1 (R400 to R404) -/

/-- Rung 3: the core is fenced until the next boot (R404). Detail 1 ladder, 2 FENCE_CORE, 3 domain failure, 4 return
check. -/
def State.rung3 (s : State) (c detail : Nat) : State :=
  if s.coreFenced c then s
  else
    let s := (s.climbSlots c 3 true).setCoreState c 3
    let s := s.raise R.fltStatus F.fltStatusCoreFence R.fltCfenEvt
    let s := s.raise R.fltHostStatus F.fltHostStatusFenced R.fltHfenEvt
    let s := s.report (Src.core c) E.fltCoreFenced Rep.power detail
    let s := s.fenceTiles c
    let s := s.loseTokens (fun n _ => s.runsOn c (fun _ => true) n)
    let s := s.setLadder c { Ladder.init with fenceAt := some s.timeUs }
    let s := ((s.setDomReq (3 * c) false).setDomReq (3 * c + 1) false).setDomReq (3 * c + 2) false
    let s := s.abandonJobs (fun j => j.tiles.any (fun p => p / 128 == c))
    s.repairCore c

/-- Rung 2: the core's digital and SRAM domains are power-cycled (R403). -/
def State.rung2 (s : State) (c : Nat) : State :=
  let l := s.ladder c
  let again := match l.lastRung2 with
    | some t => decide (s.timeUs ≤ t + s.rcvP P.rcvHangRepeatS * 1000000)
    | none => false
  if again then s.rung3 c 1
  else
    let s := (s.climbSlots c 2 true).setCoreState c 2
    let s := (s.raise R.fltStatus F.fltStatusCoreCycle R.fltCycEvt).report (Src.core c) E.fltCoreCycled Rep.power
    let saved := (List.range 68).map (fun t => s.tileState c t)
    let s := s.fenceTiles c
    let s := s.loseTokens (fun n _ => s.runsOn c (fun _ => true) n)
    let s := s.dropRuns c
    let s := s.setLadder c { l with engines := 0, fencedAt := [], resetAt := [], slotOf := [], savedTiles := saved,
                                    lastRung2 := some s.timeUs, offAt := some s.timeUs, waking := false }
    (s.gateNow (3 * c + 1)).gateNow (3 * c + 2)

/-- Rung 1 on engine `e` of core `c` (R401, R406): a timeout, or a context fault. An engine already at rung 1, and a core
beyond it, does not re-enter the ladder (R423). -/
def State.rung1 (s : State) (c e : Nat) (h : HangInfo) (detail : Nat) (timeout : Bool) : State :=
  let l := s.ladder c
  if 2 ≤ s.coreState c || bit l.engines e then s
  else
    let again := timeout && (match l.lastRung1.get? e with
      | some t => decide (s.timeUs ≤ t + s.rcvP P.rcvHangRepeatS * 1000000)
      | none => false)
    let (s, n) := s.takeDump c e h
    let s := s.setLadder c { l with
      engines := l.engines + 2 ^ e, fencedAt := l.fencedAt.put e s.timeUs, resetAt := l.resetAt.del e,
      lastRung1 := if timeout then l.lastRung1.put e s.timeUs else l.lastRung1, slotOf := l.slotOf.put e n }
    let s := s.setCoreState c 1
    let s := s.raise R.fltStatus F.fltStatusEngFence R.fltEngEvt
    let s := s.report (Src.engine c e) E.fltEngineFenced Rep.dispatcher detail
    let s := s.fenceWork c e
    if again then s.rung2 c else s

/-- The sample copy of a fenced engine ends, or is stopped: the reset starts (R401, R402). -/
def State.startReset (s : State) (c e : Nat) : State :=
  s.setLadder c { s.ladder c with resetAt := (s.ladder c).resetAt.put e s.timeUs }

/-- The dump slot of a fenced engine whose sample is still being copied. -/
def State.copying (s : State) (c e : Nat) : Option Nat :=
  let l := s.ladder c
  if bit l.engines e && (l.resetAt.get? e).isNone then l.slotOf.get? e else none

/-- The sample copy ends (R402). -/
def State.copyEnd (s : State) (c e : Nat) : State :=
  match s.copying c e with
  | some n => (s.copySample c n).startReset c e
  | none => s

/-- 20 µs after the fence, the copy is stopped and its slot is incomplete (R402, R423). -/
def State.copyTimeout (s : State) (c e : Nat) : State :=
  match s.copying c e, (s.ladder c).fencedAt.get? e with
  | some n, some t =>
    if t + 20 ≤ s.timeUs then (s.modSlot n (fun x => { x with st := 3 })).startReset c e else s
  | _, _ => s

/-- The reset is done: no outstanding request of the engine is left (R401). -/
def State.resetDone (s : State) (c e : Nat) : State :=
  let l := s.ladder c
  let idle := !s.stk.reqs.any (fun r => r.2.core == c && r.2.engine == e
    && (match r.2.kind with | .xfer _ | .archive => false | _ => true))
  if bit l.engines e && (l.resetAt.get? e).isSome && idle then
    let l := { l with engines := l.engines - 2 ^ e, fencedAt := l.fencedAt.del e, resetAt := l.resetAt.del e,
                      slotOf := l.slotOf.del e }
    let s := s.setLadder c l
    let s := if l.engines = 0 then s.setCoreState c 0 else s
    s.report (Src.engine c e) E.fltRecovered Rep.dispatcher 1
  else s

/-- The reset is not done 200 µs after its start (R400). -/
def State.resetTimeout (s : State) (c e : Nat) : State :=
  match (s.ladder c).resetAt.get? e with
  | some t =>
    if t + 200 ≤ s.timeUs then
      (s.report (Src.engine c e) E.fltEngineResetHang Rep.dispatcher).rung2 c
    else s
  | none => s

/-- 1 ms off, the core's domains are requested awake again (R403). -/
def State.wakeCore (s : State) (c : Nat) : State :=
  let l := s.ladder c
  match l.offAt with
  | some t =>
    if s.coreState c = 2 ∧ ¬ l.waking ∧ t + 1000 ≤ s.timeUs then
      ((s.setLadder c { l with waking := true }).wakeReq (3 * c + 1)).wakeReq (3 * c + 2)
    else s
  | none => s

/-- The core's return checks have ended (R403). -/
def State.returnCore (s : State) (c : Nat) (ok : Bool) : State :=
  if s.coreState c = 2 && s.domOn (3 * c + 1) && s.domOn (3 * c + 2) then
    if ok then
      let l := s.ladder c
      let s := l.savedTiles.zipIdx.foldl (fun s e => s.setTileState c e.2 e.1) s
      let s := (s.setLadder c { l with savedTiles := [], offAt := none, waking := false }).setCoreState c 0
      s.report (Src.core c) E.fltRecovered Rep.power 2
    else s.rung3 c 4
  else s

/-- The fence is complete: the domains are off and the core's requests are no longer counted (R291, R404). -/
def State.fenceDone (s : State) (c : Nat) : State :=
  match (s.ladder c).fenceAt with
  | some _ =>
    let s := s.setLadder c { s.ladder c with fenceAt := none }
    let s := (s.dropRuns c).dropReqs c
    ((s.gateNow (3 * c)).gateNow (3 * c + 1)).gateNow (3 * c + 2)
  | none => s

/-- A fence is not complete 2 ms after its start. DESIGN CHOICE, assumption 99. -/
def State.fenceLate (s : State) (c : Nat) : Bool :=
  match (s.ladder c).fenceAt with
  | some t => decide (t + 2000 ≤ s.timeUs)
  | none => false

/-! ### Timeouts (R284, R285, R398, R406) -/

/-- An instance's timeout has expired (R284). SYNC counts from instantiation; any other instance from its release. -/
def State.expired (s : State) (x : Inst) (t : TaskRec) : Bool :=
  (x.st == .running || t.kind == 6) && decide (x.since + s.regNat (R.dspBudget t.budget) ≤ s.timeUs)

/-- What the dump records of an instance. -/
def State.hangOf (s : State) (x : Inst) : HangInfo :=
  let call := match s.token x.token with | some k => k.call.getD 0 | none => 0
  ⟨E.dspTaskTimeout, x.ctx, x.gen, x.task, x.token, call⟩

/-- Instance `i` is timed out (R285, R398): its token is cancelled, its object defaulted, and the ladder starts. -/
def State.timeOut (s : State) (x : Inst) (t : TaskRec) (k : Token) : State :=
  let h := s.hangOf x
  let s := s.markToken k
  let s := (s.cancelToken x.token).settle x.ctx
  let s := (s.raise R.dspStatus F.dspStatusTimeout R.dspTmoEvt).count (R.dspCxTimeouts x.ctx)
  let s := s.report (Src.engine x.core x.engine) E.dspTaskTimeout Rep.dispatcher (x.task + 2 ^ 16 * x.ctx + 2 ^ 24 * x.gen)
  if 1 ≤ t.kind ∧ t.kind ≤ 5 then s.rung1 x.core x.engine h x.task true else s

/-- The timeout of instance `i` has expired (R285, R398). -/
def State.taskLate (s : State) (i : Nat) : State :=
  match s.inst i with
  | none => s
  | some x =>
    match s.instTask x, s.token x.token with
    | some t, some k => if s.expired x t then s.timeOut x t k else s
    | _, _ => s

/-- The engines that still hold a request counted for context `x` (R406). -/
def State.heldBy (s : State) (x : Nat) : List (Nat × Nat) :=
  let rs := (s.stk.reqs.filter (fun e => e.2.ctx == x && (match e.2.kind with | .xfer _ | .archive => false | _ => true))).map
    (fun e => (e.2.core, e.2.engine))
  let ts := (s.mc.tiles.filter (fun e => e.2.runs.any (fun r => r.2.inp.ctx == x && r.2.entry.isSome))).map (fun e => (e.1 / 128, 1))
  (rs ++ ts).foldl (fun l e => if l.contains e then l else l ++ [e]) []

/-- A context enters FAULTED (R292, R406): rung 1 on each engine that holds a request of it. -/
def State.ctxFaulted (s : State) (x : Nat) : State :=
  let gen := s.ctxGen x
  let s := (s.setF (R.dspCxState x) F.dspCxStateState 5).setF (R.dspCxCtrl x) F.dspCxCtrlTeardown 0
  let s := s.raise R.dspStatus F.dspStatusTdFault R.dspTdfEvt
  let s := s.report (Src.ctx x) E.dspTeardownTimeout (Rep.fw 1)
  (s.heldBy x).foldl
    (fun s e => s.rung1 e.1 e.2 ⟨E.dspTeardownTimeout, x, gen, 0xFFFF, 0, 0⟩ (0xFFFF + 2 ^ 16 * (0x8000 + x)) false) s

/-! ### Records and summaries (R416, R418, R420) -/

/-- FLT_REC_CTRL.avail follows the queue. -/
def State.syncClosed (s : State) : State := s.setF R.fltRecCtrl F.fltRecCtrlAvail s.flt.closed.length

/-- A closed record joins the queue; CC3, while it runs, forms its log entry (R416, R418). -/
def State.putClosed (s : State) (r : Rec) : State :=
  let up := s.sys.ccUp
  let s := ({ s with flt := { s.flt with closed := s.flt.closed ++ [{ r with entry := up }] } } : State).syncClosed
  if up then s.addEntry (s.entryOf r) else s

/-- CC3 forms the entries of records that closed while it did not run. DEDUCED, assumption 71. -/
def State.formEntries (s : State) : State :=
  let l := s.flt.closed.filter (fun r => !r.entry)
  let s : State := { s with flt := { s.flt with closed := s.flt.closed.map (fun r => { r with entry := true }) } }
  l.foldl (fun s r => s.addEntry (s.entryOf r)) s

/-- The oldest open record closes 10 ms after it opened, if the queue has room (R416). The overflow record closes in the same
way. -/
def State.closeRecord (s : State) : State :=
  let due := fun (r : Rec) => decide (r.first + 10000 ≤ s.timeUs)
  if 64 ≤ s.flt.closed.length then s
  else
    match s.flt.openRecs.find? due with
    | some r =>
      (({ s with flt := { s.flt with openRecs := s.flt.openRecs.erase r } } : State).syncOpen).putClosed r
    | none =>
      match s.flt.ovf with
      | some r =>
        if due r then ({ s with flt := { s.flt with ovf := none } } : State).putClosed r else s
      | none => s

/-- The head of the closed-record queue is removed (R424). -/
def State.popRecord (s : State) : State :=
  ({ s with flt := { s.flt with closed := s.flt.closed.drop 1 } } : State).syncClosed

/-- Insert a record: latest last time first, then the one opened later (R420). -/
def insertRec (r : Rec) : List Rec → List Rec
  | [] => [r]
  | x :: xs =>
    if x.last < r.last ∨ (x.last = r.last ∧ x.first ≤ r.first) then r :: x :: xs else x :: insertRec r xs

/-- A fault summary page with cause `code` is written at once (R419, R420). -/
def State.faultSummary (s : State) (code : Nat) : State :=
  let rs := (s.flt.openRecs ++ s.flt.closed).filter (fun r => decide (2 ≤ severity r.code))
  let top := (rs.foldl (fun l r => insertRec r l) []).take 6
  let head : LogEntry := ⟨E.fltSummary, Src.device, severity E.fltSummary, 1, Rep.fw 3, s.counter 2, s.timeUs, 0, 1, code, 0⟩
  let es := (head :: top.map (fun r => s.entryOf r 2)).zipIdx.map
    (fun e => { e.1 with seq := (s.flt.logSeq + 1 + e.2) % 2 ^ 32 })
  let s : State := { s with flt := { s.flt with logSeq := (s.flt.logSeq + es.length) % 2 ^ 32 } }
  s.enqueue 1 (.log (es.flatMap LogEntry.bytes) true)

/-- 5 ms into an orderly stop (R392): what remains is cancelled and defaulted, the safe state entered, a summary written. -/
def State.stopDrain (s : State) : State :=
  match s.thm.stopAt with
  | some t =>
    if t + 5000 ≤ s.timeUs ∧ ¬ s.thm.drained then
      let s := s.loseTokens (fun _ _ => true)
      let s := (s.enterSafe 1).faultSummary E.thmStop
      { s with thm := { s.thm with drained := true } }
    else s
  | none => s

/-- A core at rung 1 or 2 reads live once its domains are gated for SLEEP or STOPPED (R423, R424). -/
def State.dropLadders (s : State) : State :=
  (List.range 16).foldl
    (fun s c => if s.coreFenced c then s else (s.setLadder c Ladder.init).setCoreState c 0) s

/-- The end of an orderly stop (R392): every switched domain except the parameter store is gated. -/
def State.stopEnd (s : State) : State :=
  match s.thm.stopAt with
  | some _ =>
    if s.thm.drained then
      let s := (s.gateAll (fun d => d == 64)).dropLadders
      let s := s.stacksLost.setPwrState 3
      { s with thm := { s.thm with stopAt := none } }
    else s
  | none => s

end Sys2Proof.Machine
end

