-- ==== Sys2Proof/Machine/DispCmds.lean ====
section
/-! DEFINITION. Commands of the dispatcher (R275 to R294, R189 to R192): release and completion of instances, tracking,
decisions, gathering, timeouts, teardown, suspension and resumption. -/

namespace Sys2Proof.Machine

/-! ### Release, gathering, timeouts (R278, R283, R285) -/

def execInstanceRelease (c : CoreIx) (e : EngIx) (s : State) : Out := .next (s.releaseNext c.val e.val)

/-- The oldest member of an open gathered task has waited gather_wait (R283). -/
def State.gatherOver (s : State) (x op copy : Nat) : State :=
  match s.dsp.gathers.find? (fun e => e.2.ctx == x && e.2.op == op && e.2.copy == copy && !e.2.closed
      && decide (s.ctxP x P.ctxGatherWait ≤ 10 * (s.timeUs - e.2.since))) with
  | some (g, _) => s.closeGather g
  | none => s

def execGatherWait (x : CtxIx) (stateOp copy : Nat) (s : State) : Out := .next (s.gatherOver x.val stateOp copy)

def execTaskTimeout (inst : Nat) (s : State) : Out := .next (s.taskLate inst)

/-! ### Completion (R276, R289) -/

/-- A completion that carries an old generation is discarded and counted (R289). -/
def State.staleDone (s : State) (i : Nat) (x : Inst) : State :=
  ((s.removeInst i).raise R.dspStatus F.dspStatusStale R.dspStaleEvt).settle x.ctx

/-- An operation that a task of this kind completes with (R272). -/
def opFits (kind : Nat) : InstOp → Bool
  | .plain => kind == 0 || kind == 1 || kind == 2 || kind == 5
  | .append _ => kind == 4
  | .attention _ => kind == 3
  | _ => kind == 2

/-- Inputs of the instance are queued on a tile or not complete (R282). -/
def State.mvmBusy (s : State) (i : Nat) : Bool :=
  s.mc.tiles.any (fun e => e.2.q.any (fun q => q.inst == i) || e.2.runs.any (fun r => r.2.inp.inst == i))

/-- Stacks requests of an XFER instance are outstanding (R272). -/
def State.xferBusy (s : State) (i : Nat) : Bool :=
  s.stk.reqs.any (fun e => match e.2.kind with | .buffer j => j == i | _ => false)

/-! ### Appends (R249) -/

/-- The granules of 2 KiB that `n` bytes from offset `o` of a folio touch, by page (R254, R256). -/
def granulePages (f : Folio) (o n : Nat) : List Nat :=
  (List.range (ceilDiv (o % 2048 + n) 2048)).map (fun k => f.pages.getD ((o / 2048 + k) * 2048 / 65536) 0)

/-- The token's entry at state layer `l` is written: scales of heads named for the first time, the bytes, and one Stacks
request per granule (R158, R238, R249). DEDUCED, assumption 88. -/
def State.doAppend (s : State) (x : Inst) (k : Token) (l : Nat) (gs : List (Nat × KvGroup × KvGroup)) : State :=
  match k.call with
  | none => s
  | some call =>
    match s.folio call with
    | none => s
    | some f =>
      match f.layout.layers[l]? with
      | none => s
      | some (heads, b3) =>
        let gs := gs.filter (fun g => decide (g.1 < heads))
        let f := setS2 f l gs
        let (s, bs) := (s.setFolio call f).kvEntry x.core f l heads b3 gs
        let o := f.entryOff k.pos l
        let s := s.folioWrite f o bs
        let ps := granulePages f o bs.length
        let a := s.stk.nextAppend
        let s : State := { s with stk := { s.stk with
          appends := s.stk.appends.put a ⟨call, l, 1, ps.length⟩, nextAppend := a + 1 } }
        ps.foldl (fun s p => s.newReq ⟨.append a, x.ctx, x.gen, x.core, 4, p, 0⟩) s

/-! ### Attention (R213, R215, R251 to R253) -/

/-- Every read that the gathered task of leader `i` asked for has completed (R255). -/
def State.fetchDone (s : State) (i : Nat) : Bool :=
  let mine := fun (r : Req) => match r.kind with | .fetch j => j == i | _ => false
  !s.stk.reqs.any (fun e => mine e.2) && !s.stk.fetchWait.any mine

/-- Query row `row` of an object with `n` positions does not attend to position `j` (R213). -/
def causalOut (op : StateOp) (row n j : Nat) : Bool := op.mask == 1 && decide (n + row < j + op.rows)

/-- One query row is computed and written (R250 to R253). A pointer entry that fails R215 writes nothing. -/
def State.attendRow (s : State) (x : Inst) (t : TaskRec) (op : StateOp) (l tN : Nat) (r : AttRow) : State :=
  let call := r.call.toNat
  match s.folio call with
  | none => s
  | some f =>
    match f.layout.layers[l]? with
    | none => s
    | some (heads, b3) =>
      if s.ptrOk x.ctx call && decide (r.head.val < op.heads ∧ r.row.val < op.rows) then
        let n := f.nl.getD l 0
        let ps := (List.range n).map (fun p => s.attFetch f l heads b3 p r.head.val)
        let (s2k, s2v) := f.s2Of l r.head.val
        s.padNarrow x.core r.dst (fmtOf t.outFmt)
          (attRow r.q op.sigma s2k s2v tN (causalOut op r.row.val n) ps)
      else s

/-- The gathered task's rows, in its plan's tiles (R217, R251). -/
def State.doAttention (s : State) (x : Inst) (t : TaskRec) (g : Gather) (rows : List AttRow) : State :=
  match s.ctxCat x.ctx, s.ctxPkg x.ctx with
  | some c, some p =>
    match c.ops[g.op]? with
    | none => s
    | some op =>
      let l := c.stateIndex op.layer
      let calls := s.callsOf g
      let n := calls.foldl (fun m call => match s.folio call with | some f => max m (f.nl.getD l 0) | none => m) 0
      let tN := c.tileN p.dir g.op op (bucketOf op.batchBuckets calls.length) (bucketOf op.folioBuckets n)
      rows.foldl (fun s r => s.attendRow x t op l tN r) s
  | _, _ => s

/-! ### Tracking (R239 to R247, R277, R306) -/

/-- An object is refused admission: its lane takes the default, the token is cancelled (R30, R277, R306). -/
def State.refuseObject (s : State) (n : Nat) (k : Token) (pLead : Pos) (xMin xMax : Nat) : State :=
  (s.defaultRefused k.lane pLead xMin xMax).cancelToken n

/-- Attached heads of lane `l` (R344). -/
def State.headsUp (s : State) (l : Nat) : Nat :=
  ((List.range 4).filter (fun p => bit (s.laneP l P.laneHeads) p && s.attached p)).length

/-- No slot is granted (R306). -/
def State.slotRefused (s : State) (l : Nat) : State :=
  (s.raise R.lckStatus F.lckStatusSlotFull R.lckSlotfEvt).report (Src.lane l) E.lckSlotFull Rep.lineClock

/-- A slot in OPEN for a sighting (R305). -/
def openSlot (l call : Nat) (pLead : Pos) (xMin xMax : Nat) : ObjSlot :=
  { lane := l, call := call, pLead := pLead, pSeen := pLead, xMin := xMin, xMax := xMax, pTrail := 0, st := .openS,
    cutReg := false, cutDue := false, held := none, marked := false, action := 0, isDefault := false, openPos := 0,
    closePos := 0, v0 := 0, v1 := 0, flags := 0 }

/-- The token takes the object's next position, or is not admitted to the model (R240). -/
def State.placeToken (s : State) (n call : Nat) : State :=
  match s.nextPosition call with
  | (s, some pos) =>
    match s.token n with
    | some k => s.bindToken n k call pos
    | none => s
  | (s, none) => s.cancelToken n

/-- The slots of an object that is still open have seen the strip's last line (R305). -/
def State.seeObject (s : State) (call : Nat) (p : Pos) : State :=
  (s.slotOfCall call).foldl
    (fun s i => match s.slot i with
      | some ⟨e, some o, outs⟩ => if o.st = .openS then s.setSlot i ⟨e, some { o with pSeen := p }, outs⟩ else s
      | _ => s) s

/-- Segmentation reports a new object (R239, R305, R306): slot first, then call number and folio. -/
def State.admitObject (s : State) (n : Nat) (k : Token) (pLead : Pos) (xMin xMax : Nat) : State :=
  let l := k.lane
  if s.headsUp l < s.laneP l P.laneMinHeads then s.refuseObject n k pLead xMin xMax
  else if ¬ s.slotGrant then (s.slotRefused l).refuseObject n k pLead xMin xMax
  else
    let (i, s) := s.takeSlot ⟨s.laneEnc l, some (openSlot l 0 pLead xMin xMax), []⟩
    match s.admitFolio (s.laneP l P.laneShelf) with
    | (s, none) => (s.freeSlot i).refuseObject n k pLead xMin xMax
    | (s, some call) =>
      let s := s.setSlot i ⟨s.laneEnc l, some { openSlot l call pLead xMin xMax with pSeen := k.stamp }, []⟩
      let s : State := { s with dsp := { s.dsp with defaulted := s.dsp.defaulted.filter (· != call),
                                                    lastToken := s.dsp.lastToken.del call } }
      s.placeToken n call

/-- A later sighting asks to join a live folio (R247); refused, it is a new object. -/
def State.joinObject (s : State) (n : Nat) (k : Token) (call : Nat) (pLead : Pos) (xMin xMax : Nat) : State :=
  let l := k.lane
  if s.headsUp l < s.laneP l P.laneMinHeads then s.refuseObject n k pLead xMin xMax
  else if ¬ s.slotGrant then (s.slotRefused l).refuseObject n k pLead xMin xMax
  else match s.joinFolio k.ctx call with
    | (s, true) =>
      let (_, s) := s.takeSlot ⟨s.laneEnc l, some { openSlot l call pLead xMin xMax with pSeen := k.stamp }, []⟩
      let s : State := { s with dsp := { s.dsp with defaulted := s.dsp.defaulted.filter (· != call) } }
      s.placeToken n call
    | (s, false) => s.admitObject n k pLead xMin xMax

/-- The tracking task of token `n` is complete: 2 with a close, 1 without (R276). -/
def State.setTracked (s : State) (n v : Nat) : State :=
  match s.token n with
  | some k => s.setToken n { k with tracked := max k.tracked v }
  | none => s

/-- One action of a tracking task (R277). -/
def State.track1 (s : State) (n : Nat) (a : TrackAct) : State :=
  match s.token n with
  | none => s
  | some k =>
    match a with
    | .noObject => s.cancelToken n
    | .newObject pLead xMin xMax => s.admitObject n k pLead xMin xMax
    | .token call =>
      match s.folio call.toNat with
      | some f =>
        if s.ptrOk k.ctx call.toNat && f.st == 1 then (s.seeObject call.toNat k.stamp).placeToken n call.toNat
        else s.cancelToken n
      | none => s.cancelToken n
    | .join call pLead xMin xMax => s.joinObject n k call.toNat pLead xMin xMax
    | .close call pTrail =>
      if s.ptrOk k.ctx call.toNat then (s.closeFolio call.toNat pTrail false).setTracked n 2 else s

/-! ### The result of an instance -/

/-- The operation can complete now: its inputs have all arrived. -/
def State.opReady (s : State) (i : Nat) (x : Inst) : InstOp → Bool
  | .plain => !s.mvmBusy i && !s.xferBusy i
  | .combine es => s.entriesReady x.core (es.map (·.val))
  | .epilogue (some e) _ _ _ => s.entriesReady x.core [e.val]
  | .attention _ =>
    match s.dsp.gathers.get? x.group with
    | some g => g.closed && g.members.all s.fetchDone
    | none => false
  | _ => true

/-- What the engine's operation writes (R164, R175, R181, R184, R187, R154, R249, R251). -/
def State.opEffect (s : State) (x : Inst) (t : TaskRec) (k : Token) : InstOp → State
  | .plain => s
  | .ranging v int8 dst => s.doRange x.core x.token v int8 dst
  | .combine es => s.doCombine x.core x.ctx (es.map (·.val))
  | .epilogue e nan cols dst => s.doEpilogue x.core (e.map (·.val)) nan cols t.act (fmtOf t.outFmt) dst
  | .rowWise op row dst => s.padNarrow x.core dst (fmtOf t.outFmt) (rowWise op row)
  | .topK fmt row n dst => s.padWrite x.core dst ((topK fmt row n).flatMap topBytes)
  | .rotate b v dst => s.padNarrow x.core dst (fmtOf t.outFmt) (rotateVec b v)
  | .append gs => s.doAppend x k (t.kf.getD 0 0) gs
  | .attention rows =>
    match s.dsp.gathers.get? x.group with
    | some g => s.doAttention x t g rows
    | none => s
  | .tracking acts => (acts.foldl (fun s a => s.track1 x.token a) s).setTracked x.token 1
  | .handOver call e => s.handOver call.toNat e.val

/-- The instances that complete together: a gathered task's members, or the one (R283). -/
def State.completes (s : State) (i : Nat) (x : Inst) : InstOp → List Nat
  | .attention _ =>
    match s.dsp.gathers.get? x.group with
    | some g => g.members
    | none => [i]
  | _ => [i]

/-- An engine completes instance `i` (R276, R289). -/
def State.instanceComplete (s : State) (i : Nat) (op : InstOp) : State :=
  match s.inst i with
  | none => s
  | some x =>
    if x.st ≠ .running then s
    else if ¬ s.genOk x.ctx x.gen then s.staleDone i x
    else match s.instTask x, s.token x.token with
      | some t, some k =>
        if opFits t.kind op && s.opReady i x op then
          let is := s.completes i x op
          is.foldl (fun s j => s.complete j) (s.opEffect x t k op)
        else s
      | _, _ => s

def execInstanceComplete (inst : Nat) (op : InstOp) (s : State) : Out := .next (s.instanceComplete inst op)

/-! ### Decisions (R188, R307, R311) -/

/-- The first value less the second: exact for an integer row, in FP32 for a float row. DESIGN CHOICE, assumption 44. -/
def topMargin (isFloat : Bool) (a b : Word) : FpVal :=
  if isFloat then f32 (f32Add a (f32Negate b))
  else
    let d := sext 32 a.toNat - sext 32 b.toNat
    .fin (decide (d < 0)) d.natAbs 0

/-- `x` is below `y`; a NaN is not. -/
def fpBelow (x y : FpVal) : Bool :=
  match x, y with
  | .nan _, _ => false
  | _, .nan _ => false
  | x, y => decide (fpCmp x y < 0)

/-- The action of a top-k result on lane `l`: none for a NaN, `some none` for a class out of range (R188, R311). -/
def State.decideAction (s : State) (l : Nat) (isFloat : Bool) : List TopEntry → Option (Option Nat)
  | [] => none
  | e :: rest =>
    if isFloat && f32IsNaN e.value then none
    else if 256 ≤ e.pos.toNat then some none
    else
      let unsure := match rest with
        | [] => false
        | b :: _ => fpBelow (topMargin isFloat e.value b.value) (f32 (BitVec.ofNat 32 (s.actLe l 0 4)))
      some (some (if unsure then s.actByte l 4 else s.actByte l (0x20 + e.pos.toNat)))

/-- The model action of an object reaches its slots that are not armed; without one it is late and discarded (R307).
DEDUCED, assumption 45. -/
def State.commitCall (s : State) (l call action : Nat) : State :=
  let is := (s.slotOfCall call).filter (fun i => match s.slot i with
    | some ⟨_, some o, _⟩ => decide (o.st ≠ .armed)
    | _ => false)
  if is.isEmpty then s.discardModel l else is.foldl (fun s i => s.commitDecide i action) s

/-- A DECIDE instance completes (R311). -/
def State.decideDone (s : State) (i : Nat) (isFloat : Bool) (top : List TopEntry) : State :=
  match s.inst i with
  | none => s
  | some x =>
    match s.instTask x, s.token x.token with
    | some t, some k =>
      if t.kind ≠ 7 ∨ x.st ≠ .running then s
      else if ¬ s.genOk x.ctx x.gen then s.staleDone i x
      else
        let s := match s.decideAction k.lane isFloat top, k.call with
          | some (some a), some call => s.commitCall k.lane call a
          | some none, _ => s.report (Src.lane k.lane) E.actClassRange Rep.dispatcher
          | _, _ => s
        s.complete i
    | _, _ => s

def execDecide (inst : Nat) (isFloat : Bool) (top : List TopEntry) (s : State) : Out :=
  .next (s.decideDone inst isFloat top)

/-! ### Teardown (R287, R289, R291, R293) -/

/-- DSP_CX_CTRL.teardown is written 1 (R20, R287). -/
def State.wantTeardown (s : State) (x : Nat) : State :=
  let st := s.ctxState x
  if st = 0 ∨ st = 5 then s.report (Src.ctx x) E.dspCtxState Rep.dispatcher
  else if st = 4 ∨ (s.ctx x).tdWait then s
  else s.requestTeardown x

def execTeardown (x : CtxIx) (s : State) : Out := .next (if s.domOn 66 then s.wantTeardown x.val else s)

/-- 1 ms has passed since the last generation change (R293). -/
def State.deferredTeardown (s : State) (x : Nat) : State :=
  let c := s.ctx x
  let ready := match c.genAt with | some t => decide (t + 1000 ≤ s.timeUs) | none => true
  if c.tdWait && ready then (s.setCtx x { c with tdWait := false }).startTeardown x else s

def execTeardownDeferred (x : CtxIx) (s : State) : Out := .next (s.deferredTeardown x.val)

/-- The outstanding-request counter of a context in TEARING is zero (R291). -/
def execTeardownComplete (x : CtxIx) (s : State) : Out :=
  .next (if s.ctxState x.val = 4 ∧ s.outstanding x.val = 0 then s.endTeardown x.val else s)

/-! ### Suspension (R189 to R192, R288) -/

/-- The context's suspend bit is written 1 (R288). -/
def State.suspendCtx (s : State) (x : Nat) : State :=
  if s.ctxState x = 2 then
    (s.setF (R.dspCxCtrl x) F.dspCxCtrlSuspend 1).setCtx x { s.ctx x with saving := true }
  else s

def execSuspend (x : CtxIx) (s : State) : Out := .next (s.suspendCtx x.val)

/-- The running instances of context `x` are complete, but for those that only wait for inputs, and no issued slice of it
lacks a code (R189, R288). DEDUCED, assumption 46. -/
def State.saveReady (s : State) (x : Nat) : Bool :=
  (s.ctxInsts x).all (fun e => e.2.st != .running
      || (match s.instTask e.2 with | some t => decide (t.kind ≤ 1) | none => true))
    && s.mc.tiles.all (fun e => e.2.slices.all (fun sl => match e.2.runs.get? sl.run with
        | some r => r.inp.ctx != x
        | none => true))

/-- Address of core `c`'s part of the save area (R286). -/
def State.saveAt (s : State) (x c : Nat) : Nat := s.ctxP x P.ctxSaveBase + 0x220000 * c

/-- Zeros up to the next multiple of 64 B. -/
def pad64 (bs : Bytes) : Bytes := bs ++ List.replicate ((64 - bs.length % 64) % 64) 0

/-- A saved entry (R190). -/
def entryBytes (e : Nat) (x : AccEntry) : Bytes :=
  pad64 (leBytes 8 x.header ++ leBytes 2 e ++ leBytes 6 0
    ++ (x.vals.take (x.ncol + 1)).flatMap (fun v => leBytes 4 (ofInt 32 v)))

/-- The entries of context `x` in core `c`. -/
def State.ctxEntries (s : State) (x c : Nat) : List (Nat × AccEntry) :=
  ((s.accOf c).filter (fun e => e.2.ctx == x && e.2.gen == s.ctxGen x)).map (fun e => (e.1 % 1024, e.2))

/-- The save record of core `c` (R190). -/
def State.saveRecord (s : State) (x c : Nat) : Bytes :=
  let es := s.ctxEntries x c
  let body := es.flatMap (fun e => entryBytes e.1 e.2)
  leBytes 4 0x41434353 ++ leBytes 2 1 ++ leBytes 2 es.length ++ leBytes 1 x ++ leBytes 1 (s.ctxGen x) ++ leBytes 2 0
    ++ leBytes 4 (crc32c body) ++ body

/-- The accumulators of core `c` are saved and freed (R189, R288). DESIGN CHOICE, assumption 47. -/
def State.saveCore (s : State) (x c : Nat) : State :=
  let es := s.ctxEntries x c
  let bs := s.saveRecord x c
  let s : State := { s with stk := { s.stk with mem := s.stk.mem.setRun 0 (s.saveAt x c) bs } }
  let k := s.ctx x
  let s := s.setCtx x { k with saved := k.saved ++ [c],
                               kept := es.foldl (fun t e => t.put (1024 * c + e.1) (e.2.token, e.2.nan)) k.kept }
  es.foldl (fun s e => s.freeAcc c e.1) (s.count (R.accSaved c) es.length)

/-- The save is made and the context is SUSPENDED (R288). -/
def State.saveCtx (s : State) (x : Nat) : State :=
  if (s.ctx x).saving && s.ctxState x == 2 && s.saveReady x then
    let cs := (List.range 16).filter (fun c => s.domOn (3 * c + 2))
    let s := cs.foldl (fun s c => s.saveCore x c) s
    (s.setCtx x { s.ctx x with saving := false }).setF (R.dspCxState x) F.dspCxStateState 6
  else s

def execSave (x : CtxIx) (s : State) : Out := .next (s.saveCtx x.val)

/-- The entries of a save record: index at save and entry. -/
def savedEntries : Nat → Bytes → List (Nat × AccEntry)
  | 0, _ => []
  | n + 1, bs =>
    let h := leAt bs 0 8
    let nc := h / 2 ^ 16 % 512 + 1
    let vals := (List.range nc).map (fun i => sext 32 (leAt bs (16 + 4 * i) 4))
    (leAt bs 8 2, hdrEntry h vals) :: savedEntries n (bs.drop (16 + 4 * nc + (64 - (16 + 4 * nc) % 64) % 64))

/-- Bytes of the saved entries of a record (R190). -/
def savedLen (es : List (Nat × AccEntry)) : Nat :=
  (es.map (fun e => 16 + 4 * (e.2.ncol + 1) + (64 - (16 + 4 * (e.2.ncol + 1)) % 64) % 64)).sum

/-- One saved entry is written into a free entry (R191). Answers its old and new index. -/
def State.restoreEntry (s : State) (x c : Nat) (e : Nat × AccEntry) : State × Option (Nat × Nat) :=
  let (tok, nan) := (s.ctx x).kept.getD (1024 * c + e.1) (0, false)
  let y : AccEntry := { e.2 with st := if e.2.st = 2 then 2 else 3, token := tok, nan := nan,
                                 vals := (List.range 512).map (fun i => e.2.vals.getD i 0) }
  match s.allocAcc c y with
  | (s, some n) => (s.count (R.accRestored c), some (e.1, n))
  | (s, none) => (s, none)

/-- The entry that replaces `old`. -/
def newIndex (l : List (Nat × Nat)) (old : Nat) : Nat :=
  match l.find? (fun p => p.1 == old) with
  | some p => p.2
  | none => old

/-- Restore the record of core `c`, or refuse it (R191, R192). -/
def State.restoreCore (s : State) (x c : Nat) : State :=
  let rd := fun (o n : Nat) => s.stk.mem.getRun 0 (s.saveAt x c + o) n
  let h := rd 0 16
  let es := savedEntries (min (leAt h 6 2) 1024) (rd 16 0x21FFF0)
  let ok := decide (leAt h 0 4 = 0x41434353 ∧ leAt h 4 2 = 1 ∧ leAt h 6 2 ≤ 1024
    ∧ leAt h 0xC 4 = crc32c (rd 16 (savedLen es)))
  if ¬ ok then
    (s.raise (R.accStatus c) F.accStatusRestoreErr (R.accRstEvt c)).report (Src.ctx x) E.dspAccRestoreBad Rep.dispatcher
  else if leAt h 9 1 % 16 ≠ s.ctxGen x then
    (s.raise (R.accStatus c) F.accStatusStale (R.accStaleEvt c)).report (Src.ctx x) E.dspAccRestoreStale Rep.dispatcher
  else
    let (s, moved) := es.foldl
      (fun (a : State × List (Nat × Nat)) e => let (s, r) := a.1.restoreEntry x c e; (s, a.2 ++ r.toList)) (s, [])
    { s with mc := { s.mc with tiles := s.mc.tiles.map (fun (e : Nat × TileRt) =>
        if e.1 / 128 = c then
          (e.1, { e.2 with runs := e.2.runs.map (fun (r : Nat × InRun) =>
            if r.2.inp.ctx = x then (r.1, { r.2 with entry := r.2.entry.map (newIndex moved) }) else r) })
        else e) } }

/-- The context's suspend bit is written 0 (R288). -/
def State.resumeCtx (s : State) (x : Nat) : State :=
  if s.ctxState x = 6 then
    let s := (s.ctx x).saved.foldl (fun s c => s.restoreCore x c) s
    ((s.dropSave x).setF (R.dspCxState x) F.dspCxStateState 2).settle x
  else if s.ctxState x = 2 then s.dropSave x
  else s

def execResume (x : CtxIx) (s : State) : Out := .next (s.resumeCtx x.val)

end Sys2Proof.Machine
end

