-- ==== Sys2Proof/Machine/StackCmds.lean ====
section
/-! DEFINITION. Commands of the Stacks (R244 to R261, R110, R399): requests and their errors, scrub, folio release, page return
and the archive. -/

namespace Sys2Proof.Machine

/-! ### Requests (R249, R254 to R260, R399) -/

/-- Contexts whose catalogue has a Stacks buffer on page `p` (R258, R273). -/
def State.ctxsOnPage (s : State) (p : Nat) : List Nat :=
  (List.range 64).filter (fun x => match s.ctxCat x with
    | some c => s.ctxState x != 0
        && c.bufs.any (fun b => b.mem == 1 && decide (b.base / 65536 ≤ p ∧ p * 65536 < b.base + b.size))
    | none => false)

/-- An uncorrectable error in a catalogue buffer faults the contexts that use it (R258, R289). -/
def State.bufferFault (s : State) (p : Nat) : State :=
  if s.poolHi ≤ p then (s.ctxsOnPage p).foldl State.faultCtx s else s

/-- One more write of an append is acknowledged; with the last, n_l advances (R249). -/
def State.ackAppend (s : State) (a : Nat) (live : Bool) : State :=
  match s.stk.appends.get? a with
  | none => s
  | some p =>
    if ¬ live then { s with stk := { s.stk with appends := s.stk.appends.del a } }
    else if 1 < p.left then
      { s with stk := { s.stk with appends := s.stk.appends.put a { p with left := p.left - 1 } } }
    else
      let s : State := { s with stk := { s.stk with appends := s.stk.appends.del a } }
      match s.folio p.call with
      | some f =>
        s.setFolio p.call { f with nl := (List.range f.layout.layers.length).map (fun i =>
          f.nl.getD i 0 + (if i = p.layer then p.count else 0)) }
      | none => s

/-- The instance that used a failed catalogue buffer is timed out (R258, R406). DEDUCED, assumption 49. -/
def State.bufferLost (s : State) (i : Nat) : State :=
  match s.inst i with
  | none => s
  | some x =>
    match s.instTask x, s.token x.token with
    | some t, some k => s.timeOut x t k
    | _, _ => s

/-- What the end of a request means for what asked for it; `ok` without an uncorrectable error. -/
def State.reqEffect (s : State) (r : Req) (ok : Bool) : State :=
  let live := s.genOk r.ctx r.gen
  let s := match r.kind with
    | .xfer _ | .archive => s
    | _ => if live then s else s.raise R.dspStatus F.dspStatusStale R.dspStaleEvt
  match r.kind with
  | .fetch _ => s.pumpFetch r.core
  | .append a => s.ackAppend a (live && ok)
  | .buffer i => if ok || !live then s else s.bufferLost i
  | .xfer _ => s
  | .archive => s

/-- A request is no longer outstanding: its counter falls (R291). -/
def State.dropReq (s : State) (n : Nat) (r : Req) : State :=
  (({ s with stk := { s.stk with reqs := s.stk.reqs.del n } } : State).countOut r.ctx false)

/-- Request `n` completes with an uncorrectable error (R258). -/
def State.reqFailed (s : State) (n : Nat) : State :=
  match s.stk.reqs.get? n with
  | none => s
  | some r => (((s.dropReq n r).ueAt r.page (Rep.hbm (pageChannel r.page / 16))).bufferFault r.page).reqEffect r false

/-- Request `n` fails; when its channel fails with it, so does every request outstanding to that channel (R260, R399). -/
def State.reqLost (s : State) (n : Nat) : State :=
  match s.stk.reqs.get? n with
  | none => s
  | some r =>
    let ch := pageChannel r.page
    let was := s.chFailed ch
    let s := s.reqFailed n
    if s.chFailed ch && !was then
      ((s.stk.reqs.filter (fun e => pageChannel e.2.page == ch)).map (·.1)).foldl State.reqFailed s
    else s

/-- Request `n` completes (R257, R258). -/
def State.reqComplete (s : State) (n : Nat) (a : EccResult) : State :=
  match s.stk.reqs.get? n with
  | none => s
  | some r =>
    match a with
    | .ok => (s.dropReq n r).reqEffect r true
    | .corrected k => ((s.dropReq n r).ceAt r.page k).reqEffect r true
    | .uncorrectable => s.reqLost n

def execStacksRequestComplete (req : Nat) (r : EccResult) (s : State) : Out := .next (s.reqComplete req r)

/-- 50 µs without an answer (R399). -/
def execStacksRequestTimeout (req : Nat) (s : State) : Out :=
  .next (match s.stk.reqs.get? req with
    | some r => if r.since + 50 ≤ s.timeUs then s.reqLost req else s
    | none => s)

/-- STK_CTRL.scrub_en is 1, and scrub reads page `p` (R257, R258, R261). -/
def State.patrol (s : State) (p : Nat) (a : EccResult) : State :=
  if s.isSet R.stkCtrl F.stkCtrlScrubEn ∧ p < s.topPage ∧ s.stk.built = true then
    match a with
    | .ok => s
    | .corrected k => s.ceAt p k
    | .uncorrectable => (s.ueAt p (Rep.hbm (pageChannel p / 16))).bufferFault p
  else s

def execPatrolScrub (page : BitVec 20) (r : EccResult) (s : State) : Out := .next (s.patrol page.toNat r)

/-! ### Release and page return (R244 to R246, R268) -/

/-- A folio that is due is released, in each shelf by release position; not in self-refresh (R245). -/
def State.releaseDue (s : State) (call : Nat) : State :=
  match s.folio call with
  | some f => if f.due && s.firstDue call f && !s.stk.selfRefresh then s.releaseFolio call else s
  | none => s

def execFolioReleaseDue (call : BitVec 24) (s : State) : Out := .next (s.releaseDue call.toNat)

/-- A folio still open open_max_lc after its start position is closed there (R244). -/
def State.forceClose (s : State) (call : Nat) : State :=
  match s.folio call with
  | some f =>
    let k := callShelf call
    let p := f.start + BitVec.ofNat 48 (s.getF (R.stkShOpenMax k) F.stkShOpenMaxLc)
    if f.st = 1 ∧ Pos.atOrAfter (s.shelfPos k) p then s.closeFolio call p true else s
  | none => s

def execFolioForceClose (call : BitVec 24) (s : State) : Out := .next (s.forceClose call.toNat)

def execPageReturn (s : State) : Out := .next s.pageReturn

/-- STK_FREE_LOW.lw_clr (R268). -/
def execLwClr (s : State) : Out :=
  .next (if s.domOn 48 then s.setF R.stkFreeLow F.stkFreeLowLow s.freePages else s)

/-! ### The archive (R105 to R110) -/

/-- The tile record of logical tile `l` in the weight image of package `k` in the flash: bytes 0x00 to 0x7F (R107). -/
def State.flashTile (s : State) (k l : Nat) : Bytes :=
  match findSect (intSects s.sys.intMan) (0x23 + 16 * k) with
  | some x => s.sys.flash.read (x.addr + 0xC3000 * l) 0x80
  | none => []

/-- Logical tiles of the package whose weight image is being loaded. -/
def State.arcTiles (s : State) : Nat :=
  match s.stk.arcPkg with
  | some k => match s.dsp.pkgs.get? k with
    | some p => p.dir.homes.length
    | none => 0
  | none => 0

/-- The slots that are neither loaded nor failed, in logical-tile order. -/
def State.openSlots (s : State) : List Nat :=
  (List.range s.arcTiles).filter (fun l => match s.stk.slots.get? l with | some x => !x.loaded | none => true)

/-- The slot that is loaded next: first those of a job found open at power-up (R92), the others in logical-tile order, during
a boot only where a programming waits for them (R110, R442). -/
def State.nextSlot (s : State) : Option Nat :=
  let ls := s.openSlots
  match ls.find? (fun l => s.cal.jobs.any (fun e => e.2.kind == .resume && e.2.tiles.contains (s.placeL l))) with
  | some l => some l
  | none => if s.sys.boot.isSome && s.cal.modelWait.isNone then none else ls.head?

/-- The code of a failed slot: fields, tile hash, and with the last slot the weight image hash (R105, R107 to R110). -/
def slotCode (fieldsOk hashOk : Bool) (h : Bytes) (l : Nat) : Nat :=
  if ¬ fieldsOk ∨ leAt h 0 4 ≠ 0x5754494C ∨ leAt h 4 2 ≠ 1 ∨ leAt h 6 2 ≠ l then E.ldrSlotFields
  else if ¬ hashOk then E.ldrSlotHash else 0

/-- The archive stands: a PROGRAM_MODEL that waited for it opens its job (R111), and stand-ins may start (R98, R130). -/
def State.archiveLoaded (s : State) : State :=
  let s : State := { s with stk := { s.stk with arcComplete := true } }
  match s.cal.modelWait with
  | some k => (({ s with cal := { s.cal with modelWait := none } } : State).openModel k).startStandIns
  | none => s.startStandIns

/-- Every slot has been read and one of them failed: a PROGRAM_MODEL that waits ends with code `code`.
DEDUCED, assumption 51. -/
def State.archiveBad (s : State) (code : Nat) : State :=
  if s.nextSlot.isNone && s.cal.modelWait.isSome then
    { s with
      cal := { s.cal with modelWait := none },
      sdm := { s.sdm with long := s.sdm.long.map (fun l => if l.err = 0 then { l with err := code } else l) } }
  else s

/-- Archive slot `l` is loaded from the flash and checked (R110). -/
def State.loadSlot (s : State) (l : Nat) (fieldsOk hashOk imageOk : Bool) : State :=
  match s.stk.arcPkg with
  | none => s
  | some k =>
    if s.nextSlot ≠ some l ∨ ¬ s.stk.built then s
    else
      let h := s.flashTile k l
      let code := slotCode fieldsOk hashOk h l
      let s : State := { s with stk := { s.stk with slots := s.stk.slots.put l ⟨true, decide (code = 0), h⟩ } }
      let s := if code = 0 then s else s.report Src.device code (Rep.fw 2) l
      if s.nextSlot.isNone && (List.range s.arcTiles).all (fun i => match s.stk.slots.get? i with
          | some x => x.verified
          | none => false) then
        if imageOk then s.archiveLoaded else (s.report Src.device E.ldrImageHash (Rep.fw 2) 0xFFFF).archiveBad E.ldrImageHash
      else s.archiveBad (if code = 0 then E.ldrSlotHash else code)

def execArchiveSlotLoad (slot : Fin 1024) (fieldsOk hashOk imageHashOk : Bool) (s : State) : Out :=
  .next (s.loadSlot slot.val fieldsOk hashOk imageHashOk)

end Sys2Proof.Machine
end

