-- ==== Sys2Proof/Machine/TileCmds.lean ====
section
/-! DEFINITION. Commands of the tiles, the accumulators and calibration (R40 to R76, R112 to R139, R169 to R177, R194): cycle
boundaries, slices, tests, trims, epochs and gap tasks. -/

namespace Sys2Proof.Machine

/-! ### Slices and the range tracker (R42 to R63) -/

def execMvmCycleBoundary (s : State) : Out := .next s.mvmBoundary

def execSliceComplete (c : CoreIx) (t : TileIx) (cols : List ColCode) (pips : List PipCode) (s : State) : Out :=
  .next (s.deliver c.val t.val cols pips)

/-- The quiet count is 256 at a step below 3: the step rises and the count restarts (R60). -/
def State.stepRise (s : State) (c t : Nat) : State :=
  let a := R.tilRange c t
  if s.getF a F.tilRangeQuiet = 256 ∧ s.getF a F.tilRangeStep < 3 then
    ((s.setF a F.tilRangeStep (s.getF a F.tilRangeStep + 1)).setF a F.tilRangeQuiet 0).syncStep c t
  else s

def execStepRise (c : CoreIx) (t : TileIx) (s : State) : Out := .next (s.stepRise c.val t.val)

/-- 4,096 slices have contributed to the pip window (R63). -/
def execPipWindowClose (c : CoreIx) (t : TileIx) (s : State) : Out :=
  .next (if s.getF (R.tilPipGain c.val t.val) F.tilPipGainUsed = 4096 then s.closePips c.val t.val else s)

/-! ### Tile control and tests (R48, R72, R76) -/

/-- TIL_CTRL is written (R48): a change of group size while the tile issues, or the reserved encoding, is discarded.
DEDUCED, assumption 42. -/
def State.tilCtrlWrite (s : State) (c t : Nat) (w : Word) : State :=
  let a := R.tilCtrl c t
  let grp := F.tilCtrlGrpSize.get w
  let old := s.getF a F.tilCtrlGrpSize
  let bad := decide (grp = 3 ∨ (grp ≠ old ∧ s.isSet a F.tilCtrlIssueEn = true))
  let s := ((s.setF a F.tilCtrlTrkEn (F.tilCtrlTrkEn.get w)).setF a F.tilCtrlGainFix (F.tilCtrlGainFix.get w)).setF a
    F.tilCtrlIssueEn (F.tilCtrlIssueEn.get w)
  let s := if bad then
      (s.raise (R.tilStatus c t) F.tilStatusCfgErr (R.tilCfgEvt c t)).report (Src.tile c t) E.tilCfgWhileIssuing (Rep.fw 2)
    else s.setF a F.tilCtrlGrpSize grp
  s.syncStep c t

def execTilCtrlWrite (c : CoreIx) (t : TileIx) (value : Word) (s : State) : Out :=
  .next (if s.domOn (3 * c.val) then s.tilCtrlWrite c.val t.val value else s)

/-- TIL_TEST_CTRL is written (R76). A write while a test runs has no effect. -/
def State.testStart (s : State) (c : Nat) (w : Word) : State :=
  let a := R.tilTestCtrl c
  if s.isSet a F.tilTestCtrlStart then s
  else
    let tile := F.tilTestCtrlTile.get w
    let mode := F.tilTestCtrlMode.get w
    let s := ((s.setF a F.tilTestCtrlTile tile).setF a F.tilTestCtrlMode mode).setF a F.tilTestCtrlStep
      (F.tilTestCtrlStep.get w)
    let s := s.setF a F.tilTestCtrlRuns (F.tilTestCtrlRuns.get w)
    if F.tilTestCtrlStart.get w = 0 then s
    else if tile ≤ 67 ∧ (mode = 1 ∨ mode = 2) ∧ s.isSet (R.tilCtrl c tile) F.tilCtrlIssueEn = false then
      s.setF a F.tilTestCtrlStart 1
    else s.report (Src.core c) E.tilTestRefused (Rep.fw 2)

def execTestStart (c : CoreIx) (value : Word) (s : State) : Out :=
  .next (if s.domOn (3 * c.val) then s.testStart c.val value else s)

/-- The quantities that a test accumulates: every code of a null drive, or each code less that of the first MVM (R76). -/
def testVals (mode : Nat) (reps : List (List Int)) : List Int :=
  if mode = 2 then
    match reps with
    | [] => []
    | ref :: rest => rest.flatMap (fun (r : List Int) => List.zipWith (fun (a b : Int) => a - b) r ref)
  else reps.flatten

/-- A running test ends after (runs + 1) × 16 MVMs (R76). DEDUCED, assumption 43. -/
def State.testDone (s : State) (c : Nat) (reps : List (List Int)) : State :=
  let a := R.tilTestCtrl c
  if s.isSet a F.tilTestCtrlStart ∧ reps.length = 16 * (s.getF a F.tilTestCtrlRuns + 1) then
    let vs := testVals (s.getF a F.tilTestCtrlMode) reps
    let ssq := (vs.foldl (fun n v => n + v * v) 0).toNat
    let s := (s.setNat (R.tilTestCount c) vs.length).setNat (R.tilTestSum c) (ofInt 32 (vs.foldl (· + ·) 0))
    let s := (s.setNat (R.tilTestSsqLo c) (ssq % 2 ^ 32)).setNat (R.tilTestSsqHi c) (ssq / 2 ^ 32)
    s.setF a F.tilTestCtrlStart 0
  else s

def execTestComplete (c : CoreIx) (reps : List (List Int)) (s : State) : Out := .next (s.testDone c.val reps)

/-! ### Trims and epochs (R112 to R115, R131 to R139) -/

/-- CAL_TILE_CTRL.commit is written (R115). -/
def execCommit (c : CoreIx) (t : TileIx) (s : State) : Out :=
  .next (if s.domOn (3 * c.val) then s.commit c.val t.val else s)

/-- CAL_TRIM_DATA is written through CAL_TRIM_ADDR (R113, R139): only the shadow bank takes a trim, and only while no commit
is pending; the gain field of a pip is written as 0. -/
def State.shadowWrite (s : State) (c v : Nat) : State :=
  let a := R.calTrimSel c
  let t := s.getF a F.calTrimSelTile
  let i := s.getF a F.calTrimSelIndex
  let gain := s.isSet a F.calTrimSelField
  if s.getF a F.calTrimSelBank = 0 then s.raise (R.calStatus c) F.calStatusBankErr (R.calBankEvt c)
  else if 68 ≤ t ∨ 533 ≤ i then s
  else if s.commitPending c t then s.raise (R.calStatus c) F.calStatusShadowBusy (R.calShbEvt c)
  else if gain && decide (512 ≤ i ∧ i < 528) then s
  else
    let x := s.tile c t
    s.setTile c t { x with shd := trimSet x.shd (trimKey i gain) (v % 2 ^ trimWidth i) }

def execShadowWrite (c : CoreIx) (value : Word) (s : State) : Out :=
  .next (if s.domOn (3 * c.val) then s.shadowWrite c.val value.toNat else s)

/-- The first boundary with no input partly issued after a commit (R115). -/
def execEpochBoundary (c : CoreIx) (t : TileIx) (s : State) : Out :=
  .next (if s.commitPending c.val t.val && (s.tile c.val t.val).whole then s.epoch c.val t.val else s)

/-- cal_epoch_min has passed: the deferred commit is made (R131, R132). -/
def State.epochMinOver (s : State) (c t : Nat) : State :=
  if s.commitFree c t then
    let x := s.tile c t
    match x.wantRatio with
    | some r => (s.setTile c t { x with wantRatio := none, wantCommit := false }).commitVread c t r
    | none => if x.wantCommit then (s.setTile c t { x with wantCommit := false }).commit c t else s
  else s

def execEpochMinWait (c : CoreIx) (t : TileIx) (s : State) : Out := .next (s.epochMinOver c.val t.val)

/-- Feed-forward (R133): the tracked tiles of a core whose sensors slew get a new read voltage, as their epochs allow. -/
def State.feedForward (s : State) (c : Nat) : State :=
  if s.thm.slewing.contains c then
    (List.range 68).foldl (fun s t =>
      if s.tileTracked c t && s.commitFree c t then s.commitVread c t (2 ^ 14) else s) s
  else s

def execFeedForward (c : CoreIx) (s : State) : Out := .next (s.feedForward c.val)

/-- cal_epoch_max in µs has passed since the last commit: an unchanged set is committed (R136). -/
def State.epochMaxOver (s : State) (c t : Nat) : State :=
  let x := s.tile c t
  if s.tileTracked c t && !s.commitPending c t
      && decide (x.commitAt + 1000000 * s.tuneP P.tuneCalEpochMax ≤ s.timeUs) then
    (s.setTile c t { x with shd := x.act }).commit c t
  else s

def execCalEpochMax (c : CoreIx) (t : TileIx) (s : State) : Out := .next (s.epochMaxOver c.val t.val)

/-! ### Gap tasks (R134 to R136) -/

/-- TIL_GAP_AGE has reached 125,000 cycles (R135). -/
def execForcedGap (c : CoreIx) (t : TileIx) (s : State) : Out :=
  .next (let x := s.tile c.val t.val
    if s.tileTracked c.val t.val && decide (x.gapAt + 125000 ≤ s.pwr.cycle) then
      s.setTile c.val t.val { x with forced := true }
    else s)

def execOffsetUpdate (c : CoreIx) (t : TileIx) (s : State) : Out := .next (s.startGaps c.val t.val 0)

def execReferenceSweep (c : CoreIx) (t : TileIx) (s : State) : Out := .next (s.startGaps c.val t.val 1)

/-- A FLASH_WRITE runs, so the configuration flash is busy (R139). -/
def State.flashBusy (s : State) : Bool :=
  match s.sdm.long with
  | some l => l.op == 0x000B
  | none => false

/-- A gain sweep is postponed while the configuration flash is busy (R139). -/
def execGainSweep (c : CoreIx) (t : TileIx) (s : State) : Out :=
  .next (if s.flashBusy then s else s.startGaps c.val t.val 2)

/-- A gap task has its gaps (R134). -/
def execGapTaskComplete (c : CoreIx) (t : TileIx) (trims : List TrimVal) (clamped : Bool) (s : State) : Out :=
  .next (s.endGaps c.val t.val trims clamped)

/-! ### Accumulators and Stacks marks (R176, R177, R194, R268) -/

def execMeshPartialArrival (dst : CoreIx) (hdr : BitVec 64) (partials : List Int) (s : State) : Out :=
  .next (s.meshArrive dst.val hdr.toNat partials)

/-- ACC_OCC.hw_clr (R194). -/
def execHwClr (c : CoreIx) (s : State) : Out :=
  .next (let a := R.accOcc c.val
    s.setF a F.accOccHighWater (s.getF a F.accOccInUse))

end Sys2Proof.Machine
end

