-- ==== Sys2Proof/Machine/CalCmds.lean ====
section
/-! DEFINITION. Commands of calibration and of programming that a tile ends or that firmware starts (R78 to R103, R123 to
R130). -/

namespace Sys2Proof.Machine

/-! ### A tile is calibrated (R124, R129, R130) -/

/-- The cache entry that seeds tile `t` of core `c` (R124): valid, of the tile's cycle count, within 10 °C.
DEDUCED, assumption 56. -/
def State.seedOf (s : State) (c t : Nat) : Option Bytes :=
  if s.cal.cache.isEmpty then none
  else
    let e := takeAt s.cal.cache (64 + 32 * (68 * c + t)) 32
    let dT := s.coreTemp4 c - 4 * sext 16 (leAt e 0x0C 2)
    if bit (leAt e 0x12 2) 0 && leAt e 8 4 == (s.tile c t).cycles && decide (-2560 ≤ dT ∧ dT ≤ 2560) then some e else none

/-- Step 1 (R129): factory or cached read voltage and references, factory pip gains, everything else at its default. The
factory record of R116 lists no read-voltage code: unseeded, it is a free value until the search sets it.
DESIGN CHOICE, assumption 53. -/
def State.baseSet (s : State) (x : TileRt) (seed : Option Bytes) : Tab Nat × State :=
  let (v, refs, s) := match seed with
    | some e => (leAt e 2 2 % 1024, (List.range 4).map (fun g => leAt e (4 + g) 1), s)
    | none => (Config.freeValue s.fresh % 1024, x.fac.refs, ({ s with fresh := s.fresh + 1 } : State))
  let m := trimSet [] vreadKey v
  let m := (List.range 4).foldl (fun m g => trimSet m (trimKey (529 + g) false) (refs.getD g 0 % 256)) m
  ((List.range 16).foldl (fun m p => trimSet m (trimKey (512 + p) true) (x.fac.pipGains.getD p 128 % 256)) m, s)

/-- A tile without usable factory values stays in UNCAL and is handled as retired (R130). DEDUCED, assumption 55. -/
def State.calibBad (s : State) (c t code : Nat) : State :=
  let p := tileKey c t
  let s := s.report (Src.tile c t) code (Rep.fw 2)
  match s.jobOf p with
  | some (n, j) =>
    let s := (s.modelErr j code).progFailed n j p
    if (s.pTile p).retired then s.setTileState c t 1 else s
  | none => (s.retireTile p 1).startStandIns

/-- A gain trim that step 7 may set: none on a relief tile that holds no weights or stale ones, none without signatures. -/
def TrimVal.stays (x : TileRt) (t : Nat) (sigOk : Bool) (v : TrimVal) : Bool :=
  if v.gain && decide (v.index.val < 528) then
    decide (v.index.val < 512) && sigOk && !(decide (64 ≤ t) && (x.holds.isNone || x.stale))
  else true

/-- Steps 1 to 8 of R129 end: the trim set found is active, the tile enters its state, and its job goes on.
DEDUCED, assumption 54. -/
def State.calibDone (s : State) (c t : Nat) (r : CalResult) : State :=
  let p := tileKey c t
  let x := s.tile c t
  let seed := s.seedOf c t
  let (m, s) := s.baseSet x seed
  let act := putTrims m (r.trims.filter (TrimVal.stays x t r.sigOk))
  let now := s.timeUs
  let s := s.setTile c t { x with
    act := act, shd := act, tempRef := s.coreTemp4 c, commitAt := now, wantRatio := none, wantCommit := false, rejects := 0,
    gaps := [],
    gapDone := [(0, now), (1, now), (2, now)], gapStart := [(0, now), (1, now), (2, now)] }
  let s := (s.restartPips c t).count (R.calEpoch c t)
  let s := ((s.setF (R.tilRange c t) F.tilRangeStep 0).setF (R.tilRange c t) F.tilRangeQuiet 0).syncStep c t
  let i := R.calTileInfo c t
  let s := ((s.setF i F.calTileInfoFactoryOk 1).setF i F.calTileInfoSeeded (b2n seed.isSome)).setF i F.calTileInfoFallback
    (b2n (seed.isSome && r.fallback))
  let s := (s.setF i F.calTileInfoNNull x.nulls.length).setF i F.calTileInfoNWeak r.nWeak
  let spare := decide (64 ≤ t) && !s.isSet (R.tilState c t) F.tilStateSubst
  let s := s.setTileState c t (if spare then 6 else 2)
  let s := s.writeFid c t r.fid.toNat
  let s := if 0 < r.nWeak then s.report (Src.tile c t) E.calWeakColumn (Rep.fw 2) r.nWeak else s
  let s := if r.sigOk then s else s.report (Src.tile c t) E.calSigMissing (Rep.fw 2)
  let s := if r.clamped then s.clampTrim c t else s
  let s := if (s.logicalAt p).isSome then s.setIssue p true else s
  match s.jobOf p with
  | some (n, j) => s.jobCalibrated n j p
  | none => s

/-- Tile `t` of core `c` has been calibrated, at power-up, after programming or after its domain has woken. -/
def State.tileCalibrated (s : State) (c t : Nat) (r : CalResult) : State :=
  let x := s.tile c t
  if s.tileState c t ≠ 1 ∨ (s.cal.running || s.cal.complete) = false ∨ (x.retired && (s.jobOf (tileKey c t)).isNone) = true then s
  else if !(r.factoryOk && x.fac.ok) then s.calibBad c t E.calFactoryCrc
  else if !r.pipsOk then s.calibBad c t E.calPipLadder
  else s.calibDone c t r

def execTileCalibrated (c : CoreIx) (t : TileIx) (r : CalResult) (s : State) : Out :=
  .next (s.tileCalibrated c.val t.val r)

/-! ### The cache (R123, R136) -/

/-- cache_period of powered time has passed since the last cache write, in ACTIVE and with no orderly stop (R123).
DEDUCED, assumption 57. -/
def execCacheWrite (s : State) : Out :=
  .next (if s.cal.complete && s.getF R.pwrState F.pwrStateState == 0 && !s.isSet R.thmLevel F.thmLevelStopping
      && decide (s.cal.cacheAt + s.tuneP P.tuneCachePeriod * 3600000000 ≤ s.timeUs) then s.writeCache else s)

/-! ### Refresh and programming (R79 to R100) -/

def execRefreshStart (s : State) : Out := .next s.refreshStart

def execPumpAdmission (s : State) : Out := .next s.pumpAdmit

def execBatchComplete (c : CoreIx) (t : TileIx) (failed : Nat) (s : State) : Out :=
  .next (s.batchDone (tileKey c.val t.val) failed)

def execSettleAndReverify (c : CoreIx) (t : TileIx) (s : State) : Out := .next (s.settle2 (tileKey c.val t.val))

def execMappingSwitch (c : CoreIx) (t : TileIx) (s : State) : Out := .next (s.doSwitch (tileKey c.val t.val))

end Sys2Proof.Machine
end

