-- ==== Sys2Proof/Machine/StoreCmds.lean ====
section
/-! DEFINITION. Commands of the parameter store: page writes, counters, scrub (R461 to R470). -/

namespace Sys2Proof.Machine

/-- The next queued page write starts, when the store's domain is on (R461 to R463). -/
def execPageWriteStart (s : State) : Out := .next (if s.domOn 64 then s.startWrite else s)

/-! ### What a written record does -/

/-- A graft record is in force (R119, R326, R354, R372): the port trims apply from each port's next TRAIN, the DAC trims and
the monitor factors at once, the temperature offsets at the next conversion. -/
def State.applyGraft (s : State) (type : Nat) (payload : Bytes) : State :=
  match type with
  | 0x200 => s.graftGains payload
  | 0x201 => { s with prt := { s.prt with eqUsr := payload } }
  | 0x202 => s.userFactors payload
  | 0x203 => { s with lck := { s.lck with dacUsr := payload } }
  | 0x204 => { s with cal := { s.cal with tempUsr := payload } }
  | _ => s

/-- The final reply of the long command that waits for a record carries `code`, if it has no error yet (R463). -/
def State.longFail (s : State) (code : Nat) : State :=
  { s with sdm := { s.sdm with long := s.sdm.long.map (fun l => if l.err = 0 then { l with err := code } else l) } }

/-- A finished write: jobs that waited for the journal go on, a graft record takes effect, new safe values reach the hold path
(R91, R119, R324, R424). DESIGN CHOICE, assumption 58. -/
def State.writeDone (s : State) (k : PKind) : State :=
  match k with
  | .record t payload _ =>
    if t = 0x602 then s.journalWritten payload
    else if t = 0x205 then s.loadHold payload
    else s.applyGraft t payload
  | .log _ true => s.raise R.fltHostStatus F.fltHostStatusFault R.fltHfltEvt
  | _ => s

/-- An increment of counter `c` is due: it waits while a page write runs (R467, R470). DEDUCED, assumption 60. -/
def State.countNow (s : State) (c : Nat) : State :=
  if s.pst.run.isSome then { s with pst := { s.pst with countDue := s.pst.countDue ++ [c] } } else s.incCounter c

/-- The running page write ends (R461); a command that waits for its record learns of a failure. -/
def State.pageWriteEnd (s : State) (ok : Bool) : State :=
  match s.endWrite ok with
  | (s, .more) => s
  | (s, .done k) => s.writeDone k
  | (s, .failed (.record _ _ true)) => s.longFail E.pstWriteFail
  | (s, .failed _) => s

def execPageWriteEnd (ok : Bool) (s : State) : Out := .next (s.pageWriteEnd ok)

/-! ### Counters (R444, R467) -/

/-- The security version that floor `c` rises to: firmware 0, integrator 1 (R444). -/
def State.runSvn (s : State) (c : Nat) : Nat :=
  if c = 0 then s.getF R.idSvn F.idSvnFw else if c = 1 then s.getF R.idSvn F.idSvnInteg else 0

/-- ID_SVN_FLOOR follows the counters (R453). -/
def State.syncFloors (s : State) : State :=
  (s.setF R.idSvnFloor F.idSvnFloorFw (s.counter 0)).setF R.idSvnFloor F.idSvnFloorInteg (s.counter 1)

/-- A slot rewrite of counter `c` waits or runs. -/
def State.slotWaits (s : State) (c : Nat) : Bool :=
  let is := fun (k : PKind) => match k with | .slot d _ _ _ => d == c | _ => false
  s.pst.queue.any (fun j => is j.kind) || (match s.pst.run with | some r => is r.job.kind | none => false)

/-- Counter `c` advances: an increment that waited for a page write, or one step of a floor towards the running version. -/
def State.counterIncrement (s : State) (c : Nat) : State :=
  if s.pst.run.isSome ∨ s.slotWaits c then s
  else if s.pst.countDue.contains c then
    ({ s with pst := { s.pst with countDue := s.pst.countDue.erase c } } : State).incCounter c
  else if s.sys.raiseDue && s.counter c < s.runSvn c then (s.incCounter c).syncFloors
  else s

def execCounterIncrement (c : Fin 6) (s : State) : Out := .next (s.counterIncrement c.val)

/-- An hour of powered time has passed since the last count (R467). -/
def execPoweredHour (s : State) : Out :=
  .next (if s.pst.hourAt + 3600000000 ≤ s.timeUs then
      ({ s with pst := { s.pst with hourAt := s.pst.hourAt + 3600000000 } } : State).countNow 3
    else s)

/-! ### Scrub (R468) -/

/-- A repair is recorded. -/
def State.weakSeen (s : State) (code page : Nat) : State :=
  (s.raise R.pstStatus F.pstStatusWeak R.pstWeakEvt).report Src.device code Rep.store page

/-- The record of a page with a weak cell is written afresh to its other copy, unless an ordinary write of it waits. -/
def State.scrubRec (s : State) (type page : Nat) : State :=
  if s.pst.queue.any (fun j => j.recType == some type) then s
  else match s.recOf type with
    | some payload => (s.writeRec type payload false (some 7)).weakSeen E.pstWeakRewrite page
    | none => s

/-- What a margin read of page `p` found is repaired. -/
def State.scrubPage (s : State) (p : Nat) (r : MarginResult) : State :=
  let ctr := decide (896 ≤ p ∧ p < 908)
  match r with
  | .clean => s
  | .weakData =>
    match recOfPage p with
    | some t => s.scrubRec t p
    | none =>
      if ((640 ≤ p ∧ p ≤ 776) ∨ 1024 ≤ p) ∧ (s.pst.pages.get? p).isSome then
        (s.enqueue 7 (.rewrite p)).weakSeen E.pstWeakRewrite p
      else s
  | .weakUnary => if ctr then s.weakSeen E.pstCounterRepair p else s
  | .weakBase =>
    let c := (p - 896) / 2
    if ctr then (s.enqueue 7 (.slot c (p % 2 == 0) (s.counter c) false)).weakSeen E.pstCounterRepair p else s

/-- Scrub margin-reads the next page (R468). DESIGN CHOICE, assumption 59. -/
def State.marginRead (s : State) (r : MarginResult) : State :=
  if ¬ s.domOn 64 then s
  else
    let p := s.getF R.pstScrub F.pstScrubNext
    let s := s.scrubPage p r
    let s := s.setF R.pstScrub F.pstScrubNext ((p + 1) % 2048)
    if p = 2047 then s.setF R.pstScrub F.pstScrubPasses (min (s.getF R.pstScrub F.pstScrubPasses + 1) 65535) else s

def execMarginRead (r : MarginResult) (s : State) : Out := .next (s.marginRead r)

end Sys2Proof.Machine
end

