-- ==== Sys2Proof/Machine/Reply.lean ====
section
/-! DEFINITION. What host software sees: register reads (R475 to R477, R482), mailbox replies (R479, R480), the F2 stream
(R483), the crash dump as the stream carries it (R411 to R413). -/

namespace Sys2Proof.Machine

/-! ### Register reads (R15, R379, R477) -/

/-- The word of the head closed record (R424): bytes of R418 with severity, kind, power-on count and sequence 0. -/
def Rec.word (r : Rec) (i : Nat) : Nat :=
  let bs := leBytes 2 r.code ++ leBytes 2 r.src ++ leBytes 1 0 ++ leBytes 1 r.reporter ++ leBytes 2 0 ++ leBytes 8 r.first
    ++ leBytes 4 (r.last - r.first) ++ leBytes 4 r.count ++ leBytes 4 r.detail ++ leBytes 4 0
  leAt bs (4 * i) 4

/-- Milliseconds since a tile's last gap task of a kind (R140). -/
def State.gapAge (s : State) (c t kind : Nat) : Nat :=
  min ((s.timeUs - (s.tile c t).gapDone.getD kind 0) / 1000) 0xFFFFFFFF

/-- The trim that CAL_TRIM_SEL selects (R140); 0 for an index above 532. -/
def State.trimData (s : State) (c : Nat) : Nat :=
  let a := R.calTrimSel c
  let i := s.getF a F.calTrimSelIndex
  let x := s.tile c (s.getF a F.calTrimSelTile)
  if i ≤ 532 then
    trimGet (if s.isSet a F.calTrimSelBank then x.shd else x.act) (trimKey i (s.isSet a F.calTrimSelField))
  else 0

/-- High position bits of encoder `e`: the capture of the last _LO read, else the present ones (R328). -/
def State.posHi (s : State) (e : Nat) : Nat := (s.enc e).hiCap.getD ((s.enc e).pos.toNat / 2 ^ 32)

/-- What a read of the core window at offset `off` of core `c` returns where it does not return a stored word. -/
def State.coreView (s : State) (c off : Nat) : Option Nat :=
  if off = 0x2004 then some (s.trimData c)
  else if 0x2100 ≤ off ∧ off < 0x2100 + 68 * 0x20 then
    let t := (off - 0x2100) / 0x20
    match off % 0x20 with
    | 0x0C => some (s.gapAge c t 0)
    | 0x10 => some (s.gapAge c t 1)
    | 0x14 => some (s.gapAge c t 2)
    | _ => none
  else if 0x100 ≤ off ∧ off < 0x100 + 68 * 0x40 ∧ off % 0x40 = 0x3C then
    some (min (s.pwr.cycle - (s.tile c ((off - 0x100) / 0x40)).gapAt) 0xFFFFFFFF)
  else none

/-- The registers that are counters or captures of hidden state, by address. -/
def State.derived (s : State) (a : Nat) : Option Nat :=
  if 0x100000 ≤ a ∧ a < 0x200000 then s.coreView (a / 0x10000 - 16) (a % 0x10000)
  else if a = R.lckPos0Lo then some ((s.enc 0).pos.toNat % 2 ^ 32)
  else if a = R.lckPos0Hi then some (s.posHi 0)
  else if a = R.lckPos1Lo then some ((s.enc 1).pos.toNat % 2 ^ 32)
  else if a = R.lckPos1Hi then some (s.posHi 1)
  else if a = R.fltTimeLo then some (s.timeUs % 2 ^ 32)
  else if a = R.fltTimeHi then some (s.flt.hiCap.getD (s.timeUs / 2 ^ 32 % 2 ^ 32))
  else if 0x90040 ≤ a ∧ a < 0x90060 then
    some (match s.flt.closed with | r :: _ => r.word ((a - 0x90040) / 4) | [] => 0)
  else if 0x70100 ≤ a ∧ a < 0x70300 ∧ (a - 0x70100) % 0x40 = 0x38 then some (s.cvRead ((a - 0x70100) / 0x40))
  else none

/-- The domain of the register at `a` is on, or `a` lies in the always-on domain. -/
def State.regOn (s : State) (a : Nat) : Bool := match domainOf a with | some d => s.domOn d | none => true

/-- The word that a read of management address `a` returns (R15, R477, R479): 0 in a hole or an off domain.
DEDUCED, assumption 16. -/
def State.readReg (s : State) (a : Nat) : Word :=
  if 0x1000 ≤ a ∧ a < 0x2000 then BitVec.ofNat 32 (leNat (Tab.getRun 0 s.sdm.cmdBuf (a - 0x1000) 4))
  else if 0x2000 ≤ a ∧ a < 0x3000 then BitVec.ofNat 32 (leNat (Tab.getRun 0 s.sdm.repBuf (a - 0x2000) 4))
  else if ¬ s.regOn a then 0
  else match s.derived a with
    | some v => BitVec.ofNat 32 v
    | none => if (regRow a).isSome then s.reg a else 0

/-! ### Replies (R479, R480) -/

/-- A reply: opcode, tag, status, kind (0 final, 1 accepted), bytes on F2, parameters (R479). -/
def replyBytes (op tag status kind f2 : Nat) (params : Bytes) : Bytes :=
  leBytes 2 op ++ leBytes 2 tag ++ leBytes 2 status ++ leBytes 1 kind ++ leBytes 1 0 ++ leBytes 4 f2
    ++ leBytes 2 params.length ++ leBytes 2 0 ++ params

/-- SDM_MB_STATE.state. DEDUCED, assumption 86. -/
def State.mbState (s : State) : Nat := s.getF R.sdmMbState F.sdmMbStateState

/-- A reply is placed in the reply buffer. -/
def State.placeReply (s : State) (bs : Bytes) : State :=
  let s : State := { s with sdm := { s.sdm with repBuf := s.sdm.repBuf.setRun 0 0 bs } }
  let s := (s.setF R.sdmMbState F.sdmMbStateState 2).setF R.sdmMbCtrl F.sdmMbCtrlDoorbell 0
  s.raise R.sdmHostStatus F.sdmHostStatusReply R.sdmReplyEvt

/-- The final reply of a command that is not long, or that is refused. -/
def State.answer (s : State) (op tag status : Nat) (params : Bytes := []) (f2 : Nat := 0) : State :=
  s.placeReply (replyBytes op tag status 0 f2 params)

/-- A reply that Krein gives on its own: it waits while another is in the buffer (R480). -/
def State.lateReply (s : State) (bs : Bytes) : State :=
  if s.mbState = 2 then { s with sdm := { s.sdm with final := some bs } } else s.placeReply bs

/-- A long command is accepted. -/
def State.acceptLong (s : State) (op tag : Nat) (params : Bytes) : State :=
  let s : State := { s with sdm := { s.sdm with long := some ⟨op, tag, params, [], 0, 0⟩ } }
  let s := (s.setF R.sdmMbState F.sdmMbStateLongBusy 1).setF R.sdmMbState F.sdmMbStateTag tag
  s.placeReply (replyBytes op tag 0 1 0 [])

/-- The long command ends with `code` (R480). -/
def State.finalLong (s : State) (code : Nat) : State :=
  match s.sdm.long with
  | none => s
  | some l =>
    let s : State := { s with sdm := { s.sdm with long := none } }
    let s := s.setF R.sdmMbState F.sdmMbStateLongBusy 0
    s.lateReply (replyBytes l.op l.tag code 0 0 [])

/-! ### The F2 stream (R483) -/

/-- A stream is open, or data for one waits: the resource of R483 is taken. -/
def State.f2Busy (s : State) : Bool := s.isSet R.sdmF2State F.sdmF2StateOpen || s.sdm.f2Next.isSome

/-- A stream opens: direction 0 to the host, 1 from it. -/
def State.openF2 (s : State) (tag dir n : Nat) : State :=
  let a := R.sdmF2State
  let s := ((s.setF a F.sdmF2StateTag tag).setF a F.sdmF2StateDir dir).setF a F.sdmF2StateOpen 1
  s.setNat R.sdmF2Left n

/-- The stream closes. -/
def State.closeF2 (s : State) : State :=
  let s := (s.setF R.sdmF2State F.sdmF2StateOpen 0).setReg R.sdmF2Left 0
  { s with sdm := { s.sdm with f2Src := .bytes [], f2In := [] } }

/-- Data that a command will send on F2 becomes ready: the stream opens. -/
def State.f2Ready (s : State) : State :=
  match s.sdm.f2Next with
  | none => s
  | some o =>
    let s : State := { s with sdm := { s.sdm with f2Next := none, f2Src := o.src, f2In := [] } }
    (s.openF2 o.tag 0 o.len).raise R.sdmHostStatus F.sdmHostStatusF2Ready R.sdmF2rEvt

/-- An F2 access falls outside the stream. -/
def State.f2Overrun (s : State) : State := s.raise R.sdmHostStatus F.sdmHostStatusF2Overrun R.sdmF2ovEvt

/-! ### The crash dump (R411 to R413) -/

/-- A slot index entry (R413). -/
def DumpSlot.bytes (x : DumpSlot) : Bytes :=
  leBytes 2 x.code ++ leBytes 1 x.core ++ leBytes 1 x.engine ++ leBytes 1 x.ctx ++ leBytes 1 x.gen ++ leBytes 2 x.task
    ++ leBytes 8 x.time ++ leBytes 4 x.token ++ leBytes 4 x.call ++ leBytes 1 x.rung ++ leBytes 1 x.st ++ leBytes 2 0
    ++ leBytes 4 x.crc

/-- The header (R412). -/
def DumpHdr.bytes (h : DumpHdr) : Bytes :=
  leBytes 4 0x504D5544 ++ leBytes 2 1 ++ leBytes 1 h.st ++ leBytes 1 0 ++ leBytes 4 h.powerOn ++ leBytes 4 h.written
    ++ leBytes 2 h.next ++ leBytes 2 h.tail ++ leBytes 4 h.drr ++ leBytes 8 h.time

/-- Byte `o` of the dump. -/
def State.dumpByte (s : State) (o : Nat) : Byte :=
  if o < 0x1000 then s.flt.dump.bytes.getD o 0
  else if o < 0x10000 then
    match s.flt.tail[(o - 0x1000) / 32]? with
    | some e => e.bytes.getD (o % 32) 0
    | none => 0
  else if o < 0x20000 then
    match s.flt.slots.get? ((o - 0x10000) / 32) with
    | some x => x.bytes.getD (o % 32) 0
    | none => 0
  else s.stk.mem.getD (dumpBase + o) 0

/-- The next `n` bytes of the stream to the host, and what is left of its source. -/
def State.f2Take (s : State) (n : Nat) : Bytes × F2Src :=
  match s.sdm.f2Src with
  | .bytes bs => (bs.take n, .bytes (bs.drop n))
  | .dump o => ((List.range n).map (fun i => s.dumpByte (o + i)), .dump (o + n))

/-! ### Discarded host writes (R477) -/

/-- A host write to `a` is discarded for `reason`. -/
def State.discard (s : State) (a reason : Nat) : State :=
  let s := (s.setF R.sdmDiscardAddr F.sdmDiscardAddrAddr a).setF R.sdmDiscardAddr F.sdmDiscardAddrReason reason
  s.raise R.sdmHostStatus F.sdmHostStatusWrDiscard R.sdmWdisEvt

/-! ### The card's functions (R461, R474, R514) -/

/-- Function `n` is enabled in the CCCR and no page write silences it. DEDUCED, assumption 85. -/
def State.fnReady (s : State) (n : Nat) : Bool :=
  s.sys.aon && bit (s.sdm.f0.getD 2 0).toNat n && !s.isSet R.pstState F.pstStateBusy

/-! ### The status block (R482) -/

/-- Contexts in a state, as a bitmap; 0 while the dispatcher is off. -/
def State.ctxBitmap (s : State) (st : Nat) : Nat :=
  if s.domOn 66 then (List.range 64).foldl (fun n x => if s.ctxState x = st then n + 2 ^ x else n) 0 else 0

/-- The 64 B status block. -/
def State.statusBlock (s : State) : Bytes :=
  [R.pwrState, R.idBoot, R.thmMax, R.thmLevel, R.calSummary, R.fltHostStatus, R.fltCoreState, R.fltDrr].flatMap
      (fun a => leBytes 4 (s.readReg a).toNat)
    ++ leBytes 8 (s.ctxBitmap 2) ++ leBytes 8 (s.ctxBitmap 5)
    ++ (List.range 8).flatMap (fun p => leBytes 1 (if s.domOn (52 + p) then s.portState p else 0))
    ++ leBytes 4 (s.readReg R.idSvn).toNat ++ leBytes 4 0

end Sys2Proof.Machine
end

