-- ==== Sys2Proof/Machine/Reset.lean ====
section
/-! DEFINITION. Changes of the whole device: device recovery resets, STANDBY and SLEEP, and the reset of the always-on domain
(R383, R407 to R410, R426, R488). -/

namespace Sys2Proof.Machine

/-! ### Device recovery reset (R407 to R410) -/

/-- The long command that runs ends with `code`, and any F2 stream closes (R488). -/
def State.abortMailbox (s : State) (code : Nat) : State :=
  let s := s.finalLong code
  ({ s with sdm := { s.sdm with f2Next := none } } : State).closeF2

/-- After three device recovery resets within 60 s the device enters STOPPED (R409): as R392, without the 5 ms drain. -/
def State.drrLimit (s : State) : State :=
  let s := s.abandonBoot.assertFault.setF R.thmLevel F.thmLevelStopping 1
  let s := (s.raise R.thmStatus F.thmStatusStop R.thmStopEvt).applyLevel
  let s := s.report Src.device E.fltDrrLimit Rep.power
  let s := s.loseTokens (fun _ _ => true)
  let s := (s.enterSafe 1).faultSummary E.fltDrrLimit
  let s := ((s.gateAll (fun d => d == 64)).dropLadders).stacksLost
  let s := s.setPwrState 3
  { s with thm := { s.thm with stopAt := none, drained := true } }

/-- A device recovery reset starts (R408), unless the device is STOPPED or on the way there (R384, R392). Cause 1 fence hang, 2 watchdog, 3 faulted context, 4 host (R424). -/
def State.startDrr (s : State) (cause : Nat) : State :=
  if s.getF R.pwrState F.pwrStateState = 3 ∨ s.isSet R.thmLevel F.thmLevelStopping then s
  else
  let s := s.abortMailbox E.genBusy
  let recent := s.flt.drrTimes.filter (fun t => decide (s.timeUs ≤ t + 60000000))
  if 3 ≤ recent.length then s.drrLimit
  else
    let f := s.flt
    let s : State := { s with
      flt := { f with drrTimes := recent ++ [s.timeUs], drrAt := some s.timeUs, dump := { f.dump with drr := f.dump.drr + 1 } },
      sys := { s.sys with boot := none, leaving := false, railWait := none, railLeft := [], railCmd := none },
      cal := { s.cal with running := false } }
    let s := (s.countF R.fltDrr F.fltDrrCount).setF R.fltDrr F.fltDrrCause cause
    let s := s.assertFault.raise R.fltStatus F.fltStatusDrr R.fltDrrEvt
    let s := s.report Src.device E.fltDrr Rep.power cause
    let s := (s.enterSafe 4).castHeartbeat
    (List.range 8).foldl (fun s p => s.sendDetach p 6 2) s

/-- A register after a warm reset: what its row keeps, the rest at its reset value (R17, R407). -/
def warmReg (part : Part) (a : Nat) (w : Word) : Word :=
  match regRow a with
  | some r =>
    let k := BitVec.ofNat 32 r.keep
    (w &&& k) ||| (resetValue part a &&& ~~~ k)
  | none => w

/-- The registers of the switched domains, the parameter store's excepted, are warm-reset. -/
def State.warmRegs (s : State) : State :=
  s.regs.foldl
    (fun s e => match domainOf e.1 with
      | none => s
      | some d => if d = 64 then s else s.setReg e.1 (warmReg s.part e.1 e.2)) s

/-- The Stacks through a warm reset: folios and directories are lost, the rest survives in self-refresh (R407). -/
def State.warmStacks (s : State) : State :=
  let k := s.stk
  { s with stk := { k with
    folios := [], epochs := [], lastSerial := [], giveUp := [], reqs := [], fetchWait := [], appends := [], xfers := [],
    built := false, selfRefresh := true } }

/-- Firmware's own state is lost: packages, contexts, jobs. The journal record stays (R407). -/
def State.firmwareLost (s : State) : State :=
  let s := s.dispatcherOff
  { s with
    dsp := { s.dsp with ctxs := [], pkgs := [], running := none, place := [], dropped := [] },
    cal := { CalUnit.init with nextJob := s.cal.nextJob },
    sys := { s.sys with ccUp := false, scope := 0, challenge := none, halted := [], trained := false, leaving := false,
                        raiseDue := false } }

/-- The warm reset, 30 ms into a device recovery reset (R407, R408): pending log entries go to the dump's log tail.
DEDUCED, assumption 81. -/
def State.warmReset (s : State) : State :=
  let f := s.flt
  let s : State := { s with flt := { f with
    tail := f.pending, dump := { f.dump with tail := f.pending.length, time := s.timeUs, st := if f.dump.st = 2 then 2 else 1 },
    kicks := List.replicate 4 s.timeUs } }
  let fenced := fun (c : Nat) => s.coreFenced c
  let s := s.warmStacks.warmRegs
  let s := (List.range 16).foldl
    (fun s c =>
      let s := s.sramOff c
      if fenced c then s.tilesOff c 5 else if s.domOn (3 * c) then (s.tilesOff c 1).tilesOn c else s.tilesOff c 0) s
  let fab := { s.prt.fab with members := [], seen := [], acting := none }
  let s : State := { s with mc := { s.mc with vecs := [] }, mon := { s.mon with conv1 := Conv.init },
                            prt := { s.prt with ports := [], fab := fab } }
  let s : State := { s with pwr := { s.pwr with steps := s.pwr.steps.filter (· != .dispEn) } }
  (s.firmwareLost.dropLadders).setF R.idBoot F.idBootDebug 0

/-! ### STANDBY and SLEEP (R382, R383) -/

/-- Every port is disabled (R343). -/
def State.portsOff (s : State) : State :=
  (List.range 8).foldl (fun s p => if s.portEn p || s.attached p then s.disablePort p else s) s

/-- Domains are gated for STANDBY; the cache keeps the trims in force before (R123, R383). -/
def State.enterStandby (s : State) : State :=
  let s := (s.enterSafe 3).portsOff
  let s := s.setF R.dspCtrl F.dspCtrlDispEn 0
  let s : State := { s with pwr := { s.pwr with steps := [], idleAt := none } }
  let s := (s.writeCache.gateAll standbyDom).dropLadders
  let s : State := { s with stk := { s.stk with selfRefresh := true },
                            cal := { s.cal with jobs := [], switches := [], running := false, complete := false } }
  s.setPwrState 1

/-- Log entries that wait are queued for writing, within `n` pages. -/
def State.drainLog : Nat → State → State
  | 0, s => s
  | n + 1, s => if s.flt.pending.isEmpty then s else State.drainLog n s.flushLog

/-- The way to SLEEP begins (R123, R383): the cache is written before the domains are gated. -/
def State.startSleep (s : State) : State :=
  let s := (s.enterSafe 3).portsOff
  let s := s.setF R.dspCtrl F.dspCtrlDispEn 0
  let s := if s.getF R.pwrState F.pwrStateState = 0 then s.writeCache else s
  State.drainLog 64 s

/-- The parameter store has nothing left to write. -/
def State.storeIdle (s : State) : Bool := s.pst.queue.isEmpty && s.pst.run.isNone

/-- SLEEP is entered: only the parameter store stays on, and the Stacks lose their contents (R382, R383). -/
def State.enterSleep (s : State) : State :=
  let s := ((s.gateAll (fun d => d == 64)).dropLadders).stacksLost
  let s : State := { s with pwr := { s.pwr with steps := [], idleAt := none } }
  let scope := s.sys.scope
  let s := s.firmwareLost
  ({ s with sys := { s.sys with scope := scope } } : State).setPwrState 2

/-- Core `c` holds no logical tile of either package of the image (R381). -/
def State.coreUnused (s : State) (c : Nat) : Bool :=
  [0, 1].all (fun k => !s.hasPkg k || (s.readPkg k).dir.homes.all (fun h => h.1 != c))

/-- Domain `d` is not woken: a fenced core's, or a crossbar that gate_unused leaves off (R128, R381, R404). -/
def State.domSkipped (s : State) (d : Nat) : Bool :=
  decide (d < 48) && (s.coreFenced (d / 3) || (decide (d % 3 = 0) && decide (s.pwrP P.pwrGateUnused = 1) && s.coreUnused (d / 3)))

/-- Firmware requests the dispatcher, then the core domains in index order, then the others (R386's worked example). -/
def wakeOrder : List Nat := 66 :: (List.range 48 ++ (List.range 22).filterMap (fun i => if 48 + i = 66 then none else some (48 + i)))

/-- Every domain that is off is requested awake. -/
def State.wakeAll (s : State) : State :=
  let skip := (List.range 48).filter s.domSkipped
  wakeOrder.foldl (fun s d => if skip.contains d then s else s.wakeReq d) s

/-- START_LINE in STANDBY (R383). -/
def State.leaveStandby (s : State) : State :=
  let s : State := { s with sys := { s.sys with leaving := true } }
  (s.setPwrState 0).wakeAll

/-- On the way out of STANDBY firmware restores the contexts that it found in the dispatcher, as `old` still lists them. -/
def State.keepCtxs (s old : State) : State :=
  (List.range 64).foldl
    (fun s x =>
      let a := R.dspCxState x
      let put := fun (s : State) (f : Field) => s.setF a f (old.getF a f)
      (((put s F.dspCxStateState |> (put · F.dspCxStateGen)) |> (put · F.dspCxStatePackage)) |> (put · F.dspCxStateCatalogue))) s

/-- How far a closed folio's release position has been passed: none while it lies ahead or the folio is open. -/
def State.passedBy (s : State) (call : Nat) (f : Folio) : Option Nat :=
  let p := s.shelfPos (callShelf call)
  if f.st = 2 && Pos.atOrAfter p f.relPos then some (p - f.relPos).toNat else none

/-- Insert a folio: the one passed earliest first, the lower shelf on a tie (R383). -/
def insertPassed (x : Nat × Nat) : List (Nat × Nat) → List (Nat × Nat)
  | [] => [x]
  | y :: ys =>
    if y.1 < x.1 ∨ (y.1 = x.1 ∧ callShelf x.2 < callShelf y.2) then x :: y :: ys else y :: insertPassed x ys

/-- The release engine restarts (R383). -/
def State.releasePassed (s : State) : State :=
  let l := s.stk.folios.foldl (fun l e => match s.passedBy e.1 e.2 with | some n => insertPassed (n, e.1) l | none => l) []
  l.foldl (fun s e => s.releaseFolio e.2) s

/-! ### The always-on domain (R426, R503) -/

/-- What a reset of the always-on domain keeps of its registers: the trip cause, ID_BOOT.error and err_logged. -/
def keptRegs (part : Part) (regs : Tab Word) : Tab Word :=
  let t := R.thmTripCause
  let b := R.idBoot
  let l : Tab Word := Tab.set [] b (Tab.getD regs b 0 &&& 0xFFFF0200) (resetValue part b)
  Tab.set l t (Tab.getD regs t 0) (resetValue part t)

/-- Every domain off and the always-on domain reset; FAULT_N and LOAD_STEP_REQ are released, THERM_TRIP_N keeps its level.
Fuses, flash, cells and stored pages stay; a page write in progress is cut short (R465). DEDUCED, assumption 29. -/
def State.aonReset (s : State) : State :=
  let s := s.releaseFault
  let s := if s.pwr.reqAt.isSome then s.emit (.pin "LOAD_STEP_REQ" false) else s
  let s := (List.range 16).foldl (fun s c => s.tilesOff c 0) s
  let s := s.losePower
  { s with
    timeUs := 0
    regs := keptRegs s.part s.regs
    cfg := []
    lck := LckUnit.init
    prt := PrtUnit.init
    flt := FltUnit.init
    pst := { PstUnit.init with pages := s.pst.pages }
    stk := StkUnit.init
    dsp := DspUnit.init
    mc := { CoreUnit.init with tiles := s.mc.tiles }
    cal := CalUnit.init
    pwr := { PwrUnit.init with ack := s.pwr.ack }
    thm := { ThmUnit.init with tripN := s.thm.tripN }
    mon := MonUnit.init
    sdm := SdmUnit.init
    sys := { SysUnit.init with
      flash := s.sys.flash, vref := s.sys.vref, keyFuse := s.sys.keyFuse, enrolled := s.sys.enrolled, tapIr := s.sys.tapIr,
      aon := s.sys.aon } }

/-- THERM_TRIP_N is released (R394, R512). -/
def State.releaseTrip (s : State) : State :=
  if s.thm.tripN then ({ s with thm := { s.thm with tripN := false } } : State).emit (.pin "THERM_TRIP_N" true) else s

/-- The hold path reads record 0x0205, or takes code 0, gain ×1 and low levels (R324). -/
def State.readHold (s : State) : State := s.loadHold ((s.recOf 0x205).getD (List.replicate 36 0))

end Sys2Proof.Machine
end

