-- ==== Sys2Proof/Machine/Boot.lean ====
section
/-! DEFINITION. Boot: checks of the configuration image, locks, start of every unit, package selection, line start (R426 to
R447, R515). The steps before HBM training take no time in this model. -/

namespace Sys2Proof.Machine

/-! ### Boot hold and direct wakes (R438, R443) -/

/-- ID_BOOT.stage. -/
def State.setStage (s : State) (n : Nat) : State := s.setF R.idBoot F.idBootStage n

/-- A boot that fails ends in boot hold (R443). -/
def State.bootHold (s : State) (code : Nat) : State :=
  let a := R.idBoot
  let s := ((s.setF a F.idBootError code).setF a F.idBootErrLogged 0).setStage 8
  let s := if s.sys.ccUp then (s.report Src.device code (Rep.fw 0)).setF a F.idBootErrLogged 1 else s
  let s := (s.gateAll (fun d => d == 64 || d == 60 || d == 61)).stacksLost
  let s := ({ s with sys := { s.sys with boot := none, leaving := false } } : State).endDrr
  s.setPwrState 3

/-- A domain that boot wakes directly. -/
def State.domUp (s : State) (d : Nat) : State := if s.domOn d then s else (s.setDomReq d true).domWake d

/-! ### The checks of R427 and R436 -/

/-- A field in bytes agrees with a burned one in every burned bit (R452). -/
def burnedIn (fuse hash : Bytes) : Bool := (fuse.zip hash).all (fun e => e.1 &&& e.2 == e.1)

/-- Step 6 of R436: any key while the fuses are blank, a key that agrees with a partial burn, or the burned one. -/
def State.keyOk (s : State) : Bool :=
  let h := hash256 (intKey s.sys.intMan)
  if s.sys.enrolled then h == s.sys.keyFuse else burnedIn s.sys.keyFuse h

/-- Steps 1 to 5 of R436, before a control core runs. -/
def State.fwChecks (s : State) (col : Bytes) : Nat :=
  let m := s.sys.fwMan
  firstCode [need (leAt col 0 4 == 0x4E4F4C43 && leAt col 4 2 == 1) E.bootColophonBad,
    need (hash256 (fwKey m) == Config.romFwHash) E.bootFwSig,
    need (Config.verify (fwKey m) (m.take 0x930) (fwSig m)) E.bootFwSig,
    need ((fwSects m).all (fun x => hash256 (x.bytes s.sys.flash) == x.hash)) E.bootFwHash,
    need (decide (s.counter 0 ≤ fwSvn m)) E.bootFwRollback]

/-- The configuration section. -/
def State.cfgSect (s : State) : Bytes :=
  match findSect (intSects s.sys.intMan) 0x10 with
  | some x => x.bytes s.sys.flash
  | none => []

/-- The configuration section's hash agrees. DEDUCED, assumption 77. -/
def State.cfgHashOk (s : State) : Bool :=
  match findSect (intSects s.sys.intMan) 0x10 with
  | some x => hash256 (x.bytes s.sys.flash) == x.hash
  | none => false

/-- Steps 6 to 11 of R436. -/
def State.intChecks (s : State) : Nat :=
  let m := s.sys.intMan
  firstCode [need s.keyOk E.bootKeyMismatch,
    need (Config.verify (intKey m) (m.take 0xDD0) (intSig m)) E.bootCfgSig,
    need (intBinding m == fwBinding s.sys.fwMan) E.bootFwBinding,
    need (placed s.sys.flash s.sys.fwMan m) E.bootColophonBad,
    need s.cfgHashOk E.bootCfgHash,
    need (decide (s.counter 1 ≤ intSvn m)) E.bootCfgRollback]

/-- The fuses are burned after step 12, or a partial burn is finished (R437, R452). -/
def State.enrol (s : State) : State :=
  if s.sys.enrolled then s
  else if s.bootP P.bootEnrollKey = 1 ∨ ¬ s.sys.keyFuse.isEmpty then
    let s : State := { s with sys := { s.sys with keyFuse := hash256 (intKey s.sys.intMan), enrolled := true } }
    s.report Src.device E.secKeyEnrolled (Rep.fw 0)
  else s

/-! ### Locks (R440) -/

/-- The RW-L registers: address, mask of the locked bits, value of the image, and whether the lock is set. -/
def State.lockRows (s : State) : List (Nat × Nat × Nat × Bool) :=
  let p := s.isSet R.pwrLock F.pwrLockLock
  let t := s.isSet R.thmLock F.thmLockLock
  let a := s.isSet R.secLock F.secLockAct
  [(R.pwrInrushBudget, 0x7FF, s.pwrP P.pwrInrushBudget, p),
   (R.pwrSlew, 0x7FF, s.pwrP P.pwrSlewStep, p),
   (R.pwrLimit, 0x7FF, s.pwrP P.pwrPwrLimit, p),
   (R.pwrLoadstep, 0x03FF3F01, s.pwrP P.pwrLoadstepEn + 2 ^ 8 * s.pwrP P.pwrLoadstepA + 2 ^ 16 * s.pwrP P.pwrLoadstepTo, p),
   (R.pwrPumpLim, 0x3F1F01FF, s.pwrP P.pwrPumpAmp + 2 ^ 16 * s.pwrP P.pwrPumpBudget + 2 ^ 24 * s.pwrP P.pwrPumpTiles, p),
   (R.thmThr, 0x7F, s.pwrP P.pwrThmThr, t),
   (R.actLimits, 0x0FFFFFFF, s.devP P.devMaxSpan + 2 ^ 20 * s.devP P.devMaxRate, a),
   (R.actGpioMaxw, 0xFFFF, s.devP P.devGpioMaxWidth, a)]

/-- A locked value differs from the image (R440). -/
def State.lockBad (s : State) : Bool :=
  s.lockRows.any (fun (a, m, v, l) => l && s.reg a &&& BitVec.ofNat 32 m != BitVec.ofNat 32 v)

/-- Boot firmware writes the RW-L fields and sets the locks in their order. -/
def State.writeLocks (s : State) : State :=
  let s := s.lockRows.foldl
    (fun s (a, m, v, l) =>
      if l then s else s.setReg a ((s.reg a &&& ~~~ BitVec.ofNat 32 m) ||| BitVec.ofNat 32 v)) s
  let s := (s.setF R.pwrLock F.pwrLockLock 1).setF R.secLock F.secLockPwr 1
  let s := (s.setF R.thmLock F.thmLockLock 1).setF R.secLock F.secLockThm 1
  s.setF R.secLock F.secLockAct 1

/-! ### Registers that boot writes -/

/-- Line clock, actuation and monitor registers of the always-on domain (R303, R317, R370). -/
def State.initAon (s : State) : State :=
  let used := fun (p : Nat → Bool) => b2n (s.lanes.any p)
  let c := R.lckCtrl
  let s := (s.setF c F.lckCtrlEnc0En (used (fun l => s.laneEnc l == 0))).setF c F.lckCtrlEnc1En (used (fun l => s.laneEnc l == 1))
  let s := (s.setF c F.lckCtrlDir0 (s.devP P.devEncDir0)).setF c F.lckCtrlDir1 (s.devP P.devEncDir1)
  let s := (s.setF c F.lckCtrlFilt0 (s.devP P.devEncFilt0)).setF c F.lckCtrlFilt1 (s.devP P.devEncFilt1)
  let s := (s.setF R.lckCfg F.lckCfgStopMs (s.devP P.devStopMs)).setF R.lckCfg F.lckCfgLateTol (s.devP P.devLateTol)
  let ap := fun (i : Nat) => used (fun l => s.laneP l P.laneApPort == i)
  let s := (s.setF R.actCtrl F.actCtrlAp0En (ap 0)).setF R.actCtrl F.actCtrlAp1En (ap 1)
  let s := (s.setF R.actGpioMaxw F.actGpioMaxwPol (s.devP P.devGpioPol)).refreshGpio
  let x := R.monXchkCfg
  let s := ((s.setF x F.monXchkCfgChan (s.monP P.monXchkCh)).setF x F.monXchkCfgRate (s.monP P.monXchkRate)).setF x
    F.monXchkCfgPeriod (s.monP P.monXchkPeriod)
  s.setF R.monXchkThr F.monXchkThrCodes (s.monP P.monXchkThresh)

/-- The image's safe values: the payload of record 0x0205 (R324, R434). -/
def State.imageSafe (s : State) : Bytes :=
  match s.cfg.get? (cfgKey 0x40B 0) with
  | some v => v.map (fun n => BitVec.ofNat 8 n)
  | none => List.replicate 36 0

/-- Record 0x0205 is rewritten when it differs from the image (R324, R438). -/
def State.syncSafe (s : State) : State :=
  if s.recOf 0x205 = some s.imageSafe then s else s.writeRec 0x205 s.imageSafe

/-- A device factory record; one that is not valid is logged, and its unit runs on nominal values (R118). -/
def State.facRec (s : State) (type : Nat) : State × Bytes :=
  match s.readRec type with
  | (s, some p) => (s, p)
  | (s, none) => (s.report Src.device E.calDeviceCrc (Rep.fw 2) type, [])

/-- Factory and graft records reach the units in the always-on domain, and wait for the others (R118, R121). -/
def State.readUnits (s : State) : State :=
  let (s, _) := s.facRec 0x100
  let (s, _) := s.facRec 0x101
  let (s, mf) := s.facRec 0x102
  let (s, df) := s.facRec 0x103
  let (s, pf) := s.facRec 0x104
  let (s, g) := s.storedGraft 0x200
  let (s, pu) := s.storedGraft 0x201
  let (s, mu) := s.storedGraft 0x202
  let (s, du) := s.storedGraft 0x203
  let (s, tu) := s.storedGraft 0x204
  let s : State := { s with
    lck := { s.lck with dacFac := df, dacUsr := du.getD [] }, prt := { s.prt with eqFac := pf, eqUsr := pu.getD [] },
    cal := { s.cal with tileGains := g.getD [], tempUsr := tu.getD [] } }
  (s.facFactor 0 mf).userFactor 0 (mu.getD [])

/-! ### Identity (R445 to R447, R453) -/

/-- The device ID, derived from the key pair (R446). -/
def keyId : Bytes := (hash256 Config.devKey).take 16

/-- The check of R447 on identity and certificate. -/
def identityOk (id cert : Option Bytes) : Bool :=
  match id, cert with
  | some i, some c =>
    leAt c 0 4 == 0x54524543 && leAt c 4 2 == 1 && takeAt c 0x40 1952 == Config.devKey && takeAt c 0x18 40 == i.take 40
      && takeAt i 0x18 16 == keyId && decide (i.length = 40)
  | _, _ => false

/-- The identity check and the ID registers. -/
def State.identity (s : State) : State :=
  let (s, id) := s.readRec 0x106
  let (s, cert) := s.readRec 0x107
  let good := identityOk id cert
  let s : State := { s with sys := { s.sys with idOk := good } }
  let s := if good then s else s.report Src.device E.secIdentityBad Rep.security
  let i := id.getD (List.replicate 40 0)
  let s := (List.range 4).foldl (fun s k => s.setNat (R.idDeviceId k) (leAt keyId (4 * k) 4)) s
  let s := (s.setNat R.idLotLo (leAt i 0 4)).setNat R.idLotHi (leAt i 4 4)
  let s := (s.setNat R.idDie (leAt i 8 4)).setNat R.idTestDate (leAt i 0x0C 4)
  let s := s.setNat R.idPart (leAt i 0x10 1 % 2 + 2 * (leAt i 0x11 1 % 2) + 256 * leAt i 0x12 1)
  let s := (s.setNat R.idFcalRev s.fcalRev).setNat R.idFwRev (fwRev s.sys.fwMan)
  let s := (s.setF R.idSvn F.idSvnFw (fwSvn s.sys.fwMan)).setF R.idSvn F.idSvnInteg (intSvn s.sys.intMan)
  let s := s.setF R.idBoot F.idBootUnenrolled (b2n (!s.sys.enrolled))
  s.syncFloors

/-! ### What firmware writes when a domain has woken -/

/-- Port `p`'s registers (R335, R341, R353); port_en 1 enables it. -/
def State.initPort (s : State) (p : Nat) : State :=
  let a := R.prtCtrl p
  let s := (s.setF a F.prtCtrlRate (s.portP p P.portSpRate)).setF a F.prtCtrlCvAlg (s.portP p P.portCvAlg)
  let s := (s.setF a F.prtCtrlCvMode (s.portP p P.portCvMode)).setF a F.prtCtrlPartnerLock (s.portP p P.portPartnerLock)
  let s := (s.setF a F.prtCtrlStreams (s.portP p P.portStreams)).setF a F.prtCtrlKeepTo (s.portP p P.portKeepTimeout)
  if s.portP p P.portPortEn = 1 then s.enablePort p else s

/-- The fabric registers (R348). -/
def State.initFab (s : State) : State :=
  let i := s.fabP P.fabFabricIndex
  let a := R.prtFab
  ((s.setF a F.prtFabIndex i).setF a F.prtFabFm (b2n (s.fabP P.fabFmIndex == i))).setF a F.prtFabBackup
    (b2n (s.fabP P.fabFmBackup == i))

/-- Budgets and contexts (R284, R286). -/
def State.initDsp (s : State) : State :=
  let s := (List.range 8).foldl (fun s i => s.setF (R.dspBudget i) F.dspBudgetTimeout (s.rcvP (P.rcvBudget0 + i))) s
  ((List.range 64).filter (s.hasRec 0x403)).foldl
    (fun s x =>
      let b := s.ctxP x P.ctxSaveBase
      let s := s.setF (R.dspCxCtrl x) F.dspCxCtrlGatherWait (s.ctxP x P.ctxGatherWait)
      let s := (s.setNat (R.dspCxSaveLo x) b).setNat (R.dspCxSaveHi x) (b / 2 ^ 32 % 16)
      (s.setF (R.dspCxState x) F.dspCxStatePackage (s.ctxP x P.ctxPackage)).setF (R.dspCxState x) F.dspCxStateCatalogue
        (s.ctxP x P.ctxCatalogue)) s

/-- The context that the image gives shelf `k`. -/
def State.shelfOwner (s : State) (k : Nat) : Option Nat :=
  (List.range 64).find? (fun x => s.hasRec 0x403 x && bit (s.ctxP x P.ctxShelves) k)

/-- The Stacks and shelf registers (R266). -/
def State.initStk (s : State) : State :=
  let s := (s.setF R.stkCtrl F.stkCtrlEarlyRelease s.earlyRelease).setF R.stkReserve F.stkReservePages s.stkReserve
  (List.range 64).foldl
    (fun s k =>
      let a := R.stkShCfg k
      let en := decide (k < s.shelfCount) && (s.shelfOwner k).isSome
      let s := ((s.setF a F.stkShCfgEn (b2n en)).setF a F.stkShCfgMaxPos (s.maxPositions k)).setF a F.stkShCfgCtx
        ((s.shelfOwner k).getD 0)
      ((s.setNat (R.stkShWinLo k) (s.secondLook k)).setNat (R.stkShWinHi k) (s.secondLook k / 2 ^ 32)).setNat
        (R.stkShOpenMax k) (s.openMax k)) s

/-- Relief tiles of core `c` that stand in for tiles read so again (R92). -/
def State.initSubs (s : State) (c : Nat) : State :=
  (s.cal.subs.filter (fun e => e.2 / 128 == c)).foldl
    (fun s e =>
      let a := R.tilState c (e.2 % 128)
      (s.setF a F.tilStateSubst 1).setF a F.tilStateStandsFor (e.1 % 128)) s

/-- Factors of converter B, and its self-calibration (R371, R372, R438). -/
def State.initConvB (s : State) : State :=
  let mf := (s.recOf 0x102).getD []
  let mu := match s.recOf 0x202 with | some p => if graftPayload 0x202 p = 0 then p else [] | none => []
  ((s.facFactor 1 mf).userFactor 1 mu).selfcalReq 1

/-- Firmware initialises what domain `d` holds. -/
def State.fwInit (s : State) (d : Nat) : State :=
  if !s.sys.ccUp then s
  else if d < 48 then (if d % 3 = 0 then s.initSubs (d / 3) else s)
  else if 52 ≤ d ∧ d < 60 then s.initPort (d - 52)
  else match d with
    | 48 => s.initStk
    | 62 => s.initConvB
    | 66 => s.initDsp
    | 69 => s.initFab
    | _ => s

/-! ### Wear table and journal (R90, R92, R457) -/

/-- Firmware takes cycle counts, retired flags and sp of every tile from the wear table; an absent one gives 0. -/
def State.readWear (s : State) : State :=
  let (s, w) := s.readRec 0x600
  let w := w.getD []
  (List.range 1088).foldl
    (fun s i =>
      let v := leAt w (4 * i) 4
      let p := ofWearIx i
      s.setPTile p { s.pTile p with cycles := v % 2 ^ 23, retired := bit v 23, sp := v / 2 ^ 24 }) s

/-- The substitutions that a journal payload lists. -/
def journalPairs (p : Bytes) : Tab Nat :=
  (List.range 64).foldl
    (fun t i =>
      let x := leAt p (144 + 2 * i) 2
      if x < 64 then t.put (tileKey (i / 4) x) (tileKey (i / 4) (64 + i % 4)) else t) []

/-- Firmware reads the journal: number of the last job and the substitutions in force. -/
def State.readJournal (s : State) : State :=
  match s.readRec 0x602 with
  | (s, none) => s
  | (s, some p) => { s with cal := { s.cal with nextJob := leAt p 0 4 + 1, subs := journalPairs p } }

/-- An open job of the journal is completed (R92): the mappable tiles it names are programmed again, its relief tiles hold
nothing of use. DEDUCED, assumption 78. -/
def State.resumeJob (s : State) : State :=
  match s.recOf 0x602 with
  | none => s
  | some p =>
    if leAt p 4 1 ≠ 1 then s
    else
      let bits := leAt p 8 136
      let named := ((List.range 1088).filter (bit bits)).map ofWearIx
      let s := named.foldl (fun s q => s.setPTile q { s.pTile q with stale := true }) s
      let ts := named.filter (fun q => q % 128 < 64 && !s.coreFenced (q / 128) && (s.logicalAt q).isSome)
      let n := leAt p 0 4
      let s : State := { s with cal := { s.cal with jobs := s.cal.jobs.put n ⟨.resume, ts, 1⟩ } }
      if ts.isEmpty then (s.closeJob n 0).report Src.device E.calJobResumed (Rep.fw 2) n else ts.foldl State.startProg s

/-! ### Packages (R441, R442) -/

/-- Contexts of package `k` become LOADED, the others FREE (R441). -/
def State.loadCtxs (s : State) (k : Nat) : State :=
  ((List.range 64).filter (s.hasRec 0x403)).foldl
    (fun s x =>
      if s.ctxP x P.ctxPackage = k then
        let s := s.setF (R.dspCxState x) F.dspCxStateState 1
        match s.ctxCat x with
        | some c => s.setCtx x { s.ctx x with layout := c.layout }
        | none => s
      else s.setF (R.dspCxState x) F.dspCxStateState 0) s

/-- Package `k` becomes the running package. Substitutions in force apply to its tiles. -/
def State.takePackage (s : State) (k : Nat) : State :=
  let same := decide (s.dsp.running = some k)
  let s : State := { s with dsp := { s.dsp with pkgs := s.dsp.pkgs.put k (s.readPkg k), running := some k } }
  let s := s.setF R.idBoot F.idBootPkg k
  let s := if same then s else
    let s : State := { s with dsp := { s.dsp with place := [], dropped := [] } }
    s.cal.subs.foldl (fun s e => match s.logicalAt e.1 with | some l => s.setPlace l e.2 | none => s) s
  s.loadCtxs k

/-- Package selection (R441): the boot package, else the other. -/
def State.selectPackage (s : State) : State :=
  let b := intPkg s.sys.intMan % 2
  let code := s.loadCode b
  if code = 0 then s.takePackage b
  else
    let o := 1 - b
    if s.hasPkg o && s.loadCode o == 0 then
      ((s.setF R.idBoot F.idBootFallback 1).report Src.device E.bootPkgFallback (Rep.fw 0) code).takePackage o
    else s.report Src.device E.bootNoPackage (Rep.fw 0)

/-- The running package's weight image is the programmed one (R442). -/
def State.weightsOk (s : State) : Bool :=
  match s.runPkg, s.recOf 0x500 with
  | some g, some p => takeAt p 0 32 == takeAt g.weightHash 0 32
  | _, _ => false

/-- The archive is loaded for package `k`, and its programming waits for it (R111). -/
def State.wantModel (s : State) (k : Nat) : State :=
  { s with stk := { s.stk with arcPkg := some k, slots := [], arcComplete := false },
           cal := { s.cal with modelWait := some k } }

/-- The weights check of a boot (R442). -/
def State.weightsCheck (s : State) : State :=
  match s.dsp.running with
  | none => s
  | some k =>
    if s.weightsOk then s
    else if s.bootP P.bootAutoProgram = 1 then s.wantModel k
    else s.report Src.device E.bootWeightsStale (Rep.fw 0)

/-- The archive region is used by an open job (R92). -/
def State.resumeArchive (s : State) : State :=
  if s.cal.jobs.isEmpty || s.stk.arcPkg == s.dsp.running then s
  else { s with stk := { s.stk with arcPkg := s.dsp.running, slots := [], arcComplete := false } }

/-! ### The Stacks after training (R248, R259, R260, R438) -/

/-- Pages of channel `ch` below page `n`. -/
def chanBelow (n ch : Nat) : Nat := (n + 63 - ch) / 64

/-- Free lists are built, excluding retired pages and the targets of remaps. -/
def State.buildFree (s : State) : State :=
  let out := s.stk.retired ++ s.stk.remap.map (·.2)
  let lo := s.poolLo
  let hi := s.poolHi
  let s : State := { s with stk := { s.stk with built := true, selfRefresh := false } }
  let s := (List.range 64).foldl
    (fun s ch =>
      let taken := (out.filter (fun p => decide (lo ≤ p ∧ p < hi ∧ pageChannel p = ch))).length
      let n := if s.chFailed ch then 0 else chanBelow hi ch - chanBelow lo ch - taken
      let a := R.stkChState ch
      let s := s.setF a F.stkChStateFree n
      s.setF a F.stkChStateRetired ((s.stk.retired.filter (fun p => pageChannel p == ch)).length)) s
  let n := (List.range 64).foldl (fun n ch => n + s.getF (R.stkChState ch) F.stkChStateFree) 0
  let s := (s.setF R.stkFree F.stkFreeFree n).setF R.stkFreeLow F.stkFreeLowLow n
  s.setF R.stkRetired F.stkRetiredPages s.stk.retired.length

/-- Page numbers of a retired-page list (R457): two per 5 B. -/
def retPages (p : Bytes) : List Nat :=
  (List.range (2 * (p.length / 5))).map (fun i => leAt p (5 * (i / 2)) 5 / 2 ^ (20 * (i % 2)) % 2 ^ 20)

/-- Firmware takes the retired-page list at power-up; a listed archive or buffer-area page is remapped again. The record's
length tells how many pages it lists, a last half entry of 0 not counted. -/
def State.readRetired (s : State) : State :=
  let (s, p) := s.readRec 0x601
  let l := (retPages (p.getD [])).filter (· != 0)
  { s with stk := { s.stk with retired := l, retList := l } }

/-- The archive and buffer-area pages of the list are redirected into the pool. -/
def State.remapListed (s : State) : State :=
  (s.stk.retired.filter (fun p => (decide (p < 0x4000) || decide (s.poolHi ≤ p)) && (s.stk.remap.get? p).isNone)).foldl
    (fun s p => match s.takePage (pageChannel p) with
      | (s, some q) => { s with stk := { s.stk with remap := s.stk.remap.put p q } }
      | (s, none) => s) s

/-! ### Calibration cache (R124) -/

/-- The cache that may seed: the record is valid, and of the present revision and weight image. -/
def State.readCache (s : State) : State :=
  let s := s.reportTorn 640 137
  match s.cacheRec with
  | some p =>
    let h := match s.runPkg with | some g => takeAt g.weightHash 0 32 | none => leBytes 32 0
    if leAt p 4 4 = s.fcalRev ∧ takeAt p 8 32 = h then { s with cal := { s.cal with cache := p } }
    else s.report Src.device E.calCacheStale (Rep.fw 2)
  | none =>
    if (List.range 137).any (fun i => (s.pst.pages.get? (640 + i)).isSome) then
      s.report Src.device E.calCacheStale (Rep.fw 2)
    else s

/-! ### The boot up to HBM training (R438) -/

/-- Sequence number of the newest log entry (R418, R460): entries of a padded page that are 0 do not count. -/
def State.lastLogSeq (s : State) : Nat :=
  match s.newestLog with
  | some (p, _) =>
    match s.pst.pages.get? p with
    | some g => (List.range 7).foldl (fun m i =>
        let e := takeAt g.data (32 * i) 32
        if leAt e 0 2 = 0 then m else leAt e 0x1C 4) 0
    | none => 0
  | none => 0

/-- The control cores start: the last boot's error and a trip are logged (R394, R443). -/
def State.coresStart (s : State) (k : BootKind) : State :=
  let s : State := { s with sys := { s.sys with ccUp := true },
                            flt := { s.flt with kicks := List.replicate 4 s.timeUs } }
  let s := if k = .drr then s else { s with flt := { s.flt with logSeq := s.lastLogSeq } }
  let s := s.formEntries
  let b := R.idBoot
  let err := s.getF b F.idBootError
  let s := if err ≠ 0 ∧ ¬ s.isSet b F.idBootErrLogged then
      (s.report Src.device err (Rep.fw 0)).setF b F.idBootErrLogged 1 else s
  let t := R.thmTripCause
  let s := if s.isSet t F.thmTripCauseValid ∧ ¬ s.isSet t F.thmTripCauseLogged then
      (s.report (Src.sensor (s.getF t F.thmTripCauseSensor)) E.thmTrip (Rep.fw 3) (s.regNat t % 2 ^ 23)).setF t
        F.thmTripCauseLogged 1 else s
  let s := if 2 ^ 30 < s.sys.flash.cap0 + s.sys.flash.cap1 then s.report Src.device E.bootFlashSize (Rep.fw 0) else s
  if k = .powerOn ∨ k = .reboot then s.countNow 2 else s

/-- Stage 4: every unit is started, and every other domain requested (R438). -/
def State.startUnits (s : State) : State :=
  let s := (((s.initAon.syncSafe).readUnits).readWear).readJournal
  let s := s.identity
  let s := s.selfcalReq 0
  let s := (s.setStage 4).wakeAll
  (List.range 70).foldl (fun s d => if s.domOn d then s.fwInit d else s) s

/-- The part of the boot that firmware runs: steps 6 to 12, enrolment, locks, units. -/
def State.bootFw (s : State) (k : BootKind) : State :=
  let s := (s.coresStart k).setStage 3
  let code := s.intChecks
  if code ≠ 0 then s.bootHold code
  else
    match s.parseCfg s.cfgSect with
    | (s, 0) =>
      let s := s.enrol
      if s.lockBad then s.bootHold E.bootLockVerify else s.writeLocks.startUnits
    | (s, c) => s.bootHold c

/-- A boot from the read of the configuration flash (R426, R438). DESIGN CHOICE, assumption 75. -/
def State.bootRun (s : State) (k : BootKind) : State :=
  let s : State := { s with sys := { s.sys with boot := some k, ccUp := false, trained := false, fwMan := [], intMan := [] } }
  let s := (((s.setPwrState 0).setStage 1).setF R.idBoot F.idBootFallback 0).domUp 64
  if s.sys.vref = .invalid then s.bootHold E.bootVrefMode
  else
    let s := ((s.domUp 65).domUp 60).domUp 61
    if s.sys.flash.cap0 = 0 then s.bootHold E.bootFlashSfdp
    else
      let col := s.sys.flash.read 0 0x4000
      let s : State := { s with sys := { s.sys with fwMan := takeAt col 0x40 0x1800, intMan := takeAt col 0x1840 0x1C00 } }
      let s := s.setStage 2
      let code := s.fwChecks col
      if code ≠ 0 then s.bootHold code else s.bootFw k

/-! ### HBM training (R414, R438) -/

/-- The dump's empty header after a power-on: the Stacks hold nothing (R414). -/
def State.emptyDump (s : State) : State :=
  { s with flt := { s.flt with dump := ⟨0, s.counter 2, 0, 0, 0, s.flt.dump.drr, 0⟩, slots := [], tail := [] } }

/-- HBM training has ended (R438). DEDUCED, assumption 79. -/
def State.trained (s : State) (failed : Nat) : State :=
  match s.sys.boot with
  | none => s
  | some k =>
    let hbm := [48, 49, 50, 51].all (fun d => s.domOn d)
    if s.getF R.idBoot F.idBootStage ≠ 4 || !s.sys.ccUp || !hbm || !s.pwr.queue.isEmpty || !s.pwr.ramping.isEmpty then s
    else
      let s := if k = .drr then s else s.emptyDump.readRetired
      let s := s.buildFree
      let s := (List.range 64).foldl (fun s ch => if bit failed ch then s.failChannel ch else s) s
      let s := s.remapListed.setF R.stkCtrl F.stkCtrlAdmitEn 1
      let s : State := { s with sys := { s.sys with trained := true } }
      let s := (s.selectPackage).weightsCheck
      let s := s.resumeJob.resumeArchive
      let s := if k = .drr then s else s.readCache
      let s := (List.range 16).foldl (fun s c => if s.coreFenced c then s.repairCore c else s) s
      let s : State := { s with cal := { s.cal with running := true, complete := false } }
      if s.dsp.running.isNone then s.bootDone 9 else s.setStage 5

/-- Every domain requested on the way out of STANDBY is awake: the Stacks leave self-refresh, and calibration starts (R383). -/
def State.standbyAwake (s : State) : State :=
  if s.sys.leaving && s.stk.selfRefresh && s.pwr.queue.isEmpty && s.pwr.ramping.isEmpty then
    let s := ({ s with stk := { s.stk with selfRefresh := false } } : State).releasePassed
    let s := s.readCache
    { s with cal := { s.cal with running := true, complete := false } }
  else s

/-- Power-good of domain `d` (R379): firmware initialises what it holds. -/
def State.awake (s : State) (d : Nat) : State :=
  if (s.pwr.ramping.get? d).isNone then s
  else
    let t := s.rampEnd d
    let t := if s.sys.leaving && d == 66 then t.keepCtxs s else t
    let t := if t.domOn d then t.fwInit d else t
    t.standbyAwake

/-! ### Lines start (R286, R428, R438) -/

/-- A context's save area is a multiple of 2 KiB and lies in the buffer area (R286). -/
def State.saveAreaOk (s : State) (x : Nat) : Bool :=
  let b := s.ctxP x P.ctxSaveBase
  decide (b % 2048 = 0 ∧ s.poolHi * 65536 ≤ b ∧ b + 16 * 0x220000 ≤ s.topPage * 65536)

/-- A LOADED context starts (R287). -/
def State.startCtx (s : State) (x : Nat) : State :=
  if s.ctxState x = 1 then s.setF (R.dspCxState x) F.dspCxStateState 2 else s

/-- Lines start: contexts `xs` run, the safe state is left, the scheduler fires, and disp_en follows the handshake (R438).
DEDUCED, assumption 80. -/
def State.startLines (s : State) (xs : List Nat) : State :=
  let s := xs.foldl State.startCtx s
  let s := s.leaveSafe.setF R.lckCtrl F.lckCtrlSchedEn 1
  if s.isSet R.dspCtrl F.dspCtrlDispEn then s.makeStep .dispEn else s.doStep .dispEn

/-- The contexts that a START_LINE that runs has named. -/
def State.namedStart (s : State) : Option (List Nat) :=
  match s.sdm.long with
  | some l => if l.op = 8 then some ((List.range 64).filter (bit (leAt l.params 0 8))) else none
  | none => none

/-- A running boot starts every context, or waits at stage 6 (R438, R442). A context whose save area is bad stays LOADED. -/
def State.autoStart (s : State) : State :=
  let xs := (List.range 64).filter (fun x => s.ctxState x == 1)
  let s := xs.foldl (fun s x => if s.saveAreaOk x then s else s.report (Src.ctx x) E.dspSaveArea (Rep.fw 0)) s
  let ys := xs.filter s.saveAreaOk
  if s.bootP P.bootAutostart = 1 && s.weightsOk && !ys.isEmpty then s.startLines ys else s.bootDone 6

/-- Every tile has been calibrated, and no job that the start waits for is open (R92, R128). -/
def State.calibDue (s : State) : Bool :=
  (List.range 16).all (fun c => (List.range 68).all (fun t =>
      s.tileState c t != 1 || (s.tile c t).retired))
    && s.cal.modelWait.isNone && s.cal.jobs.all (fun e => match e.2.kind with | .model _ | .resume => false | _ => true)

/-- Power-up calibration is complete (R128, R438). -/
def State.calibrated (s : State) : State :=
  if !(s.cal.running && s.calibDue) then s
  else
    let s : State := { s with cal := { s.cal with running := false, complete := true } }
    let s := (s.renewSummary).setF R.calSummary F.calSummaryValid 1
    match s.sys.boot, s.namedStart with
    | some _, _ => s.autoStart
    | none, some xs => s.startLines xs
    | none, none => if s.sys.leaving then s.bootDone (s.getF R.idBoot F.idBootStage) else s

end Sys2Proof.Machine
end

