-- ==== Sys2Proof/Machine/BootCmds.lean ====
section
/-! DEFINITION. The commands of power-up, power loss and boot (R426, R438, R501, R503, R512). -/

namespace Sys2Proof.Machine

/-- VDD_AON enters its range: the sequencer wakes the parameter store, and the hold path drives the safe values (R324). The
boot waits for PORST_N. -/
def execPowerOn (s : State) : Out :=
  if s.sys.aon then .next s
  else
    let s : State := { s with sys := { s.sys with aon := true, boot := some .powerOn } }
    .next (s.domUp 64).readHold

/-- PORST_N low for 10 µs, then high (R426, R500, R503). `vref` is the reference mode sensed while it was low.
DEDUCED, assumption 76. -/
def State.porst (s : State) (vref : VrefMode) : State :=
  let s := s.aonReset.releaseTrip
  let s : State := { s with sys := { s.sys with vref := vref } }
  (s.domUp 64).readHold.bootRun .powerOn

def execPorstN (vref : VrefMode) (s : State) : Out := .next (if s.sys.aon then s.porst vref else s)

/-- VDD_AON is lost (R512): THM_TRIP_CAUSE and ID_BOOT go with it. -/
def execVddAonLoss (s : State) : Out :=
  if s.sys.aon then
    let s := s.aonReset.releaseTrip
    .next { s with regs := [], sys := { s.sys with aon := false } }
  else .next s

/-- A rail is removed outside SLEEP and STOPPED (R501): everything volatile is lost; a boot follows at PORST_N. -/
def execPowerFailure (s : State) : Out :=
  if s.sys.aon && decide (s.getF R.pwrState F.pwrStateState < 2) then
    let s := s.aonReset
    .next { s with sys := { s.sys with boot := some .powerOn } }
  else .next s

def execHbmTrainingComplete (failed : BitVec 64) (s : State) : Out := .next (s.trained failed.toNat)

def execCalibrationComplete (s : State) : Out := .next s.calibrated

end Sys2Proof.Machine
end

