-- ==== Sys2Proof/Machine/LineCmds.lean ====
section
/-! DEFINITION. Commands of the line clock and actuation (R297 to R329): encoders, crossings, outputs, SYNC, mains, FIRE rate,
safe state, DAC channels and event slots. -/

namespace Sys2Proof.Machine

/-! ### Counting (R297, R299, R300, R301) -/

/-- LCK_STATUS.encN_err (R297). -/
def State.encError (s : State) (e : Nat) : State :=
  (if e = 0 then s.raise R.lckStatus F.lckStatusEnc0Err R.lckE0errEvt
   else s.raise R.lckStatus F.lckStatusEnc1Err R.lckE1errEvt).report Src.device E.lckEncError Rep.lineClock e

/-- The count made position `p`: a multiple of 256 lc makes SYNC due (R313). -/
def Enc.moved (x : Enc) (p : Pos) (fwd : Bool) : Enc :=
  { x with pos := p, lastFwd := fwd, cur := if fwd then x.cur + 1 else x.cur - 1,
           syncDue := x.syncDue || decide (p.toNat % 256 = 0) }

/-- A forward count (R299 to R301): what lies at the new position falls due. -/
def State.countFwd (s : State) (e : Nat) : State :=
  let x := s.enc e
  let p := x.pos + 1
  let s := s.setEnc e { x.moved p true with fwdAt := s.timeUs, stopped := false }
  let s := { s with lck := { s.lck with slots := s.lck.slots.map (fun (k : Nat × Slot) => (k.1, s.markDue e p k.2)) } }
  s.markReleases e p

/-- A reverse count (R299, R300): nothing falls due; reversing after a forward count is flagged. -/
def State.countRev (s : State) (e : Nat) : State :=
  let x := s.enc e
  let s := s.setEnc e (x.moved (x.pos - 1) false)
  if x.lastFwd then s.raise R.lckStatus F.lckStatusReverse R.lckRevEvt else s

/-- LCK_CTRL.dirN. -/
def State.encDir (s : State) (e : Nat) : Bool := s.isSet R.lckCtrl (if e = 0 then F.lckCtrlDir0 else F.lckCtrlDir1)

/-- The filter has accepted levels `a`, `b` (R297): one count, none, or an error. -/
def State.encoderCount (s : State) (e : Nat) (a b : Bool) : State :=
  let x := s.enc e
  let turn := (quadPhase a b + 4 - quadPhase x.a x.b) % 4
  let s := s.setEnc e { x with a := a, b := b }
  if turn = 2 then s.encError e
  else if turn = 0 ∨ ¬ s.encEn e then s
  else if (turn == 1) != s.encDir e then s.countFwd e
  else s.countRev e

def execEncoderCount (e : EncIx) (a b : Bool) (s : State) : Out := .next (s.encoderCount e.val a b)

/-- LCK_IDXn latches bits [31:0] of the position (R299). -/
def State.indexEdge (s : State) (e : Nat) : State :=
  s.setNat (if e = 0 then R.lckIdx0 else R.lckIdx1) ((s.enc e).pos.toNat % 2 ^ 32)

def execIndexEdge (e : EncIx) (s : State) : Out := .next (s.indexEdge e.val)

/-- LCK_VELn from the net counts of the last 64 updates (R300): counts per 1.024 ms with 8 fraction bits, so 250 times. -/
def State.velocityUpdate (s : State) (e : Nat) : State :=
  let x := s.enc e
  let h := (x.cur :: x.hist).take 64
  let v : Int := 250 * h.foldl (· + ·) 0
  let s := s.setEnc e { x with cur := 0, hist := h, lastVel := if v > 0 then v.toNat else x.lastVel }
  s.setNat (velReg e) (ofInt 32 v)

def execVelocityUpdate (e : EncIx) (s : State) : Out := .next (s.velocityUpdate e.val)

/-- No forward count for stop_ms (R300). -/
def State.encoderStopped (s : State) (e : Nat) : State :=
  let x := s.enc e
  if s.encEn e && !x.stopped && decide (x.fwdAt + 1000 * s.getF R.lckCfg F.lckCfgStopMs ≤ s.timeUs) then
    (s.setEnc e { x with stopped := true }).raise R.lckStatus F.lckStatusStop R.lckStopEvt
  else s

def execEncoderStopped (e : EncIx) (s : State) : Out := .next (s.encoderStopped e.val)

/-! ### Crossings and outputs (R307, R317 to R319) -/

def execCutoffCrossing (slot : Fin 4096) (s : State) : Out := .next (s.registerCutoff slot.val)

/-- The outputs of a slot that are due take effect, and pulses at their second position end (R318, R319). -/
def State.scheduledOutput (s : State) (i : Nat) : State :=
  match s.slot i with
  | some x =>
    let (s, outs) := s.runOuts x.outs
    s.putOuts i outs
  | none => s

def execScheduledOutput (slot : Fin 4096) (s : State) : Out := .next (s.scheduledOutput slot.val)

/-- A pulse of fixed width whose width has elapsed (R318). -/
def LocalOut.widthOver (o : LocalOut) (now : Nat) : Bool :=
  match o.onAt, o.pos2 with
  | some t, none => decide (o.width ≤ 10 * (now - t))
  | _, _ => false

/-- Fixed-width pulses of the slot end (R318). -/
def State.pulseEnd (s : State) (i : Nat) : State :=
  match s.slot i with
  | some x => s.putOuts i (x.outs.filter (fun o => !o.widthOver s.timeUs))
  | none => s

def execPulseWidthEnd (slot : Fin 4096) (s : State) : Out := .next (s.pulseEnd slot.val)

/-- A pulse has lasted gpio_max_width (R317). -/
def State.tooLong (s : State) (o : LocalOut) : Bool :=
  match o.onAt with
  | some t => decide (s.getF R.actGpioMaxw F.actGpioMaxwMaxWidth ≤ s.timeUs - t)
  | none => false

/-- Pulses of the slot that reach gpio_max_width are cut (R317). -/
def State.widthCut (s : State) (i : Nat) : State :=
  match s.slot i with
  | some x =>
    let cut := x.outs.filter s.tooLong
    let s' := s.putOuts i (x.outs.filter (fun o => !s.tooLong o))
    cut.foldl (fun s _ => s.raise R.actStatus F.actStatusWidthCut R.actWcutEvt) s'
  | none => s

def execWidthCut (slot : Fin 4096) (s : State) : Out := .next (s.widthCut slot.val)

/-! ### SYNC and mains (R302, R313) -/

/-- A multiple of 256 lc was crossed (R313). -/
def execSync (e : EncIx) (s : State) : Out := .next (if (s.enc e.val).syncDue then s.sendSync e.val false else s)

/-- 1 ms has passed without a SYNC (R313). DESIGN CHOICE, assumption 31. -/
def execSyncHeartbeat (e : EncIx) (s : State) : Out :=
  .next (if (s.enc e.val).syncAt + 1000 ≤ s.timeUs then s.sendSync e.val true else s)

/-- A rising edge of MAINS_ZC, `period` after the one before it (R302, R323). DESIGN CHOICE, assumption 74. -/
def State.mainsEdge (s : State) (period : Nat) : State :=
  let s := (s.setF R.lckMains F.lckMainsPeriod period).setF R.lckMains F.lckMainsValid 1
  let s := { s with lck := { s.lck with mainsAt := s.timeUs, mainsLost := false } }
  if s.isSet R.lckCfg F.lckCfgStrobeMains then s.dacStrobe else s

def execMainsEdge (period : Nat) (s : State) : Out := .next (s.mainsEdge period)

/-- No mains edge within 100 ms (R302). -/
def State.mainsGone (s : State) : State :=
  if s.lck.mainsLost = false ∧ s.lck.mainsAt + 100000 ≤ s.timeUs then
    let s := { s with lck := { s.lck with mainsLost := true } }
    ((s.setF R.lckMains F.lckMainsValid 0).raise R.lckStatus F.lckStatusMainsLost R.lckMainsEvt).report
      Src.device E.lckMainsLost Rep.lineClock
  else s

def execMainsLost (s : State) : Out := .next s.mainsGone

/-! ### FIRE rate (R317) -/

/-- The waiting frame can still be sent min_ahead_lc before its open position. -/
def State.fireInTime (s : State) (w : WaitFire) : Bool :=
  Pos.atOrAfter w.openPos ((s.enc w.enc).pos + BitVec.ofNat 48 w.minAhead)

/-- A waiting FIRE frame that comes too late is dropped; else the first is sent when the rate allows (R317).
DESIGN CHOICE, assumption 32. -/
def State.fireRelease (s : State) (ap : Nat) : State :=
  match (s.fireQ ap).find? (fun w => !s.fireInTime w) with
  | some w =>
    ((s.setFireQ ap ((s.fireQ ap).erase w)).raise R.actStatus F.actStatusRateDrop R.actDropEvt).report
      (Src.lane w.lane) E.actRateDrop Rep.lineClock
  | none =>
    match s.fireQ ap with
    | [] => s
    | w :: ws => if s.fireRoom ap && s.attached (apPort ap) then (s.setFireQ ap ws).putFire ap w.payload else s

def execFireRateRelease (ap : Fin 2) (s : State) : Out := .next (s.fireRelease ap.val)

/-! ### Safe state and DAC channels (R323 to R325) -/

/-- Firmware writes ACT_CTRL.safe; the bit reads 0 again once the state is reached (R325). -/
def execSafe (s : State) : Out := .next (s.enterSafe 3)

/-- Firmware writes ACT_CTRL.release (R325). -/
def execRelease (s : State) : Out := .next s.leaveSafe

/-- ACT_DAC_CTRL.load (R323). -/
def execLoadStrobe (s : State) : Out := .next s.dacStrobe

/-- A modulator starts: its active code is the safe code (R324). DEDUCED, assumption 35. -/
def State.dacStart (s : State) (ch : Nat) : State :=
  let h := s.lck.hold.getD ch (0, 0)
  let a := R.actDacActive ch
  ((s.setF a F.actDacActiveCode h.1).setF a F.actDacActiveGain2 h.2).setF a F.actDacActiveSine 0

/-- ACT_DAC_CTRL.run is written (R324, R328). -/
def State.dacRun (s : State) (run : Nat) : State :=
  let starts := (List.range 8).filter (fun ch => bit run ch && !s.dacRuns ch)
  let s := starts.foldl State.dacStart s
  (s.setF R.actDacCtrl F.actDacCtrlRun run).refreshHold

def execDacRun (run : Byte) (s : State) : Out := .next (s.dacRun run.toNat)

/-! ### Event slots and captures (R318, R328, R424) -/

/-- The outputs that an event slot carries. -/
def eventOuts (e : EventSpec) : List LocalOut :=
  (if e.gpio.toNat = 0 then [] else [⟨.gpio e.gpio.toNat, e.pos1, e.pos2, e.width, false, none, false⟩])
    ++ (if e.dacLoad then [⟨.dacLoad, e.pos1, none, 0, false, none, false⟩] else [])
    ++ (match e.irqTag with
        | some t => [⟨.irq t, e.pos1, none, 0, false, none, false⟩]
        | none => [])

/-- Firmware writes an event slot (R318), which is armed at once (R319). The reserve is not for it (R306).
DESIGN CHOICE, assumption 33. DEDUCED, assumption 34. -/
def State.writeEvent (s : State) (e : EventSpec) : State :=
  if s.slotGrant then
    let (s, outs) := s.armOuts e.enc.val (eventOuts e)
    if outs.isEmpty then s else (s.takeSlot ⟨e.enc.val, none, outs⟩).2.refreshGpio
  else s

def execEventSlotWrite (e : EventSpec) (s : State) : Out := .next (s.writeEvent e)

/-- A read of a LO register captures its _HI value (R328, R424). -/
def State.capture (s : State) : LoReg → State
  | .pos0 => s.setEnc 0 { s.enc 0 with hiCap := some ((s.enc 0).pos.toNat / 2 ^ 32) }
  | .pos1 => s.setEnc 1 { s.enc 1 with hiCap := some ((s.enc 1).pos.toNat / 2 ^ 32) }
  | .fltTime => { s with flt := { s.flt with hiCap := some (s.timeUs / 2 ^ 32 % 2 ^ 32) } }

def execLoReadCapture (r : LoReg) (s : State) : Out := .next (s.capture r)

end Sys2Proof.Machine
end

