-- ==== Sys2Proof/Machine/MonCmds.lean ====
section
/-! DEFINITION. Commands of the monitor converters (R361 to R371, R376), but for the delivery of a result, which may end a
rail check and so start a boot. -/

namespace Sys2Proof.Machine

/-- MON_CV_CMD.soft_trig acts as an edge whatever trig holds (R363). -/
def execSoftTrig (x : ConvIx) (s : State) : Out := .next (s.convTrigger x.val)

def execUrgent (x : ConvIx) (s : State) : Out := .next (s.urgentReq x.val)

def execSelfcal (x : ConvIx) (s : State) : Out := .next (s.selfcalReq x.val)

def execSelfcalDone (x : ConvIx) (zeros refs : List Int) (s : State) : Out := .next (s.selfcalEnd x.val zeros refs)

def execSnap (set : Fin 2) (value : Word) (s : State) : Out := .next (s.snapshot set.val value)

def execMonCvCtrlWrite (x : ConvIx) (value : Word) (s : State) : Out := .next (s.convCtrl x.val value)

/-- An edge on a TRIG pin (R363). -/
def execMonTrigger (pin : Fin 4) (rising : Bool) (s : State) : Out :=
  .next ([0, 1].foldl (fun s x => if s.convPowered x && s.edgeTaken x pin.val rising then s.convTrigger x else s) s)

def execSequenceDelay (x : ConvIx) (s : State) : Out := .next (s.delayEnd x.val)

def execCrossCheck (s : State) : Out := .next s.crossCheckDue

end Sys2Proof.Machine
end

