-- ==== Sys2Proof/Machine/RegWrite.lean ====
section
/-! DEFINITION. A write of one register word by firmware, with the action that the register starts (R13 to R15, R20). -/

namespace Sys2Proof.Machine

/-- The lock that holds the RW-L fields of the register at `a` (R14). -/
def State.lockedAt (s : State) (a : Nat) : Bool :=
  match a / 0x10000 with
  | 2 => s.isSet R.pwrLock F.pwrLockLock
  | 3 => s.isSet R.thmLock F.thmLockLock
  | 5 => s.isSet R.secLock F.secLockAct
  | _ => false

/-- The word that is stored: RW bits, RW-L bits while unlocked, status bits cleared by 1 (R13). -/
def State.storedWord (s : State) (r : RegRow) (a : Nat) (v : Word) : Word :=
  let rw := BitVec.ofNat 32 (if s.lockedAt a then r.rw else Nat.lor r.rw r.rwl)
  let c := BitVec.ofNat 32 r.w1c
  ((s.reg a &&& ~~~ rw) ||| (v &&& rw)) &&& ~~~ (v &&& c)

/-- Plain storage of a word (R13, R15). -/
def State.storeWord (s : State) (a : Nat) (v : Word) : State :=
  match regRow a with
  | some r => s.setReg a (s.storedWord r a v)
  | none => s

/-- A limit of R396 that discards a value outside its range. DESIGN CHOICE, assumption 17. -/
def State.rangeOk (s : State) (a : Nat) (v : Word) : Bool :=
  let n := v.toNat % 2048
  let tdp := (resetValue s.part R.pwrLimit).toNat
  if a = R.pwrInrushBudget then decide (8 ≤ n ∧ n ≤ 255)
  else if a = R.pwrSlew then decide (8 ≤ n ∧ n ≤ 1088)
  else if a = R.pwrLimit then decide (20 ≤ n ∧ n ≤ tdp)
  else if a = R.pwrLoadstep then
    let amps := F.pwrLoadstepAmps.get v
    let wait := F.pwrLoadstepTimeout.get v
    decide (2 ≤ amps ∧ amps ≤ 56 ∧ 10 ≤ wait ∧ wait ≤ 1000)
  else if a = R.thmThr then
    let t := F.thmThrCelsius.get v
    decide (90 ≤ t ∧ t ≤ (if s.part.gradeC then 98 else 103))
  else true

/-- A pump limit above its maximum is stored as the maximum (R396). -/
def pumpClamp (v : Word) : Word :=
  BitVec.ofNat 32 (min (F.pwrPumpLimAmp.get v) 320 + 2 ^ 16 * min (F.pwrPumpLimBudget.get v) 24
    + 2 ^ 24 * min (F.pwrPumpLimTiles.get v) 32)

/-- PWR_DOM_REQ: bits that rise queue wakes, bits that fall gate, in ascending index (R380). -/
def State.writeDomReq (s : State) (i : Nat) (v : Word) : State :=
  let old := s.regNat (R.pwrDomReq i)
  let new := v.toNat
  (List.range (if i = 2 then 6 else 32)).foldl
    (fun s b =>
      if bit new b && !bit old b then s.wakeReq (32 * i + b)
      else if bit old b && !bit new b then s.gateReq (32 * i + b)
      else s) s

/-- PRT_CTRL: rate, check values and the rest are stored; en enables or disables the port (R333, R355). -/
def State.writePrtCtrl (s : State) (p : Nat) (v : Word) : State :=
  let a := R.prtCtrl p
  let was := s.portEn p
  let now := F.prtCtrlEn.get v
  let s := s.setReg a (F.prtCtrlEn.set (s.storedWord ((regRow a).getD ⟨0, 0, 0, 0, 0, 0, 0, 0, 0, 0, 0⟩) a v) (b2n was))
  if now = 1 && !was then s.enablePort p
  else if now = 0 && was then s.disablePort p
  else s

/-- DSP_CX_CTRL: gather_wait is stored, suspend suspends or resumes, teardown tears down (R287 to R289). -/
def State.writeCxCtrl (s : State) (x : Nat) (v : Word) : State :=
  let a := R.dspCxCtrl x
  let s := s.setF a F.dspCxCtrlGatherWait (F.dspCxCtrlGatherWait.get v)
  let was := s.isSet a F.dspCxCtrlSuspend
  let s := if F.dspCxCtrlSuspend.get v = 1 && !was then s.suspendCtx x
    else if F.dspCxCtrlSuspend.get v = 0 && was then s.resumeCtx x
    else s
  if F.dspCxCtrlTeardown.get v = 1 then s.wantTeardown x else s

/-- MON_CV_CMD: the actions in the order of their bits (R363, R368, R371). -/
def State.writeCvCmd (s : State) (x : Nat) (v : Word) : State :=
  let s := if F.monCvCmdSoftTrig.get v = 1 then s.convTrigger x else s
  let s := if F.monCvCmdUrgent.get v = 1 then s.urgentReq x else s
  if F.monCvCmdSelfcal.get v = 1 then s.selfcalReq x else s

/-- ACT_CTRL: the enables are stored, then the safe state is entered or left (R325). -/
def State.writeActCtrl (s : State) (v : Word) : State :=
  let s := s.storeWord R.actCtrl v
  let s := if F.actCtrlSafe.get v = 1 then s.enterSafe 3 else s
  if F.actCtrlRelease.get v = 1 then s.leaveSafe else s

/-- A register of a core window. -/
def State.writeCore (s : State) (a : Nat) (v : Word) : State :=
  let c := a / 0x10000 - 16
  let off := a % 0x10000
  if off = 8 then s.testStart c v
  else if off = 0x2004 then s.shadowWrite c v.toNat
  else if off = 0x4000 then
    (if F.accOccHwClr.get v = 1 then s.setF a F.accOccHighWater (s.getF a F.accOccInUse) else s)
  else if 0x100 ≤ off ∧ off < 0x1200 ∧ off % 0x40 = 0 then s.tilCtrlWrite c ((off - 0x100) / 0x40) v
  else if 0x2100 ≤ off ∧ off < 0x2980 ∧ off % 0x20 = 0 then
    (if F.calTileCtrlCommit.get v = 1 then s.commit c ((off - 0x2100) / 0x20) else s)
  else s.storeWord a v

/-- A register of a switched or always-on unit outside the core windows. -/
def State.writeUnit (s : State) (a : Nat) (v : Word) : State :=
  if a = R.pwrLock then (if v.toNat % 2 = 1 then (s.setF a F.pwrLockLock 1).setF R.secLock F.secLockPwr 1 else s)
  else if a = R.thmLock then (if v.toNat % 2 = 1 then (s.setF a F.thmLockLock 1).setF R.secLock F.secLockThm 1 else s)
  else if a = R.secLock then (if v.toNat % 2 = 1 then s.setF a F.secLockAct 1 else s)
  else if a = R.pwrPumpLim then s.storeWord a (pumpClamp v)
  else if R.pwrDomReq 0 ≤ a ∧ a ≤ R.pwrDomReq 2 then s.writeDomReq ((a - R.pwrDomReq 0) / 4) v
  else if a = R.actCtrl then s.writeActCtrl v
  else if a = R.actGpioMaxw then (s.storeWord a v).refreshGpio
  else if a = R.actDacCtrl then
    let s := s.dacRun (F.actDacCtrlRun.get v)
    if F.actDacCtrlLoad.get v = 1 then s.dacStrobe else s
  else if a = R.dspCtrl then
    (if F.dspCtrlDispEn.get v = 0 then s.setF a F.dspCtrlDispEn 0
     else if s.isSet a F.dspCtrlDispEn then s else s.doStep .dispEn)
  else if 0xB1000 ≤ a ∧ a < 0xB1800 ∧ a % 0x20 = 0 then s.writeCxCtrl ((a - 0xB1000) / 0x20) v
  else if a = R.stkFreeLow then (if F.stkFreeLowLwClr.get v = 1 then s.setF a F.stkFreeLowLow s.freePages else s)
  else if a = R.fltRecCtrl then (if F.fltRecCtrlPop.get v = 1 then s.popRecord else s)
  else if 0x70100 ≤ a ∧ a < 0x70300 ∧ (a - 0x70100) % 0x40 = 0 then s.writePrtCtrl ((a - 0x70100) / 0x40) v
  else if 0x70100 ≤ a ∧ a < 0x70300 ∧ (a - 0x70100) % 0x40 = 0x38 then s.cvWrite ((a - 0x70100) / 0x40) v.toNat false
  else if a = R.monCvCtrl 0 then s.convCtrl 0 v
  else if a = R.monCvCtrl 1 then s.convCtrl 1 v
  else if a = R.monCvCmd 0 then s.writeCvCmd 0 v
  else if a = R.monCvCmd 1 then s.writeCvCmd 1 v
  else if a = R.monSnapSel 0 then s.snapshot 0 v
  else if a = R.monSnapSel 1 then s.snapshot 1 v
  else if s.rangeOk a v then s.storeWord a v
  else s

/-- A word written by firmware. A register of a domain that is off takes nothing, and neither does a hole (R15, R379). -/
def State.fwWrite (s : State) (a : Nat) (v : Word) : State :=
  if !s.regOn a || (regRow a).isNone then s
  else if 0x100000 ≤ a then s.writeCore a v
  else s.writeUnit a v

end Sys2Proof.Machine
end

