-- ==== Sys2Proof/Machine/Debug.lean ====
section
/-! DEFINITION. The JTAG port: instruction register, IDCODE, boundary scan, debug challenge, certificate and access
(R449 to R451). -/

namespace Sys2Proof.Machine

/-- Instruction `ir` is in force; an instruction that does not take effect acts as BYPASS (R449). -/
def State.setIr (s : State) (ir : Nat) : State := { s with sys := { s.sys with tapIr := ir } }

/-- IDCODE of silicon revision 1: version, part, manufacturer field and the marker bit (R449). -/
def idcode : Nat := 0x11640B47

/-- The debug scope `b` is unlocked (R450). -/
def State.scopeBit (s : State) (b : Nat) : Bool := bit s.sys.scope b

/-- A context is RUNNING. -/
def State.anyRunning (s : State) : Bool := s.domOn 66 && (List.range 64).any (fun x => s.ctxState x == 2)

/-- EXTEST takes effect (R449). -/
def State.extestOk (s : State) : Bool :=
  (s.isSet R.actCtrl F.actCtrlSafeState && !s.anyRunning) || s.scopeBit 3

/-- The security engine and the debug port are powered: domains 61 and 67 (R378). DEDUCED, assumption 25. -/
def State.dbgOn (s : State) : Bool := s.domOn 61 && s.domOn 67

/-! ### Debug certificates (R450) -/

/-- Scope that a certificate asks for. -/
def certScope (c : Bytes) : Nat := leAt c 6 1

/-- The signer's public key. -/
def certKey (c : Bytes) : Bytes := takeAt c 0x38 1952

/-- The key hash checks under R435: the Alairco debug key against the mask ROM, the integrator key against its fuses. -/
def State.certKeyOk (s : State) (c : Bytes) : Bool :=
  let h := hash256 (certKey c)
  match leAt c 7 1 with
  | 0 => s.sys.enrolled && h == s.sys.keyFuse
  | 1 => h == Config.romDbgHash
  | _ => false

/-- The certificate is accepted. -/
def State.certOk (s : State) (c : Bytes) : Bool :=
  c.length == 0x7D8 + 3309 && leAt c 0 4 == 0x47424444 && leAt c 4 2 == 1 && decide (certScope c < 16)
    && takeAt c 8 16 == keyId && s.sys.challenge == some (takeAt c 0x18 32) && s.certKeyOk c
    && (!bit (certScope c) 2 || leAt c 7 1 == 1)
    && Config.verify (certKey c) (c.take 0x7D8) (c.drop 0x7D8)

/-- A certificate is shifted in: the challenge is consumed, and its scope unlocked, beside any scope unlocked before, or
refused (R450, R451). DESIGN CHOICE, assumption 27. -/
def State.debugCert (s : State) (c : Bytes) : State :=
  let good := s.certOk c
  let s : State := { s with sys := { s.sys with challenge := none } }
  if good then
    let s : State := { s with sys := { s.sys with scope := Nat.lor s.sys.scope (certScope c) } }
    (s.setF R.idBoot F.idBootDebug (b2n (decide (s.sys.scope ≠ 0)))).report Src.device E.secDebugUnlocked Rep.security
      (certScope c)
  else s.report Src.device E.secDebugRefused Rep.security

/-! ### The rows -/

/-- TAP reset selects IDCODE. -/
def execTapReset (s : State) : Out := .next (s.setIr 1)

/-- EXTEST, or BYPASS where it does not take effect. PRESUMED, assumption 26. -/
def execExtest (s : State) : Out := .next (s.setIr (if s.extestOk then 0x00 else 0xFF))

def execIdcode (s : State) : Out := .next ((s.setIr 1).emit (.tap (leBytes 4 idcode)))

def execSamplePreload (s : State) : Out := .next (s.setIr 2)

/-- A fresh challenge is read (R449). -/
def execDbgChallenge (s : State) : Out :=
  let s := s.setIr 0x20
  if s.dbgOn then
    let c := Config.challenge s.fresh
    .next (({ s with fresh := s.fresh + 1, sys := { s.sys with challenge := some c } } : State).emit (.tap c))
  else .next s

def execDbgCert (cert : Bytes) (s : State) : Out :=
  let s := s.setIr 0x21
  .next (if s.dbgOn then s.debugCert cert else s)

/-- Register and control-core access within the unlocked scope (R449 to R451). -/
def execDbgAccess (op : DbgOp) (s : State) : Out :=
  let s := s.setIr 0x22
  if !s.dbgOn then .next s
  else
    match op with
    | .read a => .next (if s.scopeBit 0 then s.emit (.tap (leBytes 4 (s.readReg a.toNat).toNat)) else s)
    | .write a v => .next (if s.scopeBit 1 then s.fwWrite a.toNat v else s)
    | .halt c =>
      .next (if s.scopeBit 2 ∧ c.val ∉ s.sys.halted then { s with sys := { s.sys with halted := s.sys.halted ++ [c.val] } }
        else s)
    | .resume c =>
      .next (if s.scopeBit 2 then { s with sys := { s.sys with halted := s.sys.halted.filter (· ≠ c.val) } } else s)

def execBypass (s : State) : Out := .next (s.setIr 0xFF)

end Sys2Proof.Machine
end

