-- ==== Sys2Proof/Machine/FaultCmds.lean ====
section
/-! DEFINITION. The commands of hangs, fences and recovery (R398 to R424). -/

namespace Sys2Proof.Machine

/-- FLT_REC_CTRL.pop (R424). -/
def execPop (s : State) : Out := .next s.popRecord

/-! ### The ladder (R400 to R404) -/

def execSampleCopyEnd (c : CoreIx) (e : EngIx) (s : State) : Out := .next (s.copyEnd c.val e.val)

def execSampleCopyTimeout (c : CoreIx) (e : EngIx) (s : State) : Out := .next (s.copyTimeout c.val e.val)

def execEngineResetDone (c : CoreIx) (e : EngIx) (s : State) : Out := .next (s.resetDone c.val e.val)

def execEngineResetTimeout (c : CoreIx) (e : EngIx) (s : State) : Out := .next (s.resetTimeout c.val e.val)

def execCoreWake (c : CoreIx) (s : State) : Out := .next (s.wakeCore c.val)

def execCoreReturn (c : CoreIx) (ok : Bool) (s : State) : Out := .next (s.returnCore c.val ok)

def execFenceComplete (c : CoreIx) (s : State) : Out := .next (s.fenceDone c.val)

/-- A fence that is not complete after 2 ms leads to a device recovery reset (R398, R404). -/
def State.fenceHang (s : State) (c : Nat) : State :=
  if s.fenceLate c then
    let s := s.setLadder c { s.ladder c with fenceAt := none }
    (s.report (Src.core c) E.fltFenceHang Rep.power).startDrr 1
  else s

def execFenceTimeout (c : CoreIx) (s : State) : Out := .next (s.fenceHang c.val)

/-- A teardown that has not ended after 2 ms (R292, R406). -/
def State.teardownLate (s : State) (x : Nat) : State :=
  if s.ctxState x = 4 ∧ (s.ctx x).tdAt + 2000 ≤ s.timeUs then
    let s := s.ctxFaulted x
    if s.rcvP P.rcvFaultedCtxDrr = 1 then s.startDrr 3 else s
  else s

def execTeardownTimeout (x : CtxIx) (s : State) : Out := .next (s.teardownLate x.val)

/-! ### Watchdogs and device recovery reset (R398, R408) -/

/-- A control core that runs kicks its watchdog; a halted one does not. -/
def execWatchdogKick (cc : Fin 4) (s : State) : Out :=
  if s.sys.ccUp && !s.sys.halted.contains cc.val then
    .next { s with flt := { s.flt with kicks := s.flt.kicks.set cc.val s.timeUs } }
  else .next s

/-- The control core has not kicked for 100 ms (R398). -/
def State.watchdog (s : State) (cc : Nat) : State :=
  if s.sys.ccUp && decide (s.flt.kicks.getD cc 0 + 100000 ≤ s.timeUs) then
    let s : State := { s with flt := { s.flt with kicks := List.replicate 4 s.timeUs } }
    (s.report Src.device E.fltWatchdog Rep.power cc).startDrr 2
  else s

def execWatchdogExpiry (cc : Fin 4) (s : State) : Out := .next (s.watchdog cc.val)

/-- RESET_N is held low for at least 1 µs (R503). -/
def execResetN (s : State) : Out := .next (if s.sys.aon then s.startDrr 4 else s)

/-- 30 ms into a device recovery reset (R408). -/
def execWarmReset (s : State) : Out :=
  match s.flt.drrAt with
  | some t => .next (if t + 30000 ≤ s.timeUs ∧ s.sys.boot.isNone then s.warmReset.bootRun .drr else s)
  | none => .next s

/-! ### Reports and the log (R415 to R419) -/

def execFaultReport (source code : BitVec 16) (reporter : Byte) (detail : Word) (s : State) : Out :=
  .next (s.report source.toNat code.toNat reporter.toNat detail.toNat)

def execRecordClose (s : State) : Out := .next s.closeRecord

/-- 1 s after the first pending entry its page is written (R419). -/
def execLogFlushTimeout (s : State) : Out :=
  if !s.flt.pending.isEmpty && decide (s.flt.pendSince + 1000000 ≤ s.timeUs) then .next s.flushLog else .next s

end Sys2Proof.Machine
end

