-- ==== Sys2Proof/Machine/PowerCmds.lean ====
section
/-! DEFINITION. The commands of power, thermal control and monitor results (R378 to R395, R364, R502). -/

namespace Sys2Proof.Machine

/-! ### Locks (R14, R396, R453) -/

/-- PWR_LOCK.lock, of which SEC_LOCK holds a copy. -/
def execPwrLock (s : State) : Out := .next ((s.setF R.pwrLock F.pwrLockLock 1).setF R.secLock F.secLockPwr 1)

/-- THM_LOCK.lock, of which SEC_LOCK holds a copy. -/
def execThmLock (s : State) : Out := .next ((s.setF R.thmLock F.thmLockLock 1).setF R.secLock F.secLockThm 1)

/-- SEC_LOCK.act. -/
def execSecLock (s : State) : Out := .next (s.setF R.secLock F.secLockAct 1)

/-! ### Domains (R379, R380) -/

def execDomainWakeRequest (d : DomIx) (s : State) : Out := .next (s.wakeReq d.val)

def execDomainGate (d : DomIx) (s : State) : Out := .next (s.gateReq d.val)

def execDomainWakeStart (s : State) : Out := .next s.wakeStart

def execDomainAwake (d : DomIx) (s : State) : Out := .next (s.awake d.val)

/-- A failed core domain is handled as a core fence (R379, R404). -/
def execDomainWakeFail (d : DomIx) (s : State) : Out :=
  match s.rampFail d.val with
  | (s, true) => .next (if d.val < 48 then (s.rung3 (d.val / 3) 3).standbyAwake else s.standbyAwake)
  | (s, false) => .next s

/-! ### Load-step handshake (R386) -/

def execDispEn (s : State) : Out := .next (if s.domOn 66 then s.doStep .dispEn else s)

def execLoadStepAck (s : State) : Out := .next s.loadAck

def execLoadStepAckDeassert (s : State) : Out := .next s.loadNack

def execLoadStepTimeout (s : State) : Out := .next s.loadTimeout

def execLoadStepReqDeassert (s : State) : Out := .next s.loadReqEnd

def execSlewRecover (s : State) : Out := .next s.slewBack

/-! ### Temperature and power (R387 to R394) -/

def execTemperatureConversion (readings : List Int) (s : State) : Out := .next (s.convertTemps readings)

def execThrottleEscalate (s : State) : Out := .next s.throttleUp

def execThrottleLower (s : State) : Out := .next s.throttleDown

/-- The comparator of a sensor sees `reading` (R394). -/
def execHardTrip (sensor : Fin 68) (reading : Int) (s : State) : Out :=
  match s.tripReading sensor.val reading with
  | some t => .next (if 118 * 64 ≤ t then s.hardTrip sensor.val t else s)
  | none => .next s

def execPowerEstimate (mean : BitVec 16) (s : State) : Out := .next (s.powerMean mean.toNat)

def execPowerLimitEnd (s : State) : Out := .next s.powerEnd

def execOrderlyStopDrain (s : State) : Out := .next s.stopDrain

def execStopComplete (s : State) : Out := .next s.stopEnd

/-! ### Power states (R383, R502) -/

/-- Firmware may enter STANDBY on its own: the device is ACTIVE with nothing else under way. DEDUCED, assumption 82. -/
def State.mayIdle (s : State) : Bool :=
  s.getF R.pwrState F.pwrStateState == 0 && s.sys.boot.isNone && !s.sys.leaving && s.flt.drrAt.isNone && s.sys.ccUp
    && !s.isSet R.thmLevel F.thmLevelStopping && s.sdm.long.isNone && !s.cal.running && !s.laneStarted

/-- Every lane has been stopped for idle_standby_s; 0 disables the rule (R383). -/
def execIdleStandby (s : State) : Out :=
  let n := s.pwrP P.pwrIdleStandbyS
  match s.pwr.idleAt with
  | some t => .next (if 0 < n && s.mayIdle && decide (t + 1000000 * n ≤ s.timeUs) then s.enterStandby else s)
  | none => .next s

/-- Channels of the group 2 rails (R360, R501). -/
def railChans : List Nat := [16, 17, 19, 20, 21, 22, 23, 24]

/-- Krein reads every group 2 rail on converter A before it leaves SLEEP or STOPPED (R502). -/
def State.startRails (s : State) (op tag : Nat) : State :=
  if s.sys.railWait.isSome then s
  else
    let s : State := { s with sys := { s.sys with railWait := some s.timeUs, railLeft := railChans, railCmd := some (op, tag) } }
    s.putAside 0 4 (railChans.headD 0)

/-- The boot of an accepted REBOOT (R426). -/
def State.doReboot (s : State) : State :=
  let s := s.aonReset.domUp 64
  s.readHold.bootRun .reboot

/-- Every rail is in range: SLEEP and STOPPED are left (R383, R393). -/
def State.railsOk (s : State) : State :=
  let s : State := { s with sys := { s.sys with railWait := none, railLeft := [], railCmd := none } }
  if s.getF R.pwrState F.pwrStateState = 3 then s.doReboot else s.bootRun .sleepExit

/-- A result of the rail being checked: the next one, or the same again while it is out of range (R502).
DESIGN CHOICE, assumption 73. -/
def State.railResult (s : State) (good : Bool) : State :=
  if good then
    match s.sys.railLeft with
    | _ :: c :: cs => ({ s with sys := { s.sys with railLeft := c :: cs } } : State).putAside 0 4 c
    | _ => s.railsOk
  else s.putAside 0 4 (s.sys.railLeft.headD 0)

/-- A rail has stayed out of range for 100 ms (R502): the wake is refused. -/
def execRailWaitTimeout (s : State) : Out :=
  match s.sys.railWait with
  | some t =>
    if t + 100000 ≤ s.timeUs then
      let cmd := s.sys.railCmd
      let ch := s.sys.railLeft.headD 0
      let s : State := { s with sys := { s.sys with railWait := none, railLeft := [], railCmd := none } }
      let s := (s.endTaken 0).report Src.device E.pwrRailRange Rep.monitor ch
      match cmd with
      | some (op, tag) => .next (s.lateReply (replyBytes op tag E.genDenied 0 0 []))
      | none => .next s
    else .next s
  | none => .next s

/-- A monitor conversion delivers a result (R364); firmware stops the device on a rail out of range (R392, R512). -/
def State.conversion (s : State) (x : Nat) (raw : Int) (overload : Bool) : State :=
  if !s.convPowered x then s
  else
    let ch := s.getF (R.monCvState x) F.monCvStateChan
    let st := s.convState x
    let bad := s.overRange x raw overload || railBad ch (s.convResult x raw)
    let live := 3 ≤ st && st != 5
    let t := s.deliverResult x raw overload
    if s.sys.railWait.isSome && x == 0 && st == 4 && s.sys.railLeft.head? == some ch then t.railResult (!bad)
    else if live && !s.overRange x raw overload && bad && s.sys.ccUp && s.getF R.pwrState F.pwrStateState == 0
        && !s.isSet R.thmLevel F.thmLevelStopping then
      (t.report Src.device E.pwrRailRange (Rep.fw 3) ch).orderlyStop 3
    else t

def execConversionResult (x : ConvIx) (raw : Int) (overload : Bool) (s : State) : Out :=
  .next (s.conversion x.val raw overload)

end Sys2Proof.Machine
end

