-- ==== Sys2Proof/Machine/Mailbox.lean ====
section
/-! DEFINITION. The mailbox: what every command does, the F2 streams it opens, and its final reply (R448, R479 to R483). -/

namespace Sys2Proof.Machine

/-- A mailbox command (R479): opcode, tag, parameter length as the header gives it, parameters, bytes to come on F2. -/
structure MbCmd where
  op : Nat
  tag : Nat
  len : Nat
  params : Bytes
  f2 : Nat
  deriving DecidableEq, Repr

/-- The power state. -/
def State.pstate (s : State) : Nat := s.getF R.pwrState F.pwrStateState

/-- Data for the host: the reply names its length, and the stream opens once the data is ready (R483). -/
def State.sendF2 (s : State) (c : MbCmd) (params : Bytes) (n : Nat) (src : F2Src) : State :=
  if n = 0 then s.answer c.op c.tag 0 params
  else if s.f2Busy then s.answer c.op c.tag E.genBusy
  else ({ s with sdm := { s.sdm with f2Next := some ⟨c.tag, n, src⟩ } } : State).answer c.op c.tag 0 params n

/-! ### GET_STATUS, READ_LOG, READ_COUNTERS (R481, R482) -/

/-- The accession record of the partner attached to a port, or zeros. -/
def State.partnerRecord (s : State) (p : Nat) : Bytes :=
  if s.attached p then ((s.port p).record ++ List.replicate 128 0).take 128 else List.replicate 128 0

def State.mbGetStatus (s : State) (c : MbCmd) : State :=
  let sel := leAt c.params 0 1
  s.answer c.op c.tag 0 (if sel = 0 then s.statusBlock else s.partnerRecord (sel - 1))

/-- Insert a page by its sequence number. -/
def insertPage (x : Nat × Bytes) : List (Nat × Bytes) → List (Nat × Bytes)
  | [] => [x]
  | y :: ys => if seqHigher y.1 x.1 then x :: y :: ys else y :: insertPage x ys

/-- The entries of the VALID log pages in sequence order, padding left out (R460). -/
def State.logEntries (s : State) : List Bytes :=
  let pages := (s.pst.pages.filter (fun e => decide (1024 ≤ e.1) && e.2.ok)).foldl (fun l e => insertPage (e.2.seq, e.2.data) l) []
  pages.flatMap (fun e => ((List.range 7).map (fun i => takeAt e.2 (32 * i) 32)).filter (fun b => leAt b 0 2 != 0))

/-- DESIGN CHOICE, assumption 84. -/
def State.mbReadLog (s : State) (c : MbCmd) : State :=
  if leAt c.params 0 1 = 1 then s.sendF2 c (leBytes 4 0) (64 * 2 ^ 20) (.dump 0)
  else
    let s := s.reportTorn 1024 1024
    let es := s.logEntries.filter (fun b => decide (leAt c.params 4 4 ≤ leAt b 0x1C 4))
    s.sendF2 c (leBytes 4 es.length) (32 * es.length) (.bytes (es.flatMap id))

/-- The payload of a counters-region record on F2; a lost record gives its code, an absent one `absent`. -/
def State.sendRec (s : State) (c : MbCmd) (type : Nat) (absent : Bytes) : State :=
  let lost := match s.lookupRec type with | .lost => true | _ => false
  let (s, p) := s.readRec type
  if lost then s.answer c.op c.tag E.pstRecordLost
  else
    let bs := p.getD absent
    s.sendF2 c [] bs.length (.bytes bs)

def State.mbReadCounters (s : State) (c : MbCmd) : State :=
  match leAt c.params 0 1 with
  | 0 => s.answer c.op c.tag 0 ((List.range 6).flatMap (fun i => leBytes 4 (s.counter i)))
  | 1 => s.sendRec c 0x600 (List.replicate 4352 0)
  | _ => s.sendRec c 0x601 []

/-! ### ATTEST (R448) -/

/-- Quote offsets 0x000 to 0x0FF. -/
def State.quoteBody (s : State) (nonce : Bytes) : Bytes :=
  let cfgHash := match findSect (intSects s.sys.intMan) 0x10 with | some x => x.hash | none => List.replicate 32 0
  let pkgHash := match s.runPkg with | some g => g.pkgHash | none => List.replicate 32 0
  let flags := b2n (decide (s.sys.scope ≠ 0)) + 2 * b2n s.stk.arcComplete + 4 * s.getF R.idBoot F.idBootFallback
    + 8 * b2n (!s.sys.enrolled) + 16 * s.getF R.idBoot F.idBootSuperseded
  let epochs := ((List.range 1088).map (fun i => s.regNat (R.calEpoch (i / 68) (i % 68)))).foldl (· + ·) 0
  leBytes 4 0x544F5551 ++ leBytes 2 1 ++ leBytes 2 3565 ++ keyId ++ nonce ++ fwBinding s.sys.fwMan ++ cfgHash ++ pkgHash
    ++ ((s.recOf 0x500).getD []++ List.replicate 32 0).take 32 ++ leBytes 1 (s.dsp.running.getD 0xFF) ++ leBytes 1 flags
    ++ leBytes 2 s.fencedMap ++ leBytes 2 (fwSvn s.sys.fwMan) ++ leBytes 2 (intSvn s.sys.intMan) ++ leBytes 4 s.fcalRev
    ++ leBytes 4 (s.readReg R.calSummary).toNat ++ leBytes 8 epochs ++ leBytes 8 s.timeUs ++ leBytes 4 (s.counter 2)
    ++ List.replicate 36 0

/-- Quote and certificate, taken when ATTEST is accepted. -/
def State.quote (s : State) (nonce : Bytes) : Bytes :=
  let body := s.quoteBody nonce
  body ++ (Config.sign body ++ List.replicate 3309 0).take 3309
    ++ ((s.recOf 0x107).getD [] ++ List.replicate 5325 0).take 5325

def State.mbAttest (s : State) (c : MbCmd) : State :=
  if s.sys.idOk then s.sendF2 c [] 8890 (.bytes (s.quote (c.params.take 32))) else s.answer c.op c.tag E.secIdentityBad

/-! ### Long commands (R480) -/

/-- A long command is accepted unless another runs. -/
def State.mbAccept (s : State) (c : MbCmd) (f : State → State) : State :=
  if s.sdm.long.isSome then s.answer c.op c.tag E.genBusy else f (s.acceptLong c.op c.tag c.params)

/-- The long command that runs has met an error. -/
def State.longErr (s : State) (code : Nat) : State :=
  { s with sdm := { s.sdm with long := s.sdm.long.map (fun l => if l.err = 0 then { l with err := code } else l) } }

/-- How far the long command has come. -/
def State.longStage (s : State) (n : Nat) : State :=
  { s with sdm := { s.sdm with long := s.sdm.long.map (fun l => { l with stage := n }) } }

/-- A context is RUNNING, DRAINING, TEARING or SUSPENDED. -/
def busyCtx (st : Nat) : Bool := st == 2 || st == 3 || st == 4 || st == 6

/-- The image that runs has been overwritten in the flash (R452). -/
def State.superseded (s : State) : Bool := s.isSet R.idBoot F.idBootSuperseded

def State.mbLoadPackage (s : State) (c : MbCmd) : State :=
  let k := leAt c.params 0 1
  if (List.range 64).any (fun x => busyCtx (s.ctxState x)) then s.answer c.op c.tag E.dspCtxState
  else if s.superseded then s.answer c.op c.tag E.genDenied
  else s.mbAccept c (fun s =>
    let code := s.loadCode k
    if code ≠ 0 then s.longErr code
    else
      let s := s.takePackage k
      if s.getF R.idBoot F.idBootStage = 9 then s.setStage 6 else s)

def State.mbProgramModel (s : State) (c : MbCmd) : State :=
  let k := leAt c.params 0 1
  if s.laneStarted || s.pstate != 0 then s.answer c.op c.tag E.genDenied
  else s.mbAccept c (fun s =>
    let code := s.loadCode k
    if code ≠ 0 then s.longErr code
    else ({ s with dsp := { s.dsp with pkgs := s.dsp.pkgs.put k (s.readPkg k) } } : State).wantModel k)

def State.mbSetGraft (s : State) (c : MbCmd) : State :=
  if s.sdm.long.isNone && s.f2Busy then s.answer c.op c.tag E.genBusy
  else s.mbAccept c (fun s => if c.f2 = 0 then (s.longErr E.calGraftCrc).longStage 1 else s.openF2 c.tag 1 c.f2)

/-- The contexts that a bitmap names. -/
def named (bits : Nat) : List Nat := (List.range 64).filter (bit bits)

def State.mbStartLine (s : State) (c : MbCmd) : State :=
  let xs := named (leAt c.params 0 8)
  if xs.any (fun x => s.ctxState x != 1) then s.answer c.op c.tag E.dspCtxState
  else if s.superseded || s.isSet R.thmLevel F.thmLevelStopping then s.answer c.op c.tag E.genDenied
  else if !xs.all s.saveAreaOk then s.answer c.op c.tag E.dspSaveArea
  else s.mbAccept c (fun s =>
    if xs.isEmpty then s
    else if !s.weightsOk then s.longErr E.bootWeightsStale
    else if s.pstate = 1 then s.leaveStandby
    else if s.cal.complete then s.startLines xs
    else s)

/-- A STOP_LINE goes on to STANDBY or SLEEP once its contexts have stopped (R383): SLEEP waits for the store. -/
def State.advanceStop (s : State) : State :=
  match s.sdm.long with
  | none => s
  | some l =>
    let flags := leAt l.params 8 1
    if l.op ≠ 9 ∨ flags < 2 ∨ s.laneStarted then s
    else if l.stage = 0 then
      (if bit flags 1 then (if s.pstate = 0 then s.enterStandby else s).longStage 2 else s.startSleep.longStage 1)
    else if l.stage = 1 ∧ s.storeIdle then s.enterSleep.longStage 2
    else s

def State.mbStopLine (s : State) (c : MbCmd) : State :=
  let xs := named (leAt c.params 0 8)
  let flags := leAt c.params 8 1
  let park := bit flags 1 || bit flags 2
  if bit flags 1 && bit flags 2 then s.answer c.op c.tag E.genDenied
  else if xs.any (fun x => s.ctxState x != 2 && !(park && s.ctxState x == 1)) then s.answer c.op c.tag E.dspCtxState
  else if park && (List.range 64).any (fun x => s.ctxState x == 2 && !xs.contains x) then s.answer c.op c.tag E.genDenied
  else s.mbAccept c (fun s =>
    let run := xs.filter (fun x => s.ctxState x == 2)
    let s := run.foldl
      (fun s x => if bit flags 0 then s.wantTeardown x else (s.setF (R.dspCxState x) F.dspCxStateState 3).drained x) s
    s.advanceStop)

def State.mbFenceCore (s : State) (c : MbCmd) : State :=
  if s.pstate ≠ 0 then s.answer c.op c.tag E.genDenied else s.mbAccept c (fun s => s.rung3 (leAt c.params 0 1) 2)

/-! ### FLASH_WRITE (R452, R481) -/

/-- `n` bytes from flash address `a` overlap the running colophon or a running section. -/
def State.overlapsImage (s : State) (a n : Nat) : Bool :=
  decide (a < 0x4000) ||
    (fwSects s.sys.fwMan ++ intSects s.sys.intMan).any (fun x => decide (a < x.addr + x.len ∧ x.addr < a + n))

def State.mbFlashWrite (s : State) (c : MbCmd) : State :=
  let a := leAt c.params 0 4
  if a % 4096 ≠ 0 ∨ s.sys.flash.size < a + c.f2 then s.answer c.op c.tag E.genBadAddress
  else if s.laneStarted && decide (0 < c.f2) && s.overlapsImage a c.f2 then s.answer c.op c.tag E.genDenied
  else if s.sdm.long.isNone && s.f2Busy then s.answer c.op c.tag E.genBusy
  else s.mbAccept c (fun s => if c.f2 = 0 then s.longStage 1 else s.openF2 c.tag 1 c.f2)

/-- Erase and program: the flash holds the data, and an overwritten image is superseded (R452). -/
def State.flashWrite (s : State) (a : Nat) (data : Bytes) : State :=
  let hit := s.overlapsImage a data.length
  let s : State := { s with sys := { s.sys with flash := { s.sys.flash with mem := s.sys.flash.mem.setRun 0xFF a data } } }
  if hit then
    ({ s with stk := { s.stk with arcPkg := if s.stk.arcComplete then s.stk.arcPkg else none } } : State).setF R.idBoot
      F.idBootSuperseded 1
  else s

/-! ### REBOOT (R393, R481) -/

/-- T_max is at least 10 °C below THM_THR (R393). -/
def State.coolEnough (s : State) : Bool := decide (sext 16 (s.getF R.thmMax F.thmMaxTemp) + 640 ≤ s.thr64)

/-- A REBOOT is accepted: the boot starts at reply_done, or 10 ms after the reply. -/
def State.acceptReboot (s : State) (c : MbCmd) : State :=
  ({ s with sdm := { s.sdm with rebootAt := some s.timeUs } } : State).answer c.op c.tag 0

def State.mbReboot (s : State) (c : MbCmd) : State :=
  if s.pstate = 1 then s.answer c.op c.tag E.genDenied
  else if s.pstate = 3 && !s.coolEnough then s.answer c.op c.tag E.genDenied
  else s.acceptReboot c

/-! ### The front end (R384, R422, R480, R515) -/

/-- Parameter lengths and F2 lengths within the command's limits. -/
def lengthsOk (c : MbCmd) : Bool :=
  let p := c.len
  let noF2 := decide (c.f2 = 0)
  match c.op with
  | 1 => decide (p ≤ 1) && noF2
  | 2 => decide (p = 8) && noF2
  | 3 => decide (p = 1) && noF2
  | 4 => decide (p = 32) && noF2
  | 5 => decide (p = 1) && noF2
  | 6 => decide (p = 1) && noF2
  | 7 => decide (p = 0) && decide (c.f2 ≤ 17420)
  | 8 => decide (p = 8) && noF2
  | 9 => decide (p = 9) && noF2
  | 10 => decide (p = 1) && noF2
  | 11 => decide (p = 4) && decide (c.f2 % 4096 = 0)
  | _ => decide (p = 0) && noF2

/-- Parameter values within the ranges of R481. -/
def valuesOk (c : MbCmd) : Bool :=
  let b := leAt c.params 0 1
  match c.op with
  | 1 => decide (b ≤ 8)
  | 2 => decide (b ≤ 1) && decide (leAt c.params 1 3 = 0)
  | 3 => decide (b ≤ 2)
  | 5 => decide (b ≤ 1)
  | 6 => decide (b ≤ 1)
  | 9 => decide (leAt c.params 8 1 ≤ 7)
  | 10 => decide (b ≤ 15)
  | _ => true

/-- A command whose lengths and values stand, in a state that admits it. -/
def State.mbRun (s : State) (c : MbCmd) : State :=
  match c.op with
  | 1 => s.mbGetStatus c
  | 2 => s.mbReadLog c
  | 3 => s.mbReadCounters c
  | 4 => s.mbAttest c
  | 5 => s.mbLoadPackage c
  | 6 => s.mbProgramModel c
  | 7 => s.mbSetGraft c
  | 8 => s.mbStartLine c
  | 9 => s.mbStopLine c
  | 10 => s.mbFenceCore c
  | 11 => s.mbFlashWrite c
  | _ => s.mbReboot c

/-- What the device's condition makes of a command other than GET_STATUS (R384, R422, R515): 0 goes on.
DEDUCED, assumption 83. -/
def State.mbGate (s : State) (c : MbCmd) : Nat :=
  if s.flt.drrAt.isSome then E.genBusy
  else if s.pstate = 2 then E.genBusy
  else if s.pstate = 3 then (if c.op = 12 then 0 else E.genDenied)
  else if s.sys.boot.isSome then
    let early := c.op = 3 ∨ c.op = 4 ∨ c.op = 7 ∨ (c.op = 2 ∧ (leAt c.params 0 1 = 0 ∨ s.sys.trained = true))
    if s.sys.ccUp ∧ early then 0 else E.genBusy
  else 0

/-- A command is checked and handled (R480, R481). -/
def State.mailbox (s : State) (c : MbCmd) : State :=
  let gate := if c.op = 1 then 0 else s.mbGate c
  if gate ≠ 0 then
    let s := s.answer c.op c.tag gate
    if s.pstate = 2 ∧ s.flt.drrAt.isNone then s.startRails c.op c.tag else s
  else if c.op = 0 ∨ 12 < c.op then s.answer c.op c.tag E.genBadOpcode
  else if !lengthsOk c then s.answer c.op c.tag E.genBadLength
  else if !valuesOk c then s.answer c.op c.tag E.genBadParam
  else s.mbRun c

/-- The command in the command buffer (R479). -/
def State.bufCmd (s : State) : MbCmd :=
  let h := Tab.getRun 0 s.sdm.cmdBuf 0 16
  let n := leAt h 4 2
  ⟨leAt h 0 2, leAt h 2 2, n, Tab.getRun 0 s.sdm.cmdBuf 16 (min n 4080), leAt h 8 4⟩

/-- SDM_MB_CTRL.doorbell (R480): no effect with a reply in the buffer. -/
def State.doorbell (s : State) : State :=
  if s.mbState = 2 then s.discard R.sdmMbCtrl 5
  else if s.bufCmd.len ≤ 4080 then s.mailbox s.bufCmd
  else
    let c := s.bufCmd
    let gate := if c.op = 1 then 0 else s.mbGate c
    s.answer c.op c.tag (if gate ≠ 0 then gate else E.genBadLength)

/-- A command row: header and parameters are written to the command buffer, then the doorbell. Nothing happens while
function 1 is silent or not enabled (R461, R474). -/
def State.mbRow (s : State) (op : Nat) (tag : BitVec 16) (params : Bytes) (f2 : Nat) : State :=
  if !s.fnReady 1 then s
  else
    let hdr := leBytes 2 op ++ leBytes 2 tag.toNat ++ leBytes 2 (min params.length 0xFFFF) ++ leBytes 2 0
      ++ leBytes 4 (min f2 0xFFFFFFFF) ++ leBytes 4 0
    let s : State := { s with sdm := { s.sdm with cmdBuf := s.sdm.cmdBuf.setRun 0 0 (hdr ++ params.take 4080) } }
    s.doorbell

/-! ### Replies taken, and final replies (R480, R481) -/

/-- A reboot whose time has come: from STOPPED the rails are checked first (R502). -/
def State.goReboot (s : State) : State :=
  let s : State := { s with sdm := { s.sdm with rebootAt := none } }
  if s.pstate = 3 then s.startRails 12 0 else s.doReboot

/-- SDM_MB_CTRL.reply_done: the buffer is free, a final reply that waits is placed. -/
def State.replyDone (s : State) : State :=
  if s.mbState ≠ 2 then s
  else
    let s := s.setF R.sdmMbState F.sdmMbStateState 0
    let s := match s.sdm.final with
      | some bs => ({ s with sdm := { s.sdm with final := none } } : State).placeReply bs
      | none => s
    if s.sdm.rebootAt.isSome then s.goReboot else s

/-- 10 ms after an accepted REBOOT's reply. -/
def State.rebootLate (s : State) : State :=
  match s.sdm.rebootAt with
  | some t => if t + 10000 ≤ s.timeUs then s.goReboot else s
  | none => s

/-- A record write that a command waits for is queued or runs. -/
def State.recWaits (s : State) : Bool :=
  let w := fun (j : PJob) => match j.kind with | .record _ _ b => b | _ => false
  s.pst.queue.any w || (match s.pst.run with | some r => w r.job | none => false)

/-- The long command has ended (R481). -/
def State.longDone (s : State) (l : LongCmd) : Bool :=
  let xs := named (leAt l.params 0 8)
  match l.op with
  | 5 => true
  | 6 => s.cal.modelWait.isNone && !s.recWaits && s.cal.jobs.all (fun e => match e.2.kind with | .model _ => false | _ => true)
  | 7 => l.stage == 1 && !s.recWaits
  | 8 => l.err != 0 || xs.all (fun x => s.ctxState x != 1 && (s.ctxState x != 2 || s.isSet R.dspCtrl F.dspCtrlDispEn))
  | 9 => xs.all (fun x => !busyCtx (s.ctxState x)) && (decide (leAt l.params 8 1 < 2) || l.stage == 2)
  | 10 => (s.ladder (leAt l.params 0 1)).fenceAt.isNone
  | _ => l.stage == 1

/-- The long command goes on, and its final reply is placed once it has ended. -/
def State.finalReply (s : State) : State :=
  let s := s.advanceStop
  match s.sdm.long with
  | some l => if s.longDone l then s.finalLong l.err else s
  | none => s

/-! ### F2 (R483) -/

/-- SDM_MB_CTRL.f2_abort: the stream closes, and a command whose data is cut short ends with GEN_BAD_LENGTH. -/
def State.abortF2 (s : State) : State :=
  if s.isSet R.sdmF2State F.sdmF2StateOpen then
    let fromHost := s.isSet R.sdmF2State F.sdmF2StateDir
    let s := s.closeF2
    if fromHost then (s.longErr E.genBadLength).longStage 1 else s
  else s

/-- All data of a command has arrived: SET_GRAFT checks its record, FLASH_WRITE writes. -/
def State.f2Complete (s : State) : State :=
  let data := s.sdm.f2In
  let s := s.closeF2
  match s.sdm.long with
  | none => s
  | some l =>
    let s := s.longStage 1
    if l.op = 7 then
      let code := graftCheck data
      if code ≠ 0 then s.longErr code else s.writeRec (leAt data 0 2) ((recPayload (leAt data 0 2) data).getD []) true
    else if l.op = 11 then s.flashWrite (leAt l.params 0 4) data
    else s

/-- Bytes left in the stream. -/
def State.f2Left (s : State) : Nat := s.regNat R.sdmF2Left

/-- A stream in direction `dir` is open. -/
def State.f2Open (s : State) (dir : Bool) : Bool :=
  s.isSet R.sdmF2State F.sdmF2StateOpen && s.isSet R.sdmF2State F.sdmF2StateDir == dir

/-- The host reads `n` bytes: beyond the stream they are 0x00. -/
def State.f2Read (s : State) (n : Nat) : State :=
  let k := if s.f2Open false then min n s.f2Left else 0
  let (bs, src) := s.f2Take k
  let s := s.emit (.f2 (bs ++ List.replicate (n - k) 0))
  let s := if k = 0 then s else
    let s := ({ s with sdm := { s.sdm with f2Src := src } } : State).setNat R.sdmF2Left (s.f2Left - k)
    if s.f2Left = 0 then s.closeF2 else s
  if k < n then s.f2Overrun else s

/-- The host writes: bytes beyond the declared length are discarded. -/
def State.f2Write (s : State) (data : Bytes) : State :=
  let k := if s.f2Open true then min data.length s.f2Left else 0
  let s := if k = 0 then s else
    let s := ({ s with sdm := { s.sdm with f2In := s.sdm.f2In ++ data.take k } } : State).setNat R.sdmF2Left (s.f2Left - k)
    if s.f2Left = 0 then s.f2Complete else s
  if k < data.length then s.f2Overrun else s

/-! ### The rows -/

def execGetStatus (tag : BitVec 16) (params : Bytes) (f2len : Nat) (s : State) : Out := .next (s.mbRow 1 tag params f2len)

def execReadLog (tag : BitVec 16) (params : Bytes) (f2len : Nat) (s : State) : Out := .next (s.mbRow 2 tag params f2len)

def execReadCounters (tag : BitVec 16) (params : Bytes) (f2len : Nat) (s : State) : Out :=
  .next (s.mbRow 3 tag params f2len)

def execAttest (tag : BitVec 16) (params : Bytes) (f2len : Nat) (s : State) : Out := .next (s.mbRow 4 tag params f2len)

def execLoadPackage (tag : BitVec 16) (params : Bytes) (f2len : Nat) (s : State) : Out :=
  .next (s.mbRow 5 tag params f2len)

def execProgramModel (tag : BitVec 16) (params : Bytes) (f2len : Nat) (s : State) : Out :=
  .next (s.mbRow 6 tag params f2len)

def execSetGraft (tag : BitVec 16) (params : Bytes) (f2len : Nat) (s : State) : Out := .next (s.mbRow 7 tag params f2len)

def execStartLine (tag : BitVec 16) (params : Bytes) (f2len : Nat) (s : State) : Out := .next (s.mbRow 8 tag params f2len)

def execStopLine (tag : BitVec 16) (params : Bytes) (f2len : Nat) (s : State) : Out := .next (s.mbRow 9 tag params f2len)

def execFenceCore (tag : BitVec 16) (params : Bytes) (f2len : Nat) (s : State) : Out :=
  .next (s.mbRow 10 tag params f2len)

def execFlashWrite (tag : BitVec 16) (params : Bytes) (f2len : Nat) (s : State) : Out :=
  .next (s.mbRow 11 tag params f2len)

def execReboot (tag : BitVec 16) (params : Bytes) (f2len : Nat) (s : State) : Out := .next (s.mbRow 12 tag params f2len)

def execReplyDone (s : State) : Out := .next (if s.fnReady 1 then s.replyDone else s)

def execRebootTimeout (s : State) : Out := .next s.rebootLate

def execFinalReply (s : State) : Out := .next s.finalReply

def execF2Abort (s : State) : Out := .next (if s.fnReady 1 then s.abortF2 else s)

def execF2Transfer (op : F2Op) (s : State) : Out :=
  if s.fnReady 2 then
    match op with
    | .write data => .next (s.f2Write data)
    | .read n => .next (s.f2Read n)
  else .next s

def execF2DataReady (s : State) : Out := .next s.f2Ready

end Sys2Proof.Machine
end

