-- ==== Sys2Proof/Machine/Sdio.lean ====
section
/-! DEFINITION. The register window of function 1, the CCCR and FBR of function 0, the clearing of status bits, and the SDIO
commands of the bus (R12 to R18, R473 to R477, R484, R514). -/

namespace Sys2Proof.Machine

/-! ### Reads through the window (R475, R476) -/

/-- Management address of F1 address `a` (R475). -/
def State.f1Addr (s : State) (a : Nat) : Nat :=
  if a < 0x10000 then a else s.getF R.sdmPage F.sdmPagePage * 0x10000 + (a - 0x10000)

/-- A read of the register at `w` has captured it; a _LO register captures its _HI, a _HI register gives its capture back
(R328, R424). -/
def State.readEffect (s : State) (w : Nat) : State :=
  if w = R.lckPos0Lo then s.capture .pos0
  else if w = R.lckPos1Lo then s.capture .pos1
  else if w = R.fltTimeLo then s.capture .fltTime
  else if w = R.lckPos0Hi then s.setEnc 0 { s.enc 0 with hiCap := none }
  else if w = R.lckPos1Hi then s.setEnc 1 { s.enc 1 with hiCap := none }
  else if w = R.fltTimeHi then { s with flt := { s.flt with hiCap := none } }
  else s

/-- The register at word address `w` goes into the read latch (R476). -/
def State.latchRead (s : State) (w : Nat) : State :=
  let v := s.readReg w
  let s : State := { s with sdm := { s.sdm with latch := some (w, v) } }
  if s.regOn w then s.readEffect w else s

/-- The latch holds the word at `w`. DEDUCED, assumption 18. -/
def State.latched (s : State) (w : Nat) : Bool :=
  match s.sdm.latch with
  | some (a, _) => a == w
  | none => false

/-- A read of F1 byte address `a`. -/
def State.f1Read (s : State) (a : Nat) : State :=
  let m := s.f1Addr a
  let w := m - m % 4
  if m % 4 ≠ 0 ∧ s.latched w then s else s.latchRead w

/-- The byte that a read of F1 byte address `a` returns (R476). -/
def State.f1Byte (s : State) (a : Nat) : Byte :=
  match (s.f1Read a).sdm.latch with
  | some (_, v) => BitVec.ofNat 8 (v.toNat / 2 ^ (8 * (s.f1Addr a % 4)))
  | none => 0

/-! ### Writes through the window (R475 to R477) -/

/-- SDM_MB_CTRL: doorbell, reply_done and f2_abort in the order of their bits. DESIGN CHOICE, assumption 23. -/
def State.writeMbCtrl (s : State) (v : Word) : State :=
  let s := if F.sdmMbCtrlDoorbell.get v = 1 then s.doorbell else s
  let s := if F.sdmMbCtrlReplyDone.get v = 1 then s.replyDone else s
  if F.sdmMbCtrlF2Abort.get v = 1 then s.abortF2 else s

/-- Reason for which a host write to an address outside the table of R477 is discarded. -/
def discardReason (a : Nat) : Nat :=
  match regRow a with
  | none => 3
  | some r => if r.rwl ≠ 0 then 2 else 1

/-- A word that the host has committed (R477). -/
def State.hostWrite (s : State) (a : Nat) (v : Word) : State :=
  if a = R.sdmPage then s.setF a F.sdmPagePage (F.sdmPagePage.get v)
  else if a = R.sdmMbCtrl then s.writeMbCtrl v
  else if a = R.sdmHostStatus then s.clearBits a (v &&& 0xF)
  else if a = R.sdmHostIntEn then s.setReg a (v &&& 0xF)
  else if 0x1000 ≤ a ∧ a < 0x2000 then
    (if s.mbState = 1 then s.discard a 5
     else { s with sdm := { s.sdm with cmdBuf := s.sdm.cmdBuf.setRun 0 (a - 0x1000) (leBytes 4 v.toNat) } })
  else if a = R.monSnapSel 1 then s.fwWrite a v
  else if a = R.fltHostStatus then s.clearBits a (v &&& 0x1F)
  else if a = R.fltHostIntEn then s.setReg a (v &&& 0x1F)
  else s.discard a (discardReason a)

/-- Uncommitted bytes of a word other than the one at `w` are discarded (R476). -/
def State.dropPartial (s : State) (w : Nat) : State :=
  match s.sdm.wbuf with
  | some (a, _) =>
    if a = w then s else ({ s with sdm := { s.sdm with wbuf := none } } : State).discard a 4
  | none => s

/-- The write buffer's bytes of the word at `w`. -/
def State.wbufAt (s : State) (w : Nat) : Tab Byte :=
  match s.sdm.wbuf with
  | some (a, bs) => if a = w then bs else []
  | none => []

/-- One byte written to F1 address `a`: byte 3 of a word commits it (R476). -/
def State.f1Write (s : State) (a : Nat) (b : Byte) : State :=
  let m := s.f1Addr a
  let w := m - m % 4
  let s := s.dropPartial w
  let bs := (s.wbufAt w).put (m % 4) b
  if m % 4 = 3 then
    ({ s with sdm := { s.sdm with wbuf := none } } : State).hostWrite w (BitVec.ofNat 32 (leNat (Tab.getRun 0 bs 0 4)))
  else { s with sdm := { s.sdm with wbuf := some (w, bs) } }

/-- The bytes of one transaction in order, at one address or at incrementing ones (R476). The 17-bit address wraps. -/
def State.f1WriteRun (fixed : Bool) : Nat → Bytes → State → State
  | _, [], s => s
  | a, b :: bs, s => State.f1WriteRun fixed (if fixed then a else (a + 1) % 2 ^ 17) bs (s.f1Write a b)

/-! ### Status bits (R13, R17, R18) -/

/-- Address of a status register. -/
def statusAddr : StatusReg → Nat
  | .til c t => R.tilStatus c.val t.val
  | .cal c => R.calStatus c.val
  | .vec c => R.vecQstatus c.val
  | .acc c => R.accStatus c.val
  | .stk => R.stkStatus
  | .dsp => R.dspStatus
  | .dspCx x => R.dspCxState x.val
  | .lck => R.lckStatus
  | .lckLane l => R.lckLnStatus l.val
  | .act => R.actStatus
  | .prt p => R.prtStatus p.val
  | .mon => R.monStatus
  | .pwr => R.pwrStatus
  | .thm => R.thmStatus
  | .flt => R.fltStatus
  | .fltHost => R.fltHostStatus
  | .pst => R.pstStatus
  | .sdmHost => R.sdmHostStatus

/-- The first event counter of a status register; the counters of its bits follow one another. -/
def statusEvt : StatusReg → Nat
  | .til c t => R.tilSatEvt c.val t.val
  | .cal c => R.calShbEvt c.val
  | .vec c => R.vecIsatEvt c.val
  | .acc c => R.accWaitEvt c.val
  | .stk => R.stkFullEvt
  | .dsp => R.dspTmoEvt
  | .dspCx x => R.dspCxTdEvt x.val
  | .lck => R.lckE0errEvt
  | .lckLane l => R.lckLnWfEvt l.val
  | .act => R.actClipEvt
  | .prt p => R.prtDetEvt p.val
  | .mon => R.monOvraEvt
  | .pwr => R.pwrInrEvt
  | .thm => R.thmThrEvt
  | .flt => R.fltNewsrcEvt
  | .fltHost => R.fltHfltEvt
  | .pst => R.pstTornEvt
  | .sdmHost => R.sdmReplyEvt

/-- The status bits of a register: the lowest one and how many there are. -/
def statusBits : StatusReg → Nat × Nat
  | .til _ _ => (0, 6)
  | .cal _ => (0, 3)
  | .vec _ => (0, 6)
  | .acc _ => (0, 3)
  | .stk => (0, 8)
  | .dsp => (0, 6)
  | .dspCx _ => (3, 1)
  | .lck => (0, 8)
  | .lckLane _ => (0, 1)
  | .act => (0, 7)
  | .prt _ => (0, 8)
  | .mon => (0, 6)
  | .pwr => (0, 5)
  | .thm => (0, 4)
  | .flt => (0, 6)
  | .fltHost => (0, 5)
  | .pst => (0, 4)
  | .sdmHost => (0, 4)

/-- The W1C bits of a status register as a mask. -/
def statusMask (r : StatusReg) : Word :=
  BitVec.ofNat 32 ((2 ^ (statusBits r).2 - 1) * 2 ^ (statusBits r).1)

/-- The register whose bits enable an interrupt to firmware, or to the host, for the bits of a status register. -/
def statusIntEn : StatusReg → Option Nat
  | .til c t => some (R.tilIntEn c.val t.val)
  | .cal _ => none
  | .vec c => some (R.vecQintEn c.val)
  | .acc c => some (R.accIntEn c.val)
  | .stk => some R.stkIntEn
  | .dsp => some R.dspIntEn
  | .dspCx _ => none
  | .lck => some R.lckIntEn
  | .lckLane _ => none
  | .act => some R.actIntEn
  | .prt p => some (R.prtIntEn p.val)
  | .mon => some R.monIntEn
  | .pwr => some R.pwrIntEn
  | .thm => some R.thmIntEn
  | .flt => some R.fltIntEn
  | .fltHost => some R.fltHostIntEn
  | .pst => some R.pstIntEn
  | .sdmHost => some R.sdmHostIntEn

/-- The interrupt of a status register is asserted: an enabled bit is set (R18). DEDUCED, assumption 28. -/
def State.intOf (s : State) (r : StatusReg) : Bool :=
  match statusIntEn r with
  | some e => decide (s.reg (statusAddr r) &&& statusMask r &&& s.reg e ≠ 0)
  | none => false

/-- The hardware sets the bits of `m` in status register `r`, and each one's counter advances (R17). -/
def State.setStatus (s : State) (r : StatusReg) (m : Word) : State :=
  let a := statusAddr r
  let lo := (statusBits r).1
  (List.range (statusBits r).2).foldl
    (fun s i => if bit m.toNat (lo + i) then s.count (statusEvt r + 4 * i) else s)
    (s.setReg a (s.reg a ||| m))

/-- The host may clear the bits of this register through the window (R477). DEDUCED, assumption 24. -/
def hostClears : StatusReg → Bool
  | .fltHost => true
  | .sdmHost => true
  | _ => false

/-- A write of `mask` to status register `r` in a cycle in which the hardware sets `setNow`: the set wins (R18). A host
write to a register that it may not write is discarded (R477). -/
def State.statusClear (s : State) (r : StatusReg) (mask setNow : Word) (who : Writer) : State :=
  let a := statusAddr r
  let s :=
    match who with
    | .firmware => if s.regOn a then s.clearBits a (mask &&& statusMask r) else s
    | .host =>
      if !s.fnReady 1 then s
      else if hostClears r then s.clearBits a (mask &&& statusMask r)
      else s.discard a (discardReason a)
  if s.regOn a then s.setStatus r (setNow &&& statusMask r) else s

/-! ### Function 0 (R474, R514) -/

/-- The bits of F0 byte `a` that a CMD52 write sets: IOE1 and IOE2, IENM and IEN1, the bus width, the bus speed, EAI, and
the block sizes of F1 and F2. PRESUMED, assumption 19. -/
def f0Mask (a : Nat) : Nat :=
  match a with
  | 0x02 => 0x06
  | 0x04 => 0x03
  | 0x07 => 0x03
  | 0x13 => 0x0E
  | 0x16 => 0x02
  | 0x110 => 0xFF
  | 0x111 => 0x03
  | 0x210 => 0xFF
  | 0x211 => 0x03
  | _ => 0

/-- A bus width or bus speed that Krein does not support is not taken: 1 or 4 bits, and no DDR50 (R473). -/
def f0Valid (a v : Nat) : Bool :=
  if a = 0x07 then v == 0 || v == 2 else if a = 0x13 then decide (v ≤ 6) else true

/-- A CMD52 write of byte `v` to F0 address `a`. DESIGN CHOICE, assumption 22. -/
def State.f0Write (s : State) (a v : Nat) : State :=
  let x := Nat.land v (f0Mask a)
  if f0Mask a ≠ 0 ∧ f0Valid a x then { s with sdm := { s.sdm with f0 := s.sdm.f0.set a (BitVec.ofNat 8 x) 0 } } else s

/-- Krein raises the F1 interrupt (R484). -/
def State.f1Int (s : State) : Bool :=
  s.intOf .sdmHost || s.intOf .fltHost

/-- The F1 interrupt reaches the host (R484). -/
def State.dat1 (s : State) : Bool :=
  s.f1Int && bit (s.sdm.f0.getD 4 0).toNat 0 && bit (s.sdm.f0.getD 4 0).toNat 1

/-- CCCR byte `a` as a CMD52 read returns it, for the bytes that R474, R461 and R514 give. I/O Ready is clear while a page
write runs. -/
def State.cccr (s : State) (a : Nat) : Nat :=
  let w := (s.sdm.f0.getD a 0).toNat
  match a with
  | 0x00 => 0x43
  | 0x01 => 0x03
  | 0x03 => 2 * b2n (s.fnReady 1) + 4 * b2n (s.fnReady 2)
  | 0x05 => 2 * b2n s.f1Int
  | 0x08 => 0x13
  | 0x13 => w + 1
  | 0x14 => 0x03
  | 0x15 => 0x00
  | 0x16 => w + 1
  | _ => w

/-! ### The rows -/

def execRegisterWrite (w : RegWrite) (s : State) : Out :=
  match w with
  | .host addr fixed data => .next (if s.fnReady 1 then State.f1WriteRun fixed addr.toNat data s else s)
  | .firmware addr value => .next (s.fwWrite addr.toNat value)

def execReadLatchCapture (addr : BitVec 17) (s : State) : Out :=
  .next (if s.fnReady 1 then s.f1Read addr.toNat else s)

/-- CMD5 is answered with an OCR of 2.7 to 3.6 V and S18A set (R473); the bits' places are the SDIO specification's.
PRESUMED, assumption 20. -/
def execCmd5 (s : State) : Out := .next (s.emit (.ocr 0xFF8000 true))

/-- CMD11 switches the signalling to 1.8 V (R473). -/
def execCmd11 (s : State) : Out := .next { s with sdm := { s.sdm with v18 := true } }

/-- CMD19 is answered in SDR50 and SDR104, the values 2 and 3 of the CCCR's bus speed field at 1.8 V (R473).
PRESUMED, assumption 21. -/
def execCmd19 (s : State) : Out :=
  let mode := s.sdm.f0.getD 0x13 0
  .next (if s.sdm.v18 && (mode == 4 || mode == 6) then s.emit .tuning else s)

def execStatusBitClear (r : StatusReg) (mask setNow : Word) (who : Writer) (s : State) : Out :=
  .next (s.statusClear r mask setNow who)

def execCccrWrite (addr : BitVec 17) (value : Byte) (s : State) : Out := .next (s.f0Write addr.toNat value.toNat)

end Sys2Proof.Machine
end

