-- ==== Sys2Proof/Machine/Dispatch.lean ====
section
/-! DEFINITION. The meaning of each command: one arm per constructor of `Instr`. -/

namespace Sys2Proof.Machine

def exec (i : Instr) (s : State) : Host.Outcome State Fault Refusal :=
  match i with
  | .getStatus tag params f2len => Sys2Proof.Machine.execGetStatus tag params f2len s
  | .readLog tag params f2len => Sys2Proof.Machine.execReadLog tag params f2len s
  | .readCounters tag params f2len => Sys2Proof.Machine.execReadCounters tag params f2len s
  | .attest tag params f2len => Sys2Proof.Machine.execAttest tag params f2len s
  | .loadPackage tag params f2len => Sys2Proof.Machine.execLoadPackage tag params f2len s
  | .programModel tag params f2len => Sys2Proof.Machine.execProgramModel tag params f2len s
  | .setGraft tag params f2len => Sys2Proof.Machine.execSetGraft tag params f2len s
  | .startLine tag params f2len => Sys2Proof.Machine.execStartLine tag params f2len s
  | .stopLine tag params f2len => Sys2Proof.Machine.execStopLine tag params f2len s
  | .fenceCore tag params f2len => Sys2Proof.Machine.execFenceCore tag params f2len s
  | .flashWrite tag params f2len => Sys2Proof.Machine.execFlashWrite tag params f2len s
  | .reboot tag params f2len => Sys2Proof.Machine.execReboot tag params f2len s
  | .replyDone => Sys2Proof.Machine.execReplyDone s
  | .rebootTimeout => Sys2Proof.Machine.execRebootTimeout s
  | .finalReply => Sys2Proof.Machine.execFinalReply s
  | .f2Abort => Sys2Proof.Machine.execF2Abort s
  | .f2Transfer op => Sys2Proof.Machine.execF2Transfer op s
  | .registerWrite w => Sys2Proof.Machine.execRegisterWrite w s
  | .readLatchCapture addr => Sys2Proof.Machine.execReadLatchCapture addr s
  | .loReadCapture r => Sys2Proof.Machine.execLoReadCapture r s
  | .cmd5 => Sys2Proof.Machine.execCmd5 s
  | .cmd11 => Sys2Proof.Machine.execCmd11 s
  | .cmd19 => Sys2Proof.Machine.execCmd19 s
  | .statusBitClear r mask setNow who => Sys2Proof.Machine.execStatusBitClear r mask setNow who s
  | .tilCtrlWrite c t value => Sys2Proof.Machine.execTilCtrlWrite c t value s
  | .testStart c value => Sys2Proof.Machine.execTestStart c value s
  | .testComplete c reps => Sys2Proof.Machine.execTestComplete c reps s
  | .commit c t => Sys2Proof.Machine.execCommit c t s
  | .shadowWrite c value => Sys2Proof.Machine.execShadowWrite c value s
  | .hwClr c => Sys2Proof.Machine.execHwClr c s
  | .lwClr => Sys2Proof.Machine.execLwClr s
  | .teardown x => Sys2Proof.Machine.execTeardown x s
  | .teardownDeferred x => Sys2Proof.Machine.execTeardownDeferred x s
  | .suspend x => Sys2Proof.Machine.execSuspend x s
  | .save x => Sys2Proof.Machine.execSave x s
  | .resume x => Sys2Proof.Machine.execResume x s
  | .safe => Sys2Proof.Machine.execSafe s
  | .release => Sys2Proof.Machine.execRelease s
  | .loadStrobe => Sys2Proof.Machine.execLoadStrobe s
  | .dacRun run => Sys2Proof.Machine.execDacRun run s
  | .softTrig x => Sys2Proof.Machine.execSoftTrig x s
  | .urgent x => Sys2Proof.Machine.execUrgent x s
  | .selfcal x => Sys2Proof.Machine.execSelfcal x s
  | .selfcalDone x zeros refs => Sys2Proof.Machine.execSelfcalDone x zeros refs s
  | .snap set value => Sys2Proof.Machine.execSnap set value s
  | .monCvCtrlWrite x value => Sys2Proof.Machine.execMonCvCtrlWrite x value s
  | .pwrLock => Sys2Proof.Machine.execPwrLock s
  | .thmLock => Sys2Proof.Machine.execThmLock s
  | .secLock => Sys2Proof.Machine.execSecLock s
  | .pop => Sys2Proof.Machine.execPop s
  | .domainWakeRequest d => Sys2Proof.Machine.execDomainWakeRequest d s
  | .domainGate d => Sys2Proof.Machine.execDomainGate d s
  | .domainWakeStart => Sys2Proof.Machine.execDomainWakeStart s
  | .domainAwake d => Sys2Proof.Machine.execDomainAwake d s
  | .domainWakeFail d => Sys2Proof.Machine.execDomainWakeFail d s
  | .dispEn => Sys2Proof.Machine.execDispEn s
  | .loadStepAck => Sys2Proof.Machine.execLoadStepAck s
  | .loadStepTimeout => Sys2Proof.Machine.execLoadStepTimeout s
  | .loadStepReqDeassert => Sys2Proof.Machine.execLoadStepReqDeassert s
  | .slewRecover => Sys2Proof.Machine.execSlewRecover s
  | .cvSlotWrite p value opening => Sys2Proof.Machine.execCvSlotWrite p value opening s
  | .portEnable p => Sys2Proof.Machine.execPortEnable p s
  | .portDisable p => Sys2Proof.Machine.execPortDisable p s
  | .eventSlotWrite e => Sys2Proof.Machine.execEventSlotWrite e s
  | .encoderCount e a b => Sys2Proof.Machine.execEncoderCount e a b s
  | .indexEdge e => Sys2Proof.Machine.execIndexEdge e s
  | .velocityUpdate e => Sys2Proof.Machine.execVelocityUpdate e s
  | .encoderStopped e => Sys2Proof.Machine.execEncoderStopped e s
  | .cutoffCrossing slot => Sys2Proof.Machine.execCutoffCrossing slot s
  | .scheduledOutput slot => Sys2Proof.Machine.execScheduledOutput slot s
  | .pulseWidthEnd slot => Sys2Proof.Machine.execPulseWidthEnd slot s
  | .widthCut slot => Sys2Proof.Machine.execWidthCut slot s
  | .sync e => Sys2Proof.Machine.execSync e s
  | .syncHeartbeat e => Sys2Proof.Machine.execSyncHeartbeat e s
  | .mainsEdge period => Sys2Proof.Machine.execMainsEdge period s
  | .mainsLost => Sys2Proof.Machine.execMainsLost s
  | .decide inst isFloat top => Sys2Proof.Machine.execDecide inst isFloat top s
  | .fireRateRelease ap => Sys2Proof.Machine.execFireRateRelease ap s
  | .blockLock p => Sys2Proof.Machine.execBlockLock p s
  | .trainTimeout p => Sys2Proof.Machine.execTrainTimeout p s
  | .lanesDeskewed p => Sys2Proof.Machine.execLanesDeskewed p s
  | .alignTimeout p => Sys2Proof.Machine.execAlignTimeout p s
  | .accession p f => Sys2Proof.Machine.execAccession p f s
  | .accessionRepeat p => Sys2Proof.Machine.execAccessionRepeat p s
  | .accessionAck p f => Sys2Proof.Machine.execAccessionAck p f s
  | .discoverTimeout p => Sys2Proof.Machine.execDiscoverTimeout p s
  | .refusedTimeout p => Sys2Proof.Machine.execRefusedTimeout p s
  | .blockLockLost p lanesUp => Sys2Proof.Machine.execBlockLockLost p lanesUp s
  | .keepTimeout p => Sys2Proof.Machine.execKeepTimeout p s
  | .detach p f => Sys2Proof.Machine.execDetach p f s
  | .keepalive p => Sys2Proof.Machine.execKeepalive p s
  | .line p f => Sys2Proof.Machine.execLine p f s
  | .headStatus p f => Sys2Proof.Machine.execHeadStatus p f s
  | .status p f => Sys2Proof.Machine.execStatus p f s
  | .folioOffer p f m => Sys2Proof.Machine.execFolioOffer p f m s
  | .folioAccept p f newCall => Sys2Proof.Machine.execFolioAccept p f newCall s
  | .folioRefuse p f code => Sys2Proof.Machine.execFolioRefuse p f code s
  | .folioData p f off data => Sys2Proof.Machine.execFolioData p f off data s
  | .folioDone p f count hash => Sys2Proof.Machine.execFolioDone p f count hash s
  | .folioAck p f newCall => Sys2Proof.Machine.execFolioAck p f newCall s
  | .xferTimeout entry => Sys2Proof.Machine.execXferTimeout entry s
  | .heartbeat p f => Sys2Proof.Machine.execHeartbeat p f s
  | .heartbeatPeriod => Sys2Proof.Machine.execHeartbeatPeriod s
  | .hbMiss member => Sys2Proof.Machine.execHbMiss member s
  | .fenceNotice p f => Sys2Proof.Machine.execFenceNotice p f s
  | .fmReturn => Sys2Proof.Machine.execFmReturn s
  | .instanceRelease c e => Sys2Proof.Machine.execInstanceRelease c e s
  | .instanceComplete inst op => Sys2Proof.Machine.execInstanceComplete inst op s
  | .gatherWait x stateOp copy => Sys2Proof.Machine.execGatherWait x stateOp copy s
  | .taskTimeout inst => Sys2Proof.Machine.execTaskTimeout inst s
  | .mvmCycleBoundary => Sys2Proof.Machine.execMvmCycleBoundary s
  | .sliceComplete c t cols pips => Sys2Proof.Machine.execSliceComplete c t cols pips s
  | .stepRise c t => Sys2Proof.Machine.execStepRise c t s
  | .pipWindowClose c t => Sys2Proof.Machine.execPipWindowClose c t s
  | .epochMinWait c t => Sys2Proof.Machine.execEpochMinWait c t s
  | .epochBoundary c t => Sys2Proof.Machine.execEpochBoundary c t s
  | .forcedGap c t => Sys2Proof.Machine.execForcedGap c t s
  | .feedForward c => Sys2Proof.Machine.execFeedForward c s
  | .calEpochMax c t => Sys2Proof.Machine.execCalEpochMax c t s
  | .offsetUpdate c t => Sys2Proof.Machine.execOffsetUpdate c t s
  | .referenceSweep c t => Sys2Proof.Machine.execReferenceSweep c t s
  | .gainSweep c t => Sys2Proof.Machine.execGainSweep c t s
  | .gapTaskComplete c t trims clamped => Sys2Proof.Machine.execGapTaskComplete c t trims clamped s
  | .meshPartialArrival dst hdr partials => Sys2Proof.Machine.execMeshPartialArrival dst hdr partials s
  | .stacksRequestComplete req r => Sys2Proof.Machine.execStacksRequestComplete req r s
  | .stacksRequestTimeout req => Sys2Proof.Machine.execStacksRequestTimeout req s
  | .patrolScrub page r => Sys2Proof.Machine.execPatrolScrub page r s
  | .folioReleaseDue call => Sys2Proof.Machine.execFolioReleaseDue call s
  | .folioForceClose call => Sys2Proof.Machine.execFolioForceClose call s
  | .pageReturn => Sys2Proof.Machine.execPageReturn s
  | .teardownComplete x => Sys2Proof.Machine.execTeardownComplete x s
  | .teardownTimeout x => Sys2Proof.Machine.execTeardownTimeout x s
  | .sampleCopyEnd c e => Sys2Proof.Machine.execSampleCopyEnd c e s
  | .sampleCopyTimeout c e => Sys2Proof.Machine.execSampleCopyTimeout c e s
  | .engineResetDone c e => Sys2Proof.Machine.execEngineResetDone c e s
  | .engineResetTimeout c e => Sys2Proof.Machine.execEngineResetTimeout c e s
  | .coreWake c => Sys2Proof.Machine.execCoreWake c s
  | .coreReturn c ok => Sys2Proof.Machine.execCoreReturn c ok s
  | .fenceComplete c => Sys2Proof.Machine.execFenceComplete c s
  | .fenceTimeout c => Sys2Proof.Machine.execFenceTimeout c s
  | .watchdogKick cc => Sys2Proof.Machine.execWatchdogKick cc s
  | .watchdogExpiry cc => Sys2Proof.Machine.execWatchdogExpiry cc s
  | .resetN => Sys2Proof.Machine.execResetN s
  | .warmReset => Sys2Proof.Machine.execWarmReset s
  | .faultReport source code reporter detail => Sys2Proof.Machine.execFaultReport source code reporter detail s
  | .recordClose => Sys2Proof.Machine.execRecordClose s
  | .logFlushTimeout => Sys2Proof.Machine.execLogFlushTimeout s
  | .temperatureConversion readings => Sys2Proof.Machine.execTemperatureConversion readings s
  | .throttleEscalate => Sys2Proof.Machine.execThrottleEscalate s
  | .throttleLower => Sys2Proof.Machine.execThrottleLower s
  | .hardTrip sensor reading => Sys2Proof.Machine.execHardTrip sensor reading s
  | .powerEstimate mean => Sys2Proof.Machine.execPowerEstimate mean s
  | .powerLimitEnd => Sys2Proof.Machine.execPowerLimitEnd s
  | .orderlyStopDrain => Sys2Proof.Machine.execOrderlyStopDrain s
  | .stopComplete => Sys2Proof.Machine.execStopComplete s
  | .idleStandby => Sys2Proof.Machine.execIdleStandby s
  | .railWaitTimeout => Sys2Proof.Machine.execRailWaitTimeout s
  | .monTrigger pin rising => Sys2Proof.Machine.execMonTrigger pin rising s
  | .conversionResult x raw overload => Sys2Proof.Machine.execConversionResult x raw overload s
  | .sequenceDelay x => Sys2Proof.Machine.execSequenceDelay x s
  | .crossCheck => Sys2Proof.Machine.execCrossCheck s
  | .tileCalibrated c t r => Sys2Proof.Machine.execTileCalibrated c t r s
  | .calibrationComplete => Sys2Proof.Machine.execCalibrationComplete s
  | .archiveSlotLoad slot fieldsOk hashOk imageHashOk => Sys2Proof.Machine.execArchiveSlotLoad slot fieldsOk hashOk imageHashOk s
  | .cacheWrite => Sys2Proof.Machine.execCacheWrite s
  | .refreshStart => Sys2Proof.Machine.execRefreshStart s
  | .pumpAdmission => Sys2Proof.Machine.execPumpAdmission s
  | .batchComplete c t failed => Sys2Proof.Machine.execBatchComplete c t failed s
  | .settleAndReverify c t => Sys2Proof.Machine.execSettleAndReverify c t s
  | .mappingSwitch c t => Sys2Proof.Machine.execMappingSwitch c t s
  | .pageWriteStart => Sys2Proof.Machine.execPageWriteStart s
  | .pageWriteEnd ok => Sys2Proof.Machine.execPageWriteEnd ok s
  | .counterIncrement c => Sys2Proof.Machine.execCounterIncrement c s
  | .poweredHour => Sys2Proof.Machine.execPoweredHour s
  | .marginRead r => Sys2Proof.Machine.execMarginRead r s
  | .porstN vref => Sys2Proof.Machine.execPorstN vref s
  | .hbmTrainingComplete failed => Sys2Proof.Machine.execHbmTrainingComplete failed s
  | .vddAonLoss => Sys2Proof.Machine.execVddAonLoss s
  | .powerFailure => Sys2Proof.Machine.execPowerFailure s
  | .tapReset => Sys2Proof.Machine.execTapReset s
  | .extest => Sys2Proof.Machine.execExtest s
  | .idcode => Sys2Proof.Machine.execIdcode s
  | .samplePreload => Sys2Proof.Machine.execSamplePreload s
  | .dbgChallenge => Sys2Proof.Machine.execDbgChallenge s
  | .dbgCert cert => Sys2Proof.Machine.execDbgCert cert s
  | .dbgAccess op => Sys2Proof.Machine.execDbgAccess op s
  | .bypass => Sys2Proof.Machine.execBypass s
  | .powerOn => Sys2Proof.Machine.execPowerOn s
  | .loadStepAckDeassert => Sys2Proof.Machine.execLoadStepAckDeassert s
  | .cccrWrite addr value => Sys2Proof.Machine.execCccrWrite addr value s
  | .f2DataReady => Sys2Proof.Machine.execF2DataReady s
  | .keepaliveReceived p f => Sys2Proof.Machine.execKeepaliveReceived p f s

end Sys2Proof.Machine
end

