-- ==== Sys2Proof/Machine/Tick.lean ====
section
/-! DEFINITION. A microsecond of time with no command waiting: the free-running counter of FLT_TIME and the DAC samples. -/

namespace Sys2Proof.Machine

/-- DAC samples up to time `t` in µs: 6.25 MS/s (R321). DESIGN CHOICE, assumption 94. -/
def dacSamples (t : Nat) : Nat := 25 * t / 4

/-- One DAC sample: every running channel's code is checked for saturation and its accumulator advances (R321, R322). -/
def State.dacTick (s : State) : State :=
  (List.range 8).foldl (fun s ch => if s.dacRuns ch then (s.dacSample ch).dacStep ch else s) s

/-- `n` DAC samples. -/
def State.dacTicks : Nat → State → State
  | 0, s => s
  | n + 1, s => State.dacTicks n s.dacTick

/-- Since when every lane has been stopped, in ACTIVE (R383). -/
def State.idleTick (s : State) : State :=
  let stopped := decide (s.getF R.pwrState F.pwrStateState = 0) && !s.laneStarted
  { s with pwr := { s.pwr with idleAt := sinceIf stopped s.pwr.idleAt s.timeUs } }

/-- A microsecond passes (R322, R383, R424). -/
def State.tick (s : State) : State :=
  let s := s.idleTick
  State.dacTicks (dacSamples (s.timeUs + 1) - dacSamples s.timeUs) { s with timeUs := s.timeUs + 1 }

end Sys2Proof.Machine
end

