-- ==== Sys2Proof/Safety.lean ====
section
/-! DEFINITION. What a safe run of the block is: the register table in its canonical form, the safety limits behind their
locks (R14), and the integrator key behind its fuses (R437). -/

namespace Sys2Proof.Machine

/-- The register table is in its one canonical form: addresses rise, and no entry equals the register's reset value. -/
def State.canonical (s : State) : Bool := Tab.canon (resetValue s.part) s.regs

/-- A safety limit that a lock protects: its register and bits, and the register and bit of its lock (R14). -/
structure LimitRow where
  addr : Nat
  bits : Word
  lock : Nat
  lockBit : Word
  deriving DecidableEq, Repr

/-- The RW-L fields of the map with their locks, and the lock bits themselves (R14, R317, R396). -/
def limitRows : List LimitRow :=
  [⟨R.pwrLock, 1, R.pwrLock, 1⟩,
   ⟨R.pwrInrushBudget, 0x7FF, R.pwrLock, 1⟩,
   ⟨R.pwrSlew, 0x7FF, R.pwrLock, 1⟩,
   ⟨R.pwrLoadstep, 0x03FF3F01, R.pwrLock, 1⟩,
   ⟨R.pwrLimit, 0x7FF, R.pwrLock, 1⟩,
   ⟨R.pwrPumpLim, 0x3F1F01FF, R.pwrLock, 1⟩,
   ⟨R.thmLock, 1, R.thmLock, 1⟩,
   ⟨R.thmThr, 0x7F, R.thmLock, 1⟩,
   ⟨R.secLock, 1, R.secLock, 1⟩,
   ⟨R.actLimits, 0x0FFFFFFF, R.secLock, 1⟩,
   ⟨R.actGpioMaxw, 0xFFFF, R.secLock, 1⟩]

/-- The lock of the row is set in `s`. -/
def LimitRow.isLocked (l : LimitRow) (s : State) : Prop := s.reg l.lock &&& l.lockBit = l.lockBit

/-- The limit of the row reads the same in both states. -/
def LimitRow.same (l : LimitRow) (s t : State) : Prop := t.reg l.addr &&& l.bits = s.reg l.addr &&& l.bits

/-- Every limit whose lock is set in `s` reads the same in `t`. -/
def State.limitsHold (s t : State) : Prop := ∀ l ∈ limitRows, l.isLocked s → l.same s t

/-- The burned integrator key of `s` stands in `t` (R437). -/
def State.keyHolds (s t : State) : Prop := s.sys.enrolled = true → t.sys.enrolled = true ∧ t.sys.keyFuse = s.sys.keyFuse

/-- The always-on domain has just been reset: the time counter, which only that reset clears, reads zero (R424, R426). -/
def State.justReset (s : State) : Prop := s.timeUs = 0

/-! ### The mailbox (R479, R480) -/

/-- The host may send a command: function 1 is ready and no reply is in the buffer. -/
def State.mailboxFree (s : State) : Prop := s.fnReady 1 = true ∧ s.mbState ≠ 2

/-- The device admits every command: ACTIVE, no boot, no device recovery reset, no long command, no F2 stream (R384, R422). -/
def State.deviceOpen (s : State) : Prop :=
  s.mailboxFree ∧ s.pstate = 0 ∧ s.sys.boot = none ∧ s.flt.drrAt = none ∧ s.sdm.long = none ∧ s.f2Busy = false ∧
    s.superseded = false

/-- The reply buffer holds `bs`, and the host has been told. -/
def State.hasReply (s : State) (bs : Bytes) : Prop :=
  Tab.getRun 0 s.sdm.repBuf 0 bs.length = bs ∧ s.mbState = 2 ∧ s.isSet R.sdmHostStatus F.sdmHostStatusReply = true

/-- The registers that a reply changes. -/
def replyRegs : List Nat := [R.sdmMbState, R.sdmMbCtrl, R.sdmHostStatus, R.sdmReplyEvt]

/-- `s` with a command in its buffer. -/
def State.buffered (s : State) (op : Nat) (tag : BitVec 16) (params : Bytes) (f2 : Nat) : State :=
  { s with sdm := { s.sdm with cmdBuf := s.sdm.cmdBuf.setRun 0 0 (leBytes 2 op ++ leBytes 2 tag.toNat
      ++ leBytes 2 params.length ++ leBytes 2 0 ++ leBytes 4 f2 ++ leBytes 4 0 ++ params) } }

/-! ### Frames -/

/-- Every register but those of `l` reads as before. -/
def State.regsBut (s t : State) (l : List Nat) : Prop := ∀ a, a ∉ l → t.reg a = s.reg a

/-- Nothing but registers differs. -/
def State.regsOnly (s t : State) : Prop := t = { s with regs := t.regs }

end Sys2Proof.Machine
end

