-- ==== Sys2Proof/WellFormed.lean ====
section
/-! DEFINITION. Well-formed commands: the bounds that the spec sets on an operand where its type does not already set them.
The index types of Syntax.lean name existing units only, so most rows have nothing left to check. -/

namespace Sys2Proof

/-- A mailbox command's parameter bytes fit the 2 B length field and its F2 length the 4 B one (R479). -/
def wfMailbox (params : Bytes) (f2len : Nat) : Bool := decide (params.length < 2 ^ 16) && decide (f2len < 2 ^ 32)

/-- A frame: the payload has the header's length, the peer extension is there when its flag says so, and a check value of
at most 32 bits comes only with the last flag (R337, R340). -/
def wfFrame (f : Frame) : Bool :=
  decide (f.payload.length = f.hdr.len.toNat) && (f.ext.isSome == bit f.hdr.flags.toNat 2)
    && (match f.cv with
      | some v => decide (v < 2 ^ 32) && bit f.hdr.flags.toNat 1
      | none => true)

/-- A trim value fits its width: 8 bits for a column or a reference, 10 for the read voltage, and only columns have a gain
(R112). -/
def wfTrim (t : TrimVal) : Bool :=
  decide (t.value < (if t.index.val = 528 then 1024 else 256)) && (!t.gain || decide (t.index.val < 528))

/-- A code of a weight column: −255 to 255 (R53). -/
def wfCode (i : Int) : Bool := decide (-255 ≤ i) && decide (i ≤ 255)

/-- The operands of what an engine computed have the lengths that their rules give. -/
def wfInstOp : InstOp → Bool
  | .plain => true
  | .ranging x _ _ => decide (0 < x.length)
  | .combine es => decide (0 < es.length)
  | .epilogue _ _ cols _ => decide (0 < cols.length) && decide (cols.length ≤ 512)
  | .rowWise op row _ =>
    decide (0 < row.length) && decide (row.length ≤ 65536)
      && (match op with
        | .softmax => true
        | .layerNorm g b _ => decide (g.length = row.length) && decide (b.length = row.length)
        | .rmsNorm g _ => decide (g.length = row.length))
  | .topK fmt row k _ => decide (0 < row.length) && decide (row.length ≤ 65536) && decide (1 ≤ k) && decide (k ≤ 16)
      && decide (fmt ≠ .mx4)
  | .rotate b x _ => (b == 64 || b == 256 || b == 1024) && decide (x.length % b = 0) && decide (0 < x.length)
  | .append heads => heads.all (fun h => decide (h.1 < 16) && decide (h.2.1.length = 64) && decide (h.2.2.length = 64))
  | .attention rows => rows.all (fun r => decide (r.q.length = 64))
  | .tracking _ => true
  | .handOver _ _ => true

/-- The bounds on the operands of a command. -/
def wellFormed : Instr → Bool
  | .getStatus _ params f2 => wfMailbox params f2
  | .readLog _ params f2 => wfMailbox params f2
  | .readCounters _ params f2 => wfMailbox params f2
  | .attest _ params f2 => wfMailbox params f2
  | .loadPackage _ params f2 => wfMailbox params f2
  | .programModel _ params f2 => wfMailbox params f2
  | .setGraft _ params f2 => wfMailbox params f2
  | .startLine _ params f2 => wfMailbox params f2
  | .stopLine _ params f2 => wfMailbox params f2
  | .fenceCore _ params f2 => wfMailbox params f2
  | .flashWrite _ params f2 => wfMailbox params f2
  | .reboot _ params f2 => wfMailbox params f2
  /- A transaction has at least one byte (R476); a firmware write is one word at its own address (R12). -/
  | .registerWrite (.host _ _ data) => decide (0 < data.length)
  | .registerWrite (.firmware addr _) => decide (addr.toNat % 4 = 0)
  | .f2Transfer (.write data) => decide (0 < data.length)
  | .f2Transfer (.read n) => decide (0 < n)
  /- Nine results of each channel (R371). -/
  | .selfcalDone _ zeros refs => decide (zeros.length = 9) && decide (refs.length = 9)
  /- LCK_MAINS.period is 24 bits (R328). -/
  | .mainsEdge period => decide (period < 2 ^ 24)
  /- Top-k gives 1 to 16 entries (R187). -/
  | .decide _ _ top => decide (1 ≤ top.length) && decide (top.length ≤ 16)
  | .accession _ f => wfFrame f
  | .accessionAck _ f => wfFrame f
  | .detach _ f => wfFrame f
  | .line _ f => wfFrame f
  | .headStatus _ f => wfFrame f
  | .status _ f => wfFrame f
  /- The layout hash is 32 B (R237). -/
  | .folioOffer _ f m => wfFrame f && decide (m.layoutHash.length = 32)
  | .folioAccept _ f _ => wfFrame f
  | .folioRefuse _ f _ => wfFrame f
  /- At most 2 KiB travel in a FOLIO_DATA (R263). -/
  | .folioData _ f _ data => wfFrame f && decide (data.length ≤ 2048)
  | .folioDone _ f _ hash => wfFrame f && decide (hash.length = 32)
  | .folioAck _ f _ => wfFrame f
  | .heartbeat _ f => wfFrame f
  | .fenceNotice _ f => wfFrame f
  | .keepaliveReceived _ f => wfFrame f
  | .instanceComplete _ op => wfInstOp op
  | .sliceComplete _ _ cols _ => cols.all (fun c => wfCode c.code)
  | .gapTaskComplete _ _ trims _ => trims.all wfTrim
  | .tileCalibrated _ _ r => r.trims.all wfTrim
  /- An entry holds at most 512 partials (R169). -/
  | .meshPartialArrival _ _ partials => decide (partials.length ≤ 512)
  /- One reading per sensor (R118). -/
  | .temperatureConversion readings => decide (readings.length = 68)
  | .replyDone => true
  | .rebootTimeout => true
  | .finalReply => true
  | .f2Abort => true
  | .readLatchCapture _ => true
  | .loReadCapture _ => true
  | .cmd5 => true
  | .cmd11 => true
  | .cmd19 => true
  | .statusBitClear _ _ _ _ => true
  | .tilCtrlWrite _ _ _ => true
  | .testStart _ _ => true
  | .testComplete _ _ => true
  | .commit _ _ => true
  | .shadowWrite _ _ => true
  | .hwClr _ => true
  | .lwClr => true
  | .teardown _ => true
  | .teardownDeferred _ => true
  | .suspend _ => true
  | .save _ => true
  | .resume _ => true
  | .safe => true
  | .release => true
  | .loadStrobe => true
  | .dacRun _ => true
  | .softTrig _ => true
  | .urgent _ => true
  | .selfcal _ => true
  | .snap _ _ => true
  | .monCvCtrlWrite _ _ => true
  | .pwrLock => true
  | .thmLock => true
  | .secLock => true
  | .pop => true
  | .domainWakeRequest _ => true
  | .domainGate _ => true
  | .domainWakeStart => true
  | .domainAwake _ => true
  | .domainWakeFail _ => true
  | .dispEn => true
  | .loadStepAck => true
  | .loadStepTimeout => true
  | .loadStepReqDeassert => true
  | .slewRecover => true
  | .cvSlotWrite _ _ _ => true
  | .portEnable _ => true
  | .portDisable _ => true
  | .eventSlotWrite _ => true
  | .encoderCount _ _ _ => true
  | .indexEdge _ => true
  | .velocityUpdate _ => true
  | .encoderStopped _ => true
  | .cutoffCrossing _ => true
  | .scheduledOutput _ => true
  | .pulseWidthEnd _ => true
  | .widthCut _ => true
  | .sync _ => true
  | .syncHeartbeat _ => true
  | .mainsLost => true
  | .fireRateRelease _ => true
  | .blockLock _ => true
  | .trainTimeout _ => true
  | .lanesDeskewed _ => true
  | .alignTimeout _ => true
  | .accessionRepeat _ => true
  | .discoverTimeout _ => true
  | .refusedTimeout _ => true
  | .blockLockLost _ _ => true
  | .keepTimeout _ => true
  | .keepalive _ => true
  | .xferTimeout _ => true
  | .heartbeatPeriod => true
  | .hbMiss _ => true
  | .fmReturn => true
  | .instanceRelease _ _ => true
  | .gatherWait _ _ _ => true
  | .taskTimeout _ => true
  | .mvmCycleBoundary => true
  | .stepRise _ _ => true
  | .pipWindowClose _ _ => true
  | .epochMinWait _ _ => true
  | .epochBoundary _ _ => true
  | .forcedGap _ _ => true
  | .feedForward _ => true
  | .calEpochMax _ _ => true
  | .offsetUpdate _ _ => true
  | .referenceSweep _ _ => true
  | .gainSweep _ _ => true
  | .stacksRequestComplete _ _ => true
  | .stacksRequestTimeout _ => true
  | .patrolScrub _ _ => true
  | .folioReleaseDue _ => true
  | .folioForceClose _ => true
  | .pageReturn => true
  | .teardownComplete _ => true
  | .teardownTimeout _ => true
  | .sampleCopyEnd _ _ => true
  | .sampleCopyTimeout _ _ => true
  | .engineResetDone _ _ => true
  | .engineResetTimeout _ _ => true
  | .coreWake _ => true
  | .coreReturn _ _ => true
  | .fenceComplete _ => true
  | .fenceTimeout _ => true
  | .watchdogKick _ => true
  | .watchdogExpiry _ => true
  | .resetN => true
  | .warmReset => true
  | .faultReport _ _ _ _ => true
  | .recordClose => true
  | .logFlushTimeout => true
  | .throttleEscalate => true
  | .throttleLower => true
  | .hardTrip _ _ => true
  | .powerEstimate _ => true
  | .powerLimitEnd => true
  | .orderlyStopDrain => true
  | .stopComplete => true
  | .idleStandby => true
  | .railWaitTimeout => true
  | .monTrigger _ _ => true
  | .conversionResult _ _ _ => true
  | .sequenceDelay _ => true
  | .crossCheck => true
  | .calibrationComplete => true
  | .archiveSlotLoad _ _ _ _ => true
  | .cacheWrite => true
  | .refreshStart => true
  | .pumpAdmission => true
  | .batchComplete _ _ _ => true
  | .settleAndReverify _ _ => true
  | .mappingSwitch _ _ => true
  | .pageWriteStart => true
  | .pageWriteEnd _ => true
  | .counterIncrement _ => true
  | .poweredHour => true
  | .marginRead _ => true
  | .porstN _ => true
  | .hbmTrainingComplete _ => true
  | .vddAonLoss => true
  | .powerFailure => true
  | .tapReset => true
  | .extest => true
  | .idcode => true
  | .samplePreload => true
  | .dbgChallenge => true
  | .dbgCert _ => true
  | .dbgAccess _ => true
  | .bypass => true
  | .powerOn => true
  | .loadStepAckDeassert => true
  | .cccrWrite _ _ => true
  | .f2DataReady => true

end Sys2Proof
end

