-- ==== Sys2Proof/Certificates/Slice0/Obligations.lean ====
section
/-! DEFINITION. The statements for the provers, in the order of OBLIGATIONS.json: the step, reset and the invariants first, then
every family of commands, each with the commands' completion, their results and their frames. -/

open Sys2Proof Sys2Proof.Machine

/-! ### The step, reset, and what every step keeps -/

/-- A step with a command at the front of the queue is that command's `exec` on the state with the queue's rest. -/
def Obligations.StepRunsFrontCommand : Prop :=
  ∀ (c : Instr) (s : State), step { s with pending := c :: s.pending } = exec c s

/-- A step on an empty queue is a microsecond of time: the FLT_TIME counter advances by one, nothing waits afterwards, and the
configuration, the ports, the Stacks and the power domains stay as they are (the model's own choice, assumption 1). -/
def Obligations.EmptyQueueIsAMicrosecond : Prop :=
  ∀ s : State, s.pending = [] → ∃ t, step s = .next t ∧ t.pending = [] ∧ t.timeUs = s.timeUs + 1 ∧ t.part = s.part ∧
    t.cfg = s.cfg ∧ t.prt = s.prt ∧ t.stk = s.stk ∧ t.dsp = s.dsp ∧ t.mc = s.mc ∧ t.sys = s.sys ∧
    (∀ d, t.domOn d = s.domOn d) ∧ s.limitsHold t

/-- No command adds to or takes from the queue beyond itself, changes the ordering code or takes time; it may reset the time.
Rests in part on the model's own choices: assumptions 4, 29. -/
def Obligations.CommandsKeepQueueAndTime : Prop :=
  ∀ (c : Instr) (rest : List Instr) (s t : State), s.pending = c :: rest → step s = .next t →
    t.pending = rest ∧ t.part = s.part ∧ (t.timeUs = s.timeUs ∨ t.justReset)

/-- Every register reads its reset value right after reset, and nothing waits (R16, R396). -/
def Obligations.ResetValues : Prop :=
  State.reset.pending = [] ∧ (∀ a, State.reset.reg a = resetValue State.reset.part a) ∧
  State.reset.regNat R.pwrLimit = 75 ∧ State.reset.regNat R.thmThr = 100 ∧
  State.reset.isSet R.actCtrl F.actCtrlSafeState = true ∧ State.reset.isSet R.pwrLock F.pwrLockLock = false

/-- The register table is canonical right after reset. -/
def Obligations.CanonicalAtReset : Prop := State.reset.canonical = true

/-- Every step, a command's or a microsecond's, keeps the register table canonical. -/
def Obligations.StepKeepsCanonical : Prop :=
  ∀ s t : State, s.canonical = true → step s = .next t → t.canonical = true

/-- No step changes a safety limit whose lock is set, nor clears the lock, but a reset of the always-on domain (R14). -/
def Obligations.LockedLimitsHold : Prop :=
  ∀ s t : State, step s = .next t → t.justReset ∨ s.limitsHold t

/-- No step changes a burned integrator key (R437). -/
def Obligations.BurnedKeyHolds : Prop := ∀ s t : State, step s = .next t → s.keyHolds t

/-- No command ends in a fault or a refusal. Rests in part on the model's own choices: assumptions 3, 95. -/
def Obligations.EveryCommandCompletes : Prop := ∀ (c : Instr) (s : State), ∃ t, exec c s = .next t

/-! ### Registers (R12 to R20), the window (R475 to R477) and SDIO (R473, R474, R514) -/

/-- Each lock row sets its lock bit and SEC_LOCK's copy; nothing else changes (R14, R453). -/
def Obligations.LockCommands : Prop :=
  ∀ s : State,
    (∃ t, exec .pwrLock s = .next t ∧ t.isSet R.pwrLock F.pwrLockLock = true ∧ t.isSet R.secLock F.secLockPwr = true ∧
      s.regsBut t [R.pwrLock, R.secLock] ∧ s.regsOnly t) ∧
    (∃ t, exec .thmLock s = .next t ∧ t.isSet R.thmLock F.thmLockLock = true ∧ t.isSet R.secLock F.secLockThm = true ∧
      s.regsBut t [R.thmLock, R.secLock] ∧ s.regsOnly t) ∧
    (∃ t, exec .secLock s = .next t ∧ t.isSet R.secLock F.secLockAct = true ∧ s.regsBut t [R.secLock] ∧ s.regsOnly t)

/-- A firmware write to a register without an action of its own stores its RW bits, its RW-L bits only while unlocked, and
clears the W1C bits written as 1 (R13, R14); a write to a hole or to a domain that is off stores nothing (R15). The registers
named are a limit, a plain RW register of an always-on block and one of a switched block. Rests in part on the model's own
choices: assumptions 16, 17. -/
def Obligations.FirmwareWriteStores : Prop :=
  ∀ (s : State) (v : Word),
    (∃ t, exec (.registerWrite (.firmware (BitVec.ofNat 24 R.actLimits) v)) s = .next t ∧ s.regsOnly t ∧ s.regsBut t [R.actLimits] ∧
      t.reg R.actLimits = (if s.isSet R.secLock F.secLockAct then s.reg R.actLimits
        else (s.reg R.actLimits &&& ~~~ 0x0FFFFFFF) ||| (v &&& 0x0FFFFFFF))) ∧
    (∃ t, exec (.registerWrite (.firmware (BitVec.ofNat 24 R.lckIntEn) v)) s = .next t ∧ s.regsOnly t ∧ s.regsBut t [R.lckIntEn] ∧
      t.reg R.lckIntEn = (s.reg R.lckIntEn &&& ~~~ 0xFF) ||| (v &&& 0xFF)) ∧
    (∃ t, exec (.registerWrite (.firmware (BitVec.ofNat 24 (R.tilIntEn 0 0)) v)) s = .next t ∧ s.regsOnly t ∧
      s.regsBut t [R.tilIntEn 0 0] ∧
      t.reg (R.tilIntEn 0 0) = (if s.domOn 0 then (s.reg (R.tilIntEn 0 0) &&& ~~~ 0x3F) ||| (v &&& 0x3F)
        else s.reg (R.tilIntEn 0 0))) ∧
    exec (.registerWrite (.firmware 0x003000 v)) s = .next s

/-- A host write through the window (R475 to R477), one whole word at incrementing addresses with no partial word pending:
SDM_PAGE takes its byte; any other register of the map that the table of R477 does not list is left as it was, and the
discard is recorded with its address and reason, 2 for a register with a locked field. Nothing happens while function 1 is
off. Rests in part on the model's own choice: assumption 16. -/
def Obligations.HostWindowWrites : Prop :=
  ∀ (s : State) (b0 b1 b2 b3 : Byte), s.fnReady 1 = true → s.sdm.wbuf = none →
    (∃ t, exec (.registerWrite (.host (BitVec.ofNat 17 R.sdmPage) false [b0, b1, b2, b3])) s = .next t ∧
      t.getF R.sdmPage F.sdmPagePage = b0.toNat ∧ s.regsBut t [R.sdmPage] ∧ s.regsOnly t) ∧
    (s.getF R.sdmPage F.sdmPagePage = 5 →
      ∃ t, exec (.registerWrite (.host 0x10004 false [b0, b1, b2, b3])) s = .next t ∧
        t.getF R.sdmDiscardAddr F.sdmDiscardAddrAddr = R.actLimits ∧ t.getF R.sdmDiscardAddr F.sdmDiscardAddrReason = 2 ∧
        t.isSet R.sdmHostStatus F.sdmHostStatusWrDiscard = true ∧ t.reg R.sdmWdisEvt = satInc (s.reg R.sdmWdisEvt) 1 ∧
        s.regsBut t [R.sdmDiscardAddr, R.sdmHostStatus, R.sdmWdisEvt] ∧ s.regsOnly t)

/-- A read of byte 0 of a word, or of another byte of a word that is not in the latch, captures the whole register at the
window's management address; a read of another byte of the latched word changes nothing (R475, R476). A read of a _LO
register captures its _HI value, and the _HI register then reads the capture (R328, R424). Rests in part on the model's own
choice: assumption 18. -/
def Obligations.ReadCaptures : Prop :=
  ∀ s : State,
    (∀ a : BitVec 17, s.fnReady 1 = true →
    ∃ t, exec (.readLatchCapture a) s = .next t ∧
      (let m := s.f1Addr a.toNat
       if m % 4 ≠ 0 ∧ s.latched (m - m % 4) = true then t = s
       else t.sdm.latch = some (m - m % 4, s.readReg (m - m % 4)) ∧
         t = { s with sdm := t.sdm, lck := t.lck, flt := t.flt } ∧ t.sdm = { s.sdm with latch := t.sdm.latch })) ∧
    (∃ t, exec (.loReadCapture .pos0) s = .next t ∧ (∀ p, (t.setEnc 0 { t.enc 0 with pos := p }).derived R.lckPos0Hi
        = some ((s.enc 0).pos.toNat / 2 ^ 32)) ∧ (t.enc 0).pos = (s.enc 0).pos ∧ t.enc 1 = s.enc 1 ∧ t = { s with lck := t.lck }) ∧
    (∃ t, exec (.loReadCapture .pos1) s = .next t ∧ (∀ p, (t.setEnc 1 { t.enc 1 with pos := p }).derived R.lckPos1Hi
        = some ((s.enc 1).pos.toNat / 2 ^ 32)) ∧ (t.enc 1).pos = (s.enc 1).pos ∧ t.enc 0 = s.enc 0 ∧ t = { s with lck := t.lck }) ∧
    (∃ t, exec (.loReadCapture .fltTime) s = .next t ∧ (∀ n, ({ t with timeUs := n } : State).derived R.fltTimeHi
        = some (s.timeUs / 2 ^ 32 % 2 ^ 32)) ∧ t = { s with flt := t.flt } ∧ t.flt = { s.flt with hiCap := t.flt.hiCap })

/-- A clear of a status register by firmware, or by the host of a register that it may clear: the written bits clear, the bits
that the hardware sets in the same cycle stay set, each of those advances its event counter by one, and an interrupt enabled for
one of them stays asserted (R18). -/
def Obligations.SetWinsOverClear : Prop :=
  ∀ (s : State) (r : StatusReg) (mask setNow : Word) (who : Writer), s.regOn (statusAddr r) = true →
    (who = .firmware ∨ (who = .host ∧ s.fnReady 1 = true ∧ hostClears r = true)) →
    ∃ t, exec (.statusBitClear r mask setNow who) s = .next t ∧ s.regsOnly t ∧
      t.reg (statusAddr r) = (s.reg (statusAddr r) &&& ~~~ (mask &&& statusMask r)) ||| (setNow &&& statusMask r) ∧
      (∀ i, i < (statusBits r).2 → t.reg (statusEvt r + 4 * i) =
        if bit setNow.toNat ((statusBits r).1 + i) then satInc (s.reg (statusEvt r + 4 * i)) 1 else s.reg (statusEvt r + 4 * i)) ∧
      (∀ e, statusIntEn r = some e → setNow &&& statusMask r &&& s.reg e ≠ 0 → t.intOf r = true) ∧
      (∀ a, a ≠ statusAddr r → (∀ i, i < (statusBits r).2 → a ≠ statusEvt r + 4 * i) → t.reg a = s.reg a)

/-- The bus commands of the card: CMD5 and CMD19 are answered and change no register, CMD11 switches the signalling to 1.8 V,
and a CMD52 write sets the bytes of the CCCR and FBR that R514 names, here the function enables and the block size of F1.
Rests in part on the model's own choices: assumptions 19, 20, 21, 22. -/
def Obligations.CardCommands : Prop :=
  ∀ (s : State) (v : Byte),
    (∃ t, exec .cmd5 s = .next t ∧ t = { s with wire := t.wire } ∧ t.wire = .ocr 0xFF8000 true :: s.wire) ∧
    (s.sdm.v18 = true → s.sdm.f0.getD 0x13 0 = 6 →
      ∃ t, exec .cmd19 s = .next t ∧ t = { s with wire := t.wire } ∧ t.wire = .tuning :: s.wire) ∧
    (∃ t, exec .cmd11 s = .next t ∧ t = { s with sdm := t.sdm } ∧ t.sdm = { s.sdm with v18 := true }) ∧
    (∃ t, exec (.cccrWrite 0x02 v) s = .next t ∧ t = { s with sdm := t.sdm } ∧ t.sdm = { s.sdm with f0 := t.sdm.f0 } ∧
      t.sdm.f0.getD 0x02 0 = v &&& 0x06 ∧ ∀ a, a ≠ 0x02 → t.sdm.f0.getD a 0 = s.sdm.f0.getD a 0) ∧
    (∃ t, exec (.cccrWrite 0x110 v) s = .next t ∧ t = { s with sdm := t.sdm } ∧ t.sdm = { s.sdm with f0 := t.sdm.f0 } ∧
      t.sdm.f0.getD 0x110 0 = v ∧ ∀ a, a ≠ 0x110 → t.sdm.f0.getD a 0 = s.sdm.f0.getD a 0)

/-! ### The debug port (R449 to R451) -/

/-- The TAP instructions that need no unlock are selected; IDCODE shifts out 0x1164_0B47. A challenge is read, an accepted
certificate unlocks its scope, and DBG_ACCESS acts within the scope; a refused certificate unlocks nothing; every attempt
consumes the challenge (R449 to R451). Rests in part on the model's own choices: assumptions 25, 26, 27. -/
def Obligations.DebugPort : Prop :=
  ∀ s : State,
    (∃ t, exec .tapReset s = .next t ∧ t.sys.tapIr = 1 ∧ t = { s with sys := { s.sys with tapIr := 1 } }) ∧
    (∃ t, exec .samplePreload s = .next t ∧ t = { s with sys := { s.sys with tapIr := 2 } }) ∧
    (∃ t, exec .bypass s = .next t ∧ t = { s with sys := { s.sys with tapIr := 0xFF } }) ∧
    (∃ t, exec .idcode s = .next t ∧ t.sys.tapIr = 1 ∧ t.wire = .tap [0x47, 0x0B, 0x64, 0x11] :: s.wire ∧
      t = { s with sys := { s.sys with tapIr := 1 }, wire := t.wire }) ∧
    (s.isSet R.actCtrl F.actCtrlSafeState = true → (∀ x, x < 64 → s.ctxState x ≠ 2) →
      exec .extest s = .next { s with sys := { s.sys with tapIr := 0 } }) ∧
    (s.isSet R.actCtrl F.actCtrlSafeState = false → bit s.sys.scope 3 = false →
      exec .extest s = .next { s with sys := { s.sys with tapIr := 0xFF } }) ∧
    (s.domOn 61 = true → s.domOn 67 = true →
    (∃ t c, exec .dbgChallenge s = .next t ∧ t.sys.challenge = some c ∧ t.wire = .tap c :: s.wire ∧ t.fresh = s.fresh + 1 ∧
      t.regs = s.regs ∧ t.sys.scope = s.sys.scope) ∧
    (∀ cert, ∃ t, exec (.dbgCert cert) s = .next t ∧ t.sys.challenge = none ∧ t.sys.keyFuse = s.sys.keyFuse ∧
      t.sys.scope = (if s.certOk cert then Nat.lor s.sys.scope (certScope cert) else s.sys.scope)) ∧
    (bit s.sys.scope 0 = true → ∀ a, ∃ t, exec (.dbgAccess (.read a)) s = .next t ∧
      t.wire = .tap (leBytes 4 (s.readReg a.toNat).toNat) :: s.wire ∧ t.regs = s.regs) ∧
    (bit s.sys.scope 2 = true → ∀ c : Fin 4, ∃ t, exec (.dbgAccess (.halt c)) s = .next t ∧ c.val ∈ t.sys.halted ∧ t.regs = s.regs) ∧
    (bit s.sys.scope 1 = false → ∀ a v, ∃ t, exec (.dbgAccess (.write a v)) s = .next t ∧ t.regs = s.regs))

/-! ### The mailbox and F2 (R384, R448, R479 to R483) -/

/-- GET_STATUS answers with the status block or a partner's record in any condition of the device; READ_COUNTERS and
READ_LOG, in a device that admits them, answer with the six counters and offer the crash dump on F2; ATTEST offers the quote
(R448, R481 to R483). -/
def Obligations.MailboxReads : Prop :=
  ∀ (s : State) (tag : BitVec 16),
    (s.mailboxFree → ∀ sel : Nat, sel ≤ 8 →
      ∃ t, exec (.getStatus tag [BitVec.ofNat 8 sel] 0) s = .next t ∧
        t.hasReply (replyBytes 1 tag.toNat 0 0 0 (if sel = 0 then s.statusBlock else s.partnerRecord (sel - 1))) ∧
        s.regsBut t replyRegs ∧ t = { s with regs := t.regs, sdm := t.sdm }) ∧
    (s.deviceOpen →
      (∃ t, exec (.readCounters tag [0] 0) s = .next t ∧
        t.hasReply (replyBytes 3 tag.toNat 0 0 0 ((List.range 6).flatMap (fun i => leBytes 4 (s.counter i)))) ∧
        s.regsBut t replyRegs ∧ t = { s with regs := t.regs, sdm := t.sdm }) ∧
      (∃ t, exec (.readLog tag [1, 0, 0, 0, 0, 0, 0, 0] 0) s = .next t ∧
        t.hasReply (replyBytes 2 tag.toNat 0 0 (64 * 2 ^ 20) [0, 0, 0, 0]) ∧
        t.sdm.f2Next = some ⟨tag.toNat, 64 * 2 ^ 20, .dump 0⟩ ∧
        s.regsBut t replyRegs ∧ t = { s with regs := t.regs, sdm := t.sdm }) ∧
      (∀ nonce : Bytes, nonce.length = 32 → s.sys.idOk = true →
        ∃ t, exec (.attest tag nonce 0) s = .next t ∧ t.hasReply (replyBytes 4 tag.toNat 0 0 8890 []) ∧
          t.sdm.f2Next = some ⟨tag.toNat, 8890, .bytes (s.quote nonce)⟩ ∧
          s.regsBut t replyRegs ∧ t = { s with regs := t.regs, sdm := t.sdm }))

/-- A long command that meets its conditions is accepted, with a reply of kind 1, and then acts (R480, R481): START_LINE
starts its contexts, STOP_LINE drains them, FENCE_CORE fences, LOAD_PACKAGE takes the package and PROGRAM_MODEL starts its
job, or ends with the code of the loader's checks. Rests in part on the model's own choices: assumptions 83, 84. -/
def Obligations.LongCommandsStart : Prop :=
  ∀ (s : State) (tag : BitVec 16), s.deviceOpen →
    (∀ bits : Bytes, bits.length = 8 → named (leAt bits 0 8) ≠ [] → (∀ x ∈ named (leAt bits 0 8), s.ctxState x = 1) →
      s.isSet R.thmLevel F.thmLevelStopping = false → (∀ x ∈ named (leAt bits 0 8), s.saveAreaOk x = true) →
      s.weightsOk = true → s.cal.complete = true →
      exec (.startLine tag bits 0) s =
        .next (((s.buffered 8 tag bits 0).acceptLong 8 tag.toNat bits).startLines (named (leAt bits 0 8)))) ∧
    (∀ bits : Bytes, bits.length = 8 → (∀ x ∈ named (leAt bits 0 8), s.ctxState x = 2) →
      exec (.stopLine tag (bits ++ [0]) 0) s =
        .next ((named (leAt bits 0 8)).foldl (fun u x => (u.setF (R.dspCxState x) F.dspCxStateState 3).drained x)
          ((s.buffered 9 tag (bits ++ [0]) 0).acceptLong 9 tag.toNat (bits ++ [0]))).advanceStop) ∧
    (∀ c : CoreIx, exec (.fenceCore tag [BitVec.ofNat 8 c.val] 0) s =
      .next (((s.buffered 10 tag [BitVec.ofNat 8 c.val] 0).acceptLong 10 tag.toNat [BitVec.ofNat 8 c.val]).rung3 c.val 2)) ∧
    (∀ k : Fin 2, (∀ x, x < 64 → busyCtx (s.ctxState x) = false) →
      exec (.loadPackage tag [BitVec.ofNat 8 k.val] 0) s =
        .next (let u := (s.buffered 5 tag [BitVec.ofNat 8 k.val] 0).acceptLong 5 tag.toNat [BitVec.ofNat 8 k.val]
          if s.loadCode k.val ≠ 0 then u.longErr (s.loadCode k.val)
          else if s.getF R.idBoot F.idBootStage = 9 then (u.takePackage k.val).setStage 6 else u.takePackage k.val)) ∧
    (∀ k : Fin 2, s.laneStarted = false →
      exec (.programModel tag [BitVec.ofNat 8 k.val] 0) s =
        .next (let u := (s.buffered 6 tag [BitVec.ofNat 8 k.val] 0).acceptLong 6 tag.toNat [BitVec.ofNat 8 k.val]
          if s.loadCode k.val ≠ 0 then u.longErr (s.loadCode k.val)
          else ({ u with dsp := { u.dsp with pkgs := u.dsp.pkgs.put k.val (s.readPkg k.val) } } : State).wantModel k.val))

/-- SET_GRAFT and FLASH_WRITE are accepted and open the F2 stream from the host for the declared bytes (R481, R483). Rests in
part on the model's own choice: assumption 83. -/
def Obligations.LongCommandsTakeData : Prop :=
  ∀ (s : State) (tag : BitVec 16), s.deviceOpen →
    (∀ n : Nat, 0 < n → n ≤ 17420 →
      ∃ t, exec (.setGraft tag [] n) s = .next t ∧ t.hasReply (replyBytes 7 tag.toNat 0 1 0 []) ∧
        t.sdm.long = some ⟨7, tag.toNat, [], [], 0, 0⟩ ∧ t.f2Open true = true ∧ t.f2Left = n ∧
        t.getF R.sdmF2State F.sdmF2StateTag = tag.toNat ∧ t = { s with regs := t.regs, sdm := t.sdm }) ∧
    (∀ (addr n : Nat), addr % 4096 = 0 → n % 4096 = 0 → 0 < n → addr + n ≤ s.sys.flash.size → addr + n < 2 ^ 32 →
      s.laneStarted = false →
      ∃ t, exec (.flashWrite tag (leBytes 4 addr) n) s = .next t ∧ t.hasReply (replyBytes 11 tag.toNat 0 1 0 []) ∧
        t.sdm.long = some ⟨11, tag.toNat, leBytes 4 addr, [], 0, 0⟩ ∧ t.f2Open true = true ∧ t.f2Left = n ∧
        t = { s with regs := t.regs, sdm := t.sdm })

/-- A command that the device's condition does not admit is answered at once and has no other effect: GEN_BUSY in a boot that
has not reached its services and during a device recovery reset, GEN_DENIED in STOPPED (R384, R422, R515). Rests in part on
the model's own choice: assumption 83. -/
def Obligations.MailboxGates : Prop :=
  ∀ (s : State) (tag : BitVec 16) (c : CoreIx), s.mailboxFree →
    (s.flt.drrAt.isSome = true ∨ (s.pstate < 2 ∧ s.sys.boot.isSome = true) →
      ∃ t, exec (.fenceCore tag [BitVec.ofNat 8 c.val] 0) s = .next t ∧ t.hasReply (replyBytes 10 tag.toNat E.genBusy 0 0 []) ∧
        s.regsBut t replyRegs ∧ t = { s with regs := t.regs, sdm := t.sdm }) ∧
    (s.flt.drrAt = none → s.pstate = 3 →
      ∃ t, exec (.fenceCore tag [BitVec.ofNat 8 c.val] 0) s = .next t ∧ t.hasReply (replyBytes 10 tag.toNat E.genDenied 0 0 []) ∧
        s.regsBut t replyRegs ∧ t = { s with regs := t.regs, sdm := t.sdm })

/-- An accepted REBOOT is answered and waits; reply_done, or 10 ms without it, starts the boot from a reset of the always-on
domain, from STOPPED after the rails have been read (R426, R481, R502). -/
def Obligations.RebootRuns : Prop :=
  ∀ (s : State) (tag : BitVec 16),
    (s.deviceOpen → ∃ t, exec (.reboot tag [] 0) s = .next t ∧ t.hasReply (replyBytes 12 tag.toNat 0 0 0 []) ∧
      t.sdm.rebootAt = some s.timeUs ∧ t = { s with regs := t.regs, sdm := t.sdm }) ∧
    (∀ at_, s.sdm.rebootAt = some at_ → at_ + 10000 ≤ s.timeUs → s.pstate ≠ 3 →
      ∃ t, exec .rebootTimeout s = .next t ∧ t.justReset ∧ s.keyHolds t ∧
        t = ({ s with sdm := { s.sdm with rebootAt := none } } : State).doReboot) ∧
    (∀ at_, s.sdm.rebootAt = some at_ → s.timeUs < at_ + 10000 → exec .rebootTimeout s = .next s)

/-- reply_done frees the buffer, and a final reply that waits takes its place; a long command that has ended gives its final
reply with its code, which waits while another reply is in the buffer (R480). -/
def Obligations.RepliesTaken : Prop :=
  ∀ s : State,
    (s.fnReady 1 = true → s.mbState = 2 → s.sdm.rebootAt = none →
      (s.sdm.final = none → ∃ t, exec .replyDone s = .next t ∧ t.mbState = 0 ∧ s.regsBut t [R.sdmMbState] ∧ s.regsOnly t) ∧
      (∀ bs, s.sdm.final = some bs → ∃ t, exec .replyDone s = .next t ∧ t.hasReply bs ∧ t.sdm.final = none ∧
        s.regsBut t replyRegs)) ∧
    (∀ l, s.sdm.long = some l → l.op ≠ 9 → s.longDone l = true →
      ∃ t, exec .finalReply s = .next t ∧ t.sdm.long = none ∧ t.isSet R.sdmMbState F.sdmMbStateLongBusy = false ∧
        (if s.mbState = 2 then t.sdm.final = some (replyBytes l.op l.tag l.err 0 0 []) ∧ t.mbState = 2
         else t.hasReply (replyBytes l.op l.tag l.err 0 0 [])))

/-- Data that is ready opens the F2 stream; reads take its bytes and give 0x00 beyond them with f2_overrun; writes fill it;
f2_abort closes it (R483). -/
def Obligations.F2Stream : Prop :=
  ∀ s : State,
    (∀ o, s.sdm.f2Next = some o → o.tag < 2 ^ 16 → o.len < 2 ^ 32 →
      ∃ t, exec .f2DataReady s = .next t ∧ t.f2Open false = true ∧ t.f2Left = o.len ∧ t.sdm.f2Src = o.src ∧
        t.isSet R.sdmHostStatus F.sdmHostStatusF2Ready = true ∧ t.sdm.f2Next = none) ∧
    (s.fnReady 2 = true → s.f2Open false = true → ∀ bs, s.sdm.f2Src = .bytes bs → ∀ n, n ≤ s.f2Left → 0 < n → n ≤ bs.length →
      ∃ t, exec (.f2Transfer (.read n)) s = .next t ∧ t.wire = .f2 (bs.take n) :: s.wire ∧
        (if n = s.f2Left then t.f2Open false = false else t.f2Open false = true ∧ t.f2Left = s.f2Left - n ∧
          t.sdm.f2Src = .bytes (bs.drop n))) ∧
    (s.fnReady 2 = true → s.f2Open true = true → ∀ bs : Bytes, 0 < bs.length → bs.length < s.f2Left →
      ∃ t, exec (.f2Transfer (.write bs)) s = .next t ∧ t.sdm.f2In = s.sdm.f2In ++ bs ∧ t.f2Left = s.f2Left - bs.length ∧
        t.f2Open true = true) ∧
    (s.fnReady 1 = true → s.f2Open false = true →
      ∃ t, exec .f2Abort s = .next t ∧ t.f2Open false = false ∧ t.f2Left = 0 ∧ t.sdm.long = s.sdm.long)

/-! ### The line clock (R297 to R302) and its outputs (R305 to R325) -/

/-- An accepted pair of levels makes one count, forward or in reverse by LCK_CTRL.dirN, no count when the levels stay or the
encoder is disabled, and an error when both levels change; an index edge latches the low position bits (R297, R299). A mains
edge gives the period and makes it valid; 100 ms without one loses it with a status bit (R302). The other encoder stays, and
without an error every register but the reverse bit and its counter. Rests in part on the model's own choice: assumption 52.
-/
def Obligations.EncoderInputs : Prop :=
  ∀ (s : State) (e : EncIx) (period : Nat),
    (∀ a b : Bool, ∃ t, exec (.encoderCount e a b) s = .next t ∧ (t.enc e).a = a ∧ (t.enc e).b = b ∧
      t.enc (1 - e.val) = s.enc (1 - e.val) ∧
      (let turn := (quadPhase a b + 4 - quadPhase (s.enc e).a (s.enc e).b) % 4
       (t.enc e).pos = (if turn = 2 ∨ turn = 0 ∨ s.encEn e = false then (s.enc e).pos
         else if (turn == 1) != s.encDir e then (s.enc e).pos + 1 else (s.enc e).pos - 1) ∧
       (turn = 2 → t.isSet R.lckStatus (if e.val = 0 then F.lckStatusEnc0Err else F.lckStatusEnc1Err) = true) ∧
       (turn ≠ 2 → s.regsBut t [R.lckStatus, R.lckRevEvt]))) ∧
    (∃ t, exec (.indexEdge e) s = .next t ∧ s.regsOnly t ∧
      t.regNat (if e.val = 0 then R.lckIdx0 else R.lckIdx1) = (s.enc e).pos.toNat % 2 ^ 32 ∧
      s.regsBut t [if e.val = 0 then R.lckIdx0 else R.lckIdx1]) ∧
    (s.isSet R.lckCfg F.lckCfgStrobeMains = false → period < 2 ^ 24 →
      ∃ t, exec (.mainsEdge period) s = .next t ∧ t.getF R.lckMains F.lckMainsPeriod = period ∧
        t.isSet R.lckMains F.lckMainsValid = true ∧ s.regsBut t [R.lckMains] ∧ t.lck.mainsAt = s.timeUs ∧
        t = { s with regs := t.regs, lck := t.lck }) ∧
    (s.lck.mainsLost = false → s.lck.mainsAt + 100000 ≤ s.timeUs →
      ∃ t, exec .mainsLost s = .next t ∧ t.isSet R.lckMains F.lckMainsValid = false ∧
        t.isSet R.lckStatus F.lckStatusMainsLost = true ∧ t.lck.mainsLost = true ∧
        t.getF R.lckMains F.lckMainsPeriod = s.getF R.lckMains F.lckMainsPeriod)

/-- A velocity update, one every 16 µs, forms LCK_VELn from the net counts of the last 64 updates, 1.024 ms: in lc/ms with 8
fraction bits, so 250 for each count. Without a forward count for stop_ms an enabled encoder is stopped, and stays so until its
next forward count. A reverse count after a forward one is a reversal. Stopping and reversing set their status bits (R300). -/
def Obligations.VelocityStopReverse : Prop :=
  ∀ (s : State) (e : EncIx),
    (∃ t, exec (.velocityUpdate e) s = .next t ∧
      t.reg (velReg e) = ofInt 32 (250 * (((s.enc e).cur :: (s.enc e).hist).take 64).foldl (· + ·) 0) ∧
      (t.enc e).hist = ((s.enc e).cur :: (s.enc e).hist).take 64 ∧ (t.enc e).cur = 0 ∧ (t.enc e).pos = (s.enc e).pos ∧
      s.regsBut t [velReg e] ∧ t = { s with regs := t.regs, lck := t.lck }) ∧
    (s.encEn e = true → (s.enc e).stopped = false → (s.enc e).fwdAt + 1000 * s.getF R.lckCfg F.lckCfgStopMs ≤ s.timeUs →
      ∃ t, exec (.encoderStopped e) s = .next t ∧ (t.enc e).stopped = true ∧
        t.isSet R.lckStatus F.lckStatusStop = true ∧ t.reg R.lckStopEvt = satInc (s.reg R.lckStopEvt) 1 ∧
        s.regsBut t [R.lckStatus, R.lckStopEvt] ∧ t = { s with regs := t.regs, lck := t.lck }) ∧
    (s.timeUs < (s.enc e).fwdAt + 1000 * s.getF R.lckCfg F.lckCfgStopMs → exec (.encoderStopped e) s = .next s) ∧
    (∀ a b : Bool,
      (let turn := (quadPhase a b + 4 - quadPhase (s.enc e).a (s.enc e).b) % 4
       let counted := s.encEn e = true ∧ (turn = 1 ∨ turn = 3)
       let forward := counted ∧ ((turn == 1) != s.encDir e) = true
       ∃ t, exec (.encoderCount e a b) s = .next t ∧
         (forward → (t.enc e).stopped = false ∧ (t.enc e).fwdAt = s.timeUs ∧ (t.enc e).cur = (s.enc e).cur + 1 ∧
           (t.enc e).lastFwd = true) ∧
         (¬ forward → (t.enc e).stopped = (s.enc e).stopped ∧ (t.enc e).fwdAt = (s.enc e).fwdAt) ∧
         (counted → ¬ forward → (t.enc e).cur = (s.enc e).cur - 1 ∧ (t.enc e).lastFwd = false ∧
           ((s.enc e).lastFwd = true → t.isSet R.lckStatus F.lckStatusReverse = true ∧
             t.reg R.lckRevEvt = satInc (s.reg R.lckRevEvt) 1) ∧
           ((s.enc e).lastFwd = false → s.regsBut t []))))

/-- A due cut-off crossing of a CLOSED slot is registered, and the slot takes the default with the cause late, or fault when
it is marked (R307, R312); of an OPEN slot it is registered alone. Rests in part on the model's own choice: assumption 30. -/
def Obligations.CutoffRegisters : Prop :=
  ∀ (s : State) (i : Fin 4096) (e : Nat) (o : ObjSlot) (outs : List LocalOut),
    s.slot i = some ⟨e, some o, outs⟩ → o.cutDue = true → o.cutReg = false →
    (o.st = .closed → exec (.cutoffCrossing i) s =
      .next ((s.setSlot i ⟨e, some { o with cutReg := true, cutDue := false }, outs⟩).defaultSlot i
        { o with cutReg := true, cutDue := false } (if o.marked then .fault else .late) o.pTrail)) ∧
    (o.st ≠ .closed → exec (.cutoffCrossing i) s =
      .next (s.setSlot i ⟨e, some { o with cutReg := true, cutDue := false }, outs⟩)) ∧
    (o.st = .closed → s.inSafe = true → ∃ t, exec (.cutoffCrossing i) s = .next t ∧ t.slot i = none)

/-- An interrupt output that is due is raised and its slot freed; a fixed-width pulse ends after its width; a pulse is cut at
gpio_max_width with ACT_STATUS.width_cut (R317, R318). A waiting FIRE frame that is still in time is sent when the rate
allows it, and counted; one that comes too late is dropped with ACT_STATUS.rate_drop (R317). Rests in part on the model's own
choice: assumption 32. -/
def Obligations.SlotOutputs : Prop :=
  ∀ s : State,
    (∀ (i : Fin 4096) (e : Nat),
     (∀ (tag : Byte) (p : Pos), s.slot i = some ⟨e, none, [⟨.irq tag, p, none, 0, true, none, false⟩]⟩ →
      ∃ t w, exec (.scheduledOutput i) s = .next t ∧ t.wire = w ++ .irq tag :: s.wire ∧ t.slot i = none) ∧
    (∀ (k : Nat) (p : Pos) (w at_ : Nat), s.slot i = some ⟨e, none, [⟨.gpio k, p, none, w, false, some at_, false⟩]⟩ →
      w ≤ 10 * (s.timeUs - at_) → ∃ t, exec (.pulseWidthEnd i) s = .next t ∧ t.slot i = none) ∧
    (∀ (k : Nat) (p : Pos) (w at_ : Nat), s.slot i = some ⟨e, none, [⟨.gpio k, p, none, w, false, some at_, false⟩]⟩ →
      s.getF R.actGpioMaxw F.actGpioMaxwMaxWidth ≤ s.timeUs - at_ →
      ∃ t, exec (.widthCut i) s = .next t ∧ t.slot i = none ∧ t.isSet R.actStatus F.actStatusWidthCut = true ∧
        t.reg R.actWcutEvt = satInc (s.reg R.actWcutEvt) 1)) ∧
    (∀ (ap : Fin 2) (w : WaitFire) (ws : List WaitFire), s.fireQ ap = w :: ws →
    ((∀ x ∈ w :: ws, s.fireInTime x = true) → s.fireRoom ap = true → s.attached (apPort ap) = true →
      ∃ t f, exec (.fireRateRelease ap) s = .next t ∧ t.fireQ ap = ws ∧ t.wire = .tx f :: s.wire ∧ f.payload = w.payload ∧
        f.port = apPort ap ∧
        (let a := if ap.val = 0 then R.actFire0 else R.actFire1
         t.reg a = satInc (s.reg a) 1 ∧ s.regsBut t [a])) ∧
    (s.fireInTime w = false → ∃ t, exec (.fireRateRelease ap) s = .next t ∧ t.fireQ ap = ws ∧
      t.isSet R.actStatus F.actStatusRateDrop = true ∧ t.reg R.actDropEvt = satInc (s.reg R.actDropEvt) 1 ∧ t.wire = s.wire))

/-- An event slot written ahead of the belt takes a free slot and waits there (R304, R318, R319). A SYNC that is due is sent
and is then no longer due; 1 ms without one sends a heartbeat (R313). Rests in part on the model's own choices: assumptions
31, 33. -/
def Obligations.SlotsAndSync : Prop :=
  ∀ (s : State) (e : EncIx),
    (∀ (tag : Byte) (p : Pos), s.slotGrant = true → Pos.atOrAfter (s.enc e).pos p = false →
    ∃ t i, exec (.eventSlotWrite ⟨e, p, none, 0, 0, false, some tag⟩) s = .next t ∧ i < 4096 ∧ s.slot i = none ∧
      t.slot i = some ⟨e.val, none, [⟨.irq tag, p, none, 0, false, none, false⟩]⟩ ∧ (∀ j, j ≠ i → t.slot j = s.slot j)) ∧
    ((s.enc e).syncDue = true → ∃ t, exec (.sync e) s = .next t ∧ t = s.sendSync e false ∧ (t.enc e).syncDue = false ∧
      (t.enc e).syncAt = s.timeUs ∧ (t.enc e).pos = (s.enc e).pos) ∧
    ((s.enc e).syncAt + 1000 ≤ s.timeUs → ∃ t, exec (.syncHeartbeat e) s = .next t ∧ t = s.sendSync e true ∧
      (t.enc e).syncDue = false ∧ (t.enc e).syncAt = s.timeUs ∧ (t.enc e).pos = (s.enc e).pos)

/-- The safe state is entered with ACT_STATUS.safe_entry, empties the waiting FIRE frames and the armed and event slots, and
holds every DAC channel; entered again it changes nothing; release leaves it (R325). Rests in part on the model's own choice:
assumption 52. -/
def Obligations.SafeState : Prop :=
  ∀ s : State,
    (s.inSafe = false → ∃ t, exec .safe s = .next t ∧ t.inSafe = true ∧ t.lck.fireQ0 = [] ∧ t.lck.fireQ1 = [] ∧
      (∀ i x, t.slot i = some x → ∃ o, x.obj = some o ∧ o.st ≠ .armed) ∧
      t.isSet R.actStatus F.actStatusSafeEntry = true ∧
      (∀ ch, ch < 8 → t.isSet (R.actDacActive ch) F.actDacActiveHold = true)) ∧
    (s.inSafe = true → exec .safe s = .next s) ∧
    (∃ t, exec .release s = .next t ∧ t.inSafe = false ∧ t.lck = s.lck ∧
      (∀ ch, ch < 8 → t.isSet (R.actDacActive ch) F.actDacActiveHold = !s.dacRuns ch))

/-- A load strobe copies every channel's shadow code, mode and gain into its active set and counts; ACT_DAC_CTRL.run starts
and stops the modulators, and a channel is on the hold path while its modulator stands or the safe state holds (R323, R324).
Rests in part on the model's own choice: assumption 35. -/
def Obligations.DacChannels : Prop :=
  ∀ s : State,
    (∃ t, exec .loadStrobe s = .next t ∧ t.reg R.actDacStrobes = satInc (s.reg R.actDacStrobes) 1 ∧
      (∀ ch, ch < 8 → t.getF (R.actDacActive ch) F.actDacActiveCode = s.getF (R.actDacCode ch) F.actDacCodeValue ∧
        t.getF (R.actDacActive ch) F.actDacActiveSine = s.getF (R.actDacMode ch) F.actDacModeSine ∧
        t.getF (R.actDacActive ch) F.actDacActiveGain2 = s.getF (R.actDacMode ch) F.actDacModeGain2) ∧
      t = { s with regs := t.regs, lck := t.lck }) ∧
    (∀ run : Byte, ∃ t, exec (.dacRun run) s = .next t ∧ t.getF R.actDacCtrl F.actDacCtrlRun = run.toNat ∧
      (∀ ch, ch < 8 → t.getF (R.actDacActive ch) F.actDacActiveHold = b2n (s.inSafe || !bit run.toNat ch)) ∧
      (∀ ch, ch < 8 → bit run.toNat ch = true → s.dacRuns ch = false →
        t.isSet (R.actDacActive ch) F.actDacActiveSine = false) ∧ s.regsOnly t)

/-! ### Ports and partners (R333 to R346, R516) -/

/-- Firmware enables a powered port that is DOWN, which enters TRAIN, and disables one that has no partner. Training and
discovery step through the states of R333 on lock, deskew and their time-outs; the record is sent on entry to DISCOVER and
every 1 ms until the partner's has arrived (R333, R334). Rests in part on the model's own choices: assumptions 36, 37. -/
def Obligations.PortTraining : Prop :=
  ∀ (s : State) (p : PortIx),
    (s.domOn (52 + p.val) = true →
    (s.portState p = 0 → ∃ t, exec (.portEnable p) s = .next t ∧ t.portEn p = true ∧ t.portState p = 1 ∧ (t.port p).fails = 0 ∧
      (t.port p).since = s.timeUs ∧ s.regsBut t [R.prtCtrl p, R.prtState p, R.prtPartnerFw p]) ∧
    (s.attached p = false → ∃ t, exec (.portDisable p) s = .next t ∧ t.portEn p = false ∧ t.portState p = 0 ∧
      s.regsBut t [R.prtCtrl p, R.prtState p, R.prtPartnerFw p])) ∧
    (s.portState p = 1 → ∃ t, exec (.blockLock p) s = .next t ∧ t.portState p = 2 ∧ (t.port p).fails = 0 ∧
      t.getF (R.prtState p) F.prtStateLanesUp = 2 ^ portLanes p - 1 ∧ s.regsBut t [R.prtState p]) ∧
    (s.portState p = 1 → (s.port p).since + 2000 ≤ s.timeUs → ∃ t, exec (.trainTimeout p) s = .next t ∧ t.portState p = 1 ∧
      (t.port p).since = s.timeUs ∧ (t.port p).fails = (s.port p).fails + 1) ∧
    (s.portState p = 2 → (s.port p).held = [] → ∃ t f, exec (.lanesDeskewed p) s = .next t ∧ t.portState p = 3 ∧
      t.wire = .tx f :: s.wire ∧ f.port = p ∧ f.type = 1 ∧ (t.port p).recOk = false) ∧
    (s.portState p = 2 → (s.port p).since + 1000 ≤ s.timeUs → ∃ t, exec (.alignTimeout p) s = .next t ∧ t.portState p = 1) ∧
    (s.portState p = 3 → (s.port p).since + 10000 ≤ s.timeUs → ∃ t, exec (.discoverTimeout p) s = .next t ∧ t.portState p = 1) ∧
    (s.portState p = 5 → (s.port p).since + 1000000 ≤ s.timeUs → (s.port p).held = [] →
      ∃ t, exec (.refusedTimeout p) s = .next t ∧ t.portState p = 3) ∧
    (s.portState p = 3 → (s.port p).recOk = false → (s.port p).accAt + 1000 ≤ s.timeUs →
      ∃ t f, exec (.accessionRepeat p) s = .next t ∧ t.wire = .tx f :: s.wire ∧ f.port = p ∧ f.type = 1 ∧
        (t.port p).accAt = s.timeUs ∧ t.regs = s.regs)

/-- In DISCOVER a delivered ACCESSION is judged, and a record that fails R336 refuses the port; a delivered acknowledgement
with code 0 attaches a port whose record stands, and one with another code refuses it (R333, R334, R336). -/
def Obligations.PortAccession : Prop :=
  ∀ (s u : State) (p : PortIx) (f : Frame) (bs : Bytes), s.portState p = 3 → s.rxFrame p f = (u, some bs) →
    (f.hdr.type = 1 → (u.port p).recOk = false → ∃ t, exec (.accession p f) s = .next t ∧ t = u.gotRecord p bs ∧
      (u.checkRecord p bs ≠ 0 → t.portState p = 5)) ∧
    (f.hdr.type = 2 → leAt bs 0 2 = 0 → (u.port p).recOk = true → ∃ t, exec (.accessionAck p f) s = .next t ∧
      t.portState p = 4 ∧ t.getF (R.prtState p) F.prtStateKind = leAt (u.port p).record 6 1 % 2 ^ F.prtStateKind.width ∧
      (t.port p).lastRxAt = u.timeUs) ∧
    (f.hdr.type = 2 → leAt bs 0 2 ≠ 0 → ∃ t, exec (.accessionAck p f) s = .next t ∧ t.portState p = 5)

/-- An ATTACHED partner is detached on a lost lane (cause 1), on keep_timeout (2) and on a DETACH message (3); a detach on a
peer port sets PRT_STATUS.detach with its counter and returns an enabled port to TRAIN (R343, R344). -/
def Obligations.PortDetaches : Prop :=
  ∀ (s : State) (p : PortIx), s.attached p = true →
    (∀ up : Byte, Nat.land up.toNat (2 ^ portLanes p - 1) ≠ 2 ^ portLanes p - 1 →
      exec (.blockLockLost p up) s =
        .next ((s.setF (R.prtState p) F.prtStateLanesUp (Nat.land up.toNat (2 ^ portLanes p - 1))).detach p 1)) ∧
    ((s.port p).lastRxAt + s.keepUs p ≤ s.timeUs → exec (.keepTimeout p) s = .next (s.detach p 2)) ∧
    (∀ (f : Frame) (u : State) (bs : Bytes), f.hdr.type = 3 → s.rxFrame p f = (u, some bs) →
      exec (.detach p f) s = .next (u.detach p 3 (leAt bs 0 2))) ∧
    (p.val = 4 ∨ p.val = 5 → s.portEn p = true → (s.port p).lastRxAt + s.keepUs p ≤ s.timeUs →
      ∃ t, exec (.keepTimeout p) s = .next t ∧ t.portState p = 1 ∧ t.isSet (R.prtStatus p) F.prtStatusDetach = true ∧
        t.reg (R.prtDetEvt p) = satInc (s.reg (R.prtDetEvt p)) 1)

/-- A KEEPALIVE is sent after 100 µs without a frame; one that arrives, as any valid single-frame message with its check value,
restarts keep_timeout and is counted; a frame that fails the header check is discarded with PRT_STATUS.hdr_err (R338 to R340). -/
def Obligations.PortKeepalive : Prop :=
  ∀ (s : State) (p : PortIx), s.attached p = true →
    (s.portEn p = true → (s.port p).lastTxAt + 100 ≤ s.timeUs →
      ∃ t f, exec (.keepalive p) s = .next t ∧ t.wire = .tx f :: s.wire ∧ f.port = p ∧ f.type = 4 ∧
        (t.port p).lastTxAt = s.timeUs ∧ t.regs = s.regs) ∧
    (∀ f : Frame, f.hdr.type = 4 → s.hdrCheck p f = .ok → bit f.hdr.flags.toNat 0 = true → bit f.hdr.flags.toNat 1 = true →
      (let q := s.port p
       let x := q.rx.getD f.hdr.stream.toNat RxStream.init
       f.cv = some (Nat.xor (crcRun q.alg (x.seed.getD (crcInit q.alg)) f.payload) (crcXor q.alg))) →
      ∃ t, exec (.keepaliveReceived p f) s = .next t ∧ (t.port p).lastRxAt = s.timeUs ∧
        t.reg (R.prtRxMsgs p) = satInc (s.reg (R.prtRxMsgs p)) 1 ∧ s.regsBut t [R.prtRxMsgs p]) ∧
    (∀ f : Frame, f.hdr.type = 4 → s.hdrCheck p f = .hdr →
      ∃ t, exec (.keepaliveReceived p f) s = .next t ∧ t.isSet (R.prtStatus p) F.prtStatusHdrErr = true ∧
        t.reg (R.prtHdrEvt p) = satInc (s.reg (R.prtHdrEvt p)) 1 ∧ s.regsBut t [R.prtStatus p, R.prtHdrEvt p])

/-- A check value written to an idle stream is what the slot then reads; written to a stream that is open or opens in that
cycle it is discarded with PRT_STATUS.cv_busy (R342). -/
def Obligations.CheckValueSlots : Prop :=
  ∀ (s : State) (p : PortIx) (v : Word), s.getF (R.prtCvSel p) F.prtCvSelStream < s.cvStreams p →
    s.isSet (R.prtCvSel p) F.prtCvSelDir = false →
    (let x := (s.port p).rx.getD (s.getF (R.prtCvSel p) F.prtCvSelStream) RxStream.init
     (x.isOpen = false → ∃ t, exec (.cvSlotWrite p v false) s = .next t ∧
        t.cvRead p = v.toNat % 2 ^ crcWidth (s.port p).alg ∧ t.regs = s.regs) ∧
     (∃ t, exec (.cvSlotWrite p v true) s = .next t ∧ t.isSet (R.prtStatus p) F.prtStatusCvBusy = true ∧
        t.reg (R.prtCvbEvt p) = satInc (s.reg (R.prtCvbEvt p)) 1 ∧ t.prt = s.prt ∧
        s.regsBut t [R.prtStatus p, R.prtCvbEvt p]))

/-- A delivered LINE is a line on every lane that lists its head; a delivered HEAD_STATUS is reported; a delivered board
STATUS sets ACT_STATUS.board_report and is reported (R275, R315, R338). Rests in part on the model's own choices: assumptions
38, 40. -/
def Obligations.PartnerMessages : Prop :=
  ∀ (s u : State) (p : PortIx) (f : Frame) (bs : Bytes), s.attached p = true → s.rxFrame p f = (u, some bs) →
    (p.val < 4 → f.hdr.type = 0x10 → exec (.line p f) s =
      .next ((u.lanes.filter (fun l => bit (u.laneP l P.laneHeads) p)).foldl
        (fun t l => t.lineOn p ((u.port p).rx.getD f.hdr.stream.toNat RxStream.init).stamp l) u)) ∧
    (p.val < 4 → f.hdr.type = 0x11 → exec (.headStatus p f) s =
      .next (u.report (Src.port p) E.prtHeadReport (Rep.fw 3) (leAt bs 0 2))) ∧
    (6 ≤ p.val → f.hdr.type = 0x48 → ∃ t, exec (.status p f) s = .next t ∧
      t.isSet R.actStatus F.actStatusBoardReport = true ∧ t.reg R.actBoardEvt = satInc (u.reg R.actBoardEvt) 1 ∧
      t = (u.raise R.actStatus F.actStatusBoardReport R.actBoardEvt).report (Src.port p) E.actBoardReport (Rep.fw 3)
        (leAt bs 0 4))

/-! ### The peer link (R262 to R265, R347 to R352) -/

/-- Folio messages for this device, with a current generation where they echo one, act on their transfers; a stale reply is
dropped and counted (R263 to R265, R289, R349). Rests in part on the model's own choice: assumption 41. -/
def Obligations.FolioMessages : Prop :=
  ∀ (s u : State) (p : PortIx) (f : Frame) (e : PeerExt) (bs : Bytes),
    (∀ m, s.rxPeer p 0x60 f = (u, some (e, bs)) →
      exec (.folioOffer p f m) s = .next (u.gotOffer e.src.toNat e.ctx.toNat e.gen.toNat m)) ∧
    (∀ n, s.rxPeer p 0x61 f = (u, some (e, bs)) → u.staleReply e = false →
      exec (.folioAccept p f n) s = .next (u.gotAccept e.src.toNat n.toNat)) ∧
    (∀ c, s.rxPeer p 0x62 f = (u, some (e, bs)) → u.staleReply e = false →
      exec (.folioRefuse p f c) s = .next (u.gotRefuse e.src.toNat c.toNat)) ∧
    (∀ off data, s.rxPeer p 0x63 f = (u, some (e, bs)) →
      exec (.folioData p f off data) s = .next (u.gotData e.src.toNat e.ctx.toNat e.gen.toNat off data)) ∧
    (∀ n h, s.rxPeer p 0x64 f = (u, some (e, bs)) →
      exec (.folioDone p f n h) s = .next (u.gotDone e.src.toNat e.ctx.toNat e.gen.toNat n h)) ∧
    (∀ n, s.rxPeer p 0x65 f = (u, some (e, bs)) →
      (u.staleReply e = false → exec (.folioAck p f n) s = .next (u.gotAck e.src.toNat n.toNat)) ∧
      (u.staleReply e = true → ∃ t, exec (.folioAck p f n) s = .next t ∧ u.regsBut t [R.dspStatus, R.dspStaleEvt] ∧
        t.reg R.dspStaleEvt = satInc (u.reg R.dspStaleEvt) 1 ∧ u.regsOnly t))

/-- A refused or timed-out transfer of a sender ends, its folio returns from state 3 to 2, and STK_STATUS.xfer_fail is set; a
piece of FOLIO_DATA is taken into its transfer (R263, R265). -/
def Obligations.FolioTransferEnds : Prop :=
  ∀ (s : State) (call : Nat) (x : Xfer) (g : Folio), s.stk.xfers.get? call = some x →
    (x.sender = true → s.folio call = some g → g.st = 3 → x.lastAt + 1000 * s.xferTimeout ≤ s.timeUs →
      ∃ t, exec (.xferTimeout call) s = .next t ∧ t.stk.xfers.get? call = none ∧ t.folio call = some { g with st := 2 } ∧
        t.isSet R.stkStatus F.stkStatusXferFail = true ∧ t.reg R.stkXferEvt = satInc (s.reg R.stkXferEvt) 1) ∧
    (∀ (src c gen off : Nat) (data : Bytes), s.xferOf false src (fun y => y.peerCtx == c && y.peerGen == gen) = some (call, x) →
      data.length ≤ 2048 → off + data.length ≤ x.dataLen →
      ∃ y, (s.gotData src c gen off data).stk.xfers.get? call = some y ∧ y.gotLen = x.gotLen + data.length ∧
        y.lastAt = s.timeUs ∧ (data ≠ [] → y.got.getRun 0 off data.length = data))

/-- A member's heartbeat renews what is known of it and shows it alive; a heartbeat of this device is sent every hb_period; a
member missed for hb_miss periods is lost, and the acting manager says so; a notice is applied and raises
FLT_HOST_STATUS.peer for another member's (R350, R351). -/
def Obligations.FabricMembers : Prop :=
  ∀ s : State,
    (∀ (u : State) (p : PortIx) (f : Frame) (e : PeerExt) (bs : Bytes) (i : Nat), s.rxPeer p 0x70 f = (u, some (e, bs)) →
      u.fabOf (leAt bs 0 16) = some i → u.isFm = false →
      ∃ t, exec (.heartbeat p f) s = .next t ∧ (t.member i).hbAt = u.timeUs ∧ (t.member i).lost = false ∧
        (t.member i).state = leAt bs 0x14 1 ∧ (t.member i).fenced = leAt bs 0x16 2 ∧ u.regsBut t [R.prtFab]) ∧
    (s.inFabric = true → s.prt.fab.lastHbAt + s.hbPeriod ≤ s.timeUs →
      ∃ t, exec .heartbeatPeriod s = .next t ∧ t.prt.fab.lastHbAt = s.timeUs ∧
        t = { s.sendHeartbeats with prt := t.prt }) ∧
    (∀ i : Fin 8, s.isFm = true → i.val ≠ s.fabIndex → (s.member i).lost = false → s.fabDev i ≠ 0 →
      (s.member i).hbAt + s.fabP P.fabHbMiss * s.hbPeriod ≤ s.timeUs →
      ∃ t, exec (.hbMiss i) s = .next t ∧ t = (s.setMember i { s.member i with lost := true }).notice i 1 ∧
        (t.member i).lost = true) ∧
    (∀ (u : State) (p : PortIx) (f : Frame) (e : PeerExt) (bs : Bytes) (i : Nat), s.rxPeer p 0x71 f = (u, some (e, bs)) →
      u.fabOf (leAt bs 0 16) = some i → i ≠ u.fabIndex → leAt bs 0x14 1 = 1 →
      ∃ t, exec (.fenceNotice p f) s = .next t ∧ (t.member i).lost = true ∧ (t.member i).fenced = leAt bs 0x16 2 ∧
        t.isSet R.fltHostStatus F.fltHostStatusPeer = true ∧ t.regNat R.prtFabSeq = leAt bs 0x10 4)

/-- The backup that misses hb_miss heartbeats of the acting manager takes the role and broadcasts reason 1 about the old manager,
then reason 5 about itself; when the configured manager has been heard for 1 s without a gap, reason 4 is broadcast about it and
the role handed back; a member without a backup keeps the notices and logs PRT_FM_LOST (R352). -/
def Obligations.ActingManager : Prop :=
  ∀ s : State,
    (∀ i : Fin 8, s.inFabric = true → s.isFm = false → s.actingFm = i.val → i.val ≠ s.fabIndex → (s.member i).lost = false →
      s.fabDev i ≠ 0 → (s.member i).hbAt + s.fabP P.fabHbMiss * s.hbPeriod ≤ s.timeUs →
      (s.fabP P.fabFmBackup = s.fabIndex → ∃ t, exec (.hbMiss i) s = .next t ∧
        t = (((s.setMember i { s.member i with lost := true }).setActing s.fabIndex).notice i 1).notice s.fabIndex 5 ∧
        t.actingFm = s.fabIndex ∧ (t.member i).lost = true) ∧
      (s.fabP P.fabFmBackup = 0xFF ∧ s.fabIndex ≠ 0xFF ∨ s.fabP P.fabFmBackup = i.val → ∃ t, exec (.hbMiss i) s = .next t ∧
        t = (s.setMember i { s.member i with lost := true }).report (Src.peer i) E.prtFmLost (Rep.fw 3) ∧
        (∀ j, j ≠ i.val → t.member j = s.member j) ∧ t.regNat R.prtFabSeq = s.regNat R.prtFabSeq)) ∧
    (let i := s.fabP P.fabFmIndex
     let heard := (s.prt.fab.members.get? i).isSome = true ∧ (s.member i).lost = false
     (s.isFm = true → s.fabIndex ≠ i → heard → (s.member i).runSince + 1000000 ≤ s.timeUs →
       ∃ t, exec .fmReturn s = .next t ∧ t = (s.notice i 4).setActing i ∧ t.actingFm = i ∧ t.isSet R.prtFab F.prtFabFm = false) ∧
     (s.timeUs < (s.member i).runSince + 1000000 → exec .fmReturn s = .next s))

/-! ### Tiles (R42 to R63, R72 to R76) and the accumulators (R169 to R177, R194) -/

/-- TIL_CTRL takes its fields; a group size that is reserved, or that changes while the tile issues, is discarded with
TIL_STATUS.cfg_err; nothing happens while the core's analogue domain is off (R48). A test starts on a tile that is not
issued, ends after (runs + 1) × 16 MVMs with its count and its sums, and ACC_OCC.hw_clr restarts the high-water mark (R76,
R194). Rests in part on the model's own choices: assumptions 42, 43. -/
def Obligations.TileControl : Prop :=
  ∀ (s : State) (c : CoreIx) (t : TileIx) (w : Word),
    (let a := R.tilCtrl c t
     let grp := F.tilCtrlGrpSize.get w
     let taken := grp ≠ 3 ∧ (grp = s.getF a F.tilCtrlGrpSize ∨ s.isSet a F.tilCtrlIssueEn = false)
     (s.domOn (3 * c.val) = false → exec (.tilCtrlWrite c t w) s = .next s) ∧
     (s.domOn (3 * c.val) = true → ∃ u, exec (.tilCtrlWrite c t w) s = .next u ∧
       u.getF a F.tilCtrlTrkEn = F.tilCtrlTrkEn.get w ∧ u.getF a F.tilCtrlGainFix = F.tilCtrlGainFix.get w ∧
       u.getF a F.tilCtrlIssueEn = F.tilCtrlIssueEn.get w ∧
       (taken → u.getF a F.tilCtrlGrpSize = grp ∧ s.regsBut u [a, R.tilState c t] ∧ s.regsOnly u) ∧
       (¬ taken → u.getF a F.tilCtrlGrpSize = s.getF a F.tilCtrlGrpSize ∧ u.isSet (R.tilStatus c t) F.tilStatusCfgErr = true ∧
         u.reg (R.tilCfgEvt c t) = satInc (s.reg (R.tilCfgEvt c t)) 1))) ∧
    (let a := R.tilTestCtrl c
     s.domOn (3 * c.val) = true → s.isSet a F.tilTestCtrlStart = false → F.tilTestCtrlStart.get w = 1 →
     F.tilTestCtrlTile.get w ≤ 67 → (F.tilTestCtrlMode.get w = 1 ∨ F.tilTestCtrlMode.get w = 2) →
     s.isSet (R.tilCtrl c (F.tilTestCtrlTile.get w)) F.tilCtrlIssueEn = false →
     ∃ u, exec (.testStart c w) s = .next u ∧ u.isSet a F.tilTestCtrlStart = true ∧
       u.getF a F.tilTestCtrlTile = F.tilTestCtrlTile.get w ∧ u.getF a F.tilTestCtrlMode = F.tilTestCtrlMode.get w ∧
       u.getF a F.tilTestCtrlRuns = F.tilTestCtrlRuns.get w ∧ s.regsBut u [a] ∧ s.regsOnly u) ∧
    (∀ reps : List (List Int), s.isSet (R.tilTestCtrl c) F.tilTestCtrlStart = true →
      reps.length = 16 * (s.getF (R.tilTestCtrl c) F.tilTestCtrlRuns + 1) →
      (let vs := testVals (s.getF (R.tilTestCtrl c) F.tilTestCtrlMode) reps
       ∃ u, exec (.testComplete c reps) s = .next u ∧ u.isSet (R.tilTestCtrl c) F.tilTestCtrlStart = false ∧
         u.regNat (R.tilTestCount c) = vs.length % 2 ^ 32 ∧
         u.reg (R.tilTestSum c) = BitVec.ofInt 32 vs.sum ∧
         u.regNat (R.tilTestSsqLo c) + 2 ^ 32 * u.regNat (R.tilTestSsqHi c) = (vs.map (fun v => v.natAbs ^ 2)).sum % 2 ^ 64 ∧
         s.regsBut u [R.tilTestCtrl c, R.tilTestCount c, R.tilTestSum c, R.tilTestSsqLo c, R.tilTestSsqHi c] ∧ s.regsOnly u)) ∧
    (∃ u, exec (.hwClr c) s = .next u ∧ u.getF (R.accOcc c) F.accOccHighWater = s.getF (R.accOcc c) F.accOccInUse ∧
      u.getF (R.accOcc c) F.accOccInUse = s.getF (R.accOcc c) F.accOccInUse ∧ s.regsBut u [R.accOcc c] ∧ s.regsOnly u)

/-- An MVM cycle issues at most slew_step slices more than the cycle before, and none in a cycle that the throttle withholds
(R385, R390); the cycle counter advances by one. -/
def Obligations.SlewGuardHolds : Prop :=
  ∀ s : State, ∃ t, exec .mvmCycleBoundary s = .next t ∧ t.pwr.cycle = s.pwr.cycle + 1 ∧
    t.pwr.issued ≤ min 1088 (s.pwr.issued + s.slewStep) ∧ (s.pwr.cycle % s.divider ≠ 0 → t.pwr.issued = 0)

/-- A code in range is clamped, shifted by its gain step and its slice's weight, and added to its column of the entry; the
slice is then complete (R49, R171, R172). A code over range at a step above 0 waits for re-conversion with TIL_STATUS.ovr (R54). -/
def Obligations.SliceAccumulates : Prop :=
  ∀ (s : State) (c : CoreIx) (t : TileIx) (sl : SliceRun) (r : InRun) (e : Nat) (y : AccEntry) (k : ColCode),
    (s.tile c t).slices = [sl] → sl.todo = [k.col.val] → sl.wait = [] → sl.serv = [] →
    (s.tile c t).runs.get? sl.run = some r → r.entry = some e → r.left = 2 → s.accEntry c e = some y →
    (k.ovr = false → ∃ u, exec (.sliceComplete c t [k] []) s = .next u ∧ (u.tile c t).slices = [] ∧
      u.accEntry c e = some { y with
        done := y.done + 1, st := if y.done + 1 = y.need then 2 else y.st,
        vals := y.vals.set k.col.val (y.vals.getD k.col.val 0 + clampI (-255) 255 k.code * 2 ^ (7 - sl.step) * 16 ^ sl.idx) } ∧
      u = { s with mc := u.mc }) ∧
    (k.ovr = true → sl.step ≠ 0 → ∃ u, exec (.sliceComplete c t [k] []) s = .next u ∧
      (u.tile c t).slices = [{ sl with todo := [], wait := [k.col.val] }] ∧ u.accEntry c e = some y ∧
      u.isSet (R.tilStatus c t) F.tilStatusOvr = true ∧ u.reg (R.tilOvrEvt c t) = satInc (s.reg (R.tilOvrEvt c t)) 1 ∧
      s.regsBut u [R.tilStatus c t, R.tilOvrEvt c t])

/-- After 256 quiet inputs the step rises by one and the count restarts (R60). A pip window of 4,096 slices closes: its sums
restart, and a ratio within 0.8 to 1.25 is published; any other is a failed window (R63). A partial that arrives over the
mesh with its context's generation is written into a free entry; a stale one is dropped and counted (R176, R177). -/
def Obligations.TileEvents : Prop :=
  ∀ (s : State) (c : CoreIx) (t : TileIx),
    (s.getF (R.tilRange c t) F.tilRangeQuiet = 256 → s.getF (R.tilRange c t) F.tilRangeStep < 3 →
      ∃ u, exec (.stepRise c t) s = .next u ∧ u.getF (R.tilRange c t) F.tilRangeStep = s.getF (R.tilRange c t) F.tilRangeStep + 1 ∧
        u.getF (R.tilRange c t) F.tilRangeQuiet = 0 ∧ s.regsBut u [R.tilRange c t, R.tilState c t] ∧ s.regsOnly u) ∧
    (s.getF (R.tilPipGain c t) F.tilPipGainUsed = 4096 →
      (let x := s.tile c t
       let ok := 0 < x.pipDen ∧ 4 * x.pipDen ≤ 5 * x.pipNum ∧ 4 * x.pipNum ≤ 5 * x.pipDen
       ∃ u, exec (.pipWindowClose c t) s = .next u ∧ u.getF (R.tilPipGain c t) F.tilPipGainUsed = 0 ∧
         (u.tile c t).pipNum = 0 ∧ (u.tile c t).pipDen = 0 ∧
         (ok → u.getF (R.tilPipGain c t) F.tilPipGainRatio = (roundQ (x.pipNum * 2 ^ 14) x.pipDen.toNat).toNat % 2 ^ 16) ∧
         (¬ ok → u.isSet (R.tilStatus c t) F.tilStatusPipFail = true ∧
           u.reg (R.tilPipfEvt c t) = satInc (s.reg (R.tilPipfEvt c t)) 1))) ∧
    (∀ (hdr : BitVec 64) (vals : List Int), s.meshSource (hdrEntry hdr.toNat vals) = none →
      (let x := hdrEntry hdr.toNat vals
       (s.genOk x.ctx x.gen = true → s.freeAccs c ≠ [] →
         ∃ u e, exec (.meshPartialArrival c hdr vals) s = .next u ∧ e ∈ s.freeAccs c ∧
           u.accEntry c e = some { x with moved := true, token := 0, vals := (List.range 512).map (fun i => vals.getD i 0) } ∧
           (∀ c' e', accKey c' e' ≠ accKey c e → u.accEntry c' e' = s.accEntry c' e') ∧ s.regsBut u [R.accOcc c]) ∧
       (s.genOk x.ctx x.gen = false →
         ∃ u, exec (.meshPartialArrival c hdr vals) s = .next u ∧ u.isSet (R.accStatus c) F.accStatusStale = true ∧
           u.isSet R.dspStatus F.dspStatusStale = true ∧ u.reg (R.accStaleEvt c) = satInc (s.reg (R.accStaleEvt c)) 1 ∧
           u.reg R.dspStaleEvt = satInc (s.reg R.dspStaleEvt) 1 ∧ s.regsOnly u)))

/-! ### Calibration (R112 to R139) and programming (R78 to R111) -/

/-- A commit waits for its epoch; a shadow write sets the named trim of the shadow set alone; at the epoch the shadow set
becomes the active one; a commit that cal_epoch_min deferred, one that cal_epoch_max asks for, and feed-forward commit
(R113 to R115, R131 to R136, R139). -/
def Obligations.TrimsAndEpochs : Prop :=
  ∀ (s : State) (c : CoreIx) (t : TileIx) (v : Word),
    (s.domOn (3 * c.val) = true → s.commitPending c t = false →
      ∃ u, exec (.commit c t) s = .next u ∧ u.commitPending c t = true ∧ (u.tile c t).commitAt = s.timeUs ∧
        (u.tile c t).act = (s.tile c t).act ∧ (u.tile c t).shd = (s.tile c t).shd ∧ s.regsBut u [R.calTileCtrl c t]) ∧
    (s.domOn (3 * c.val) = false ∨ s.commitPending c t = true → exec (.commit c t) s = .next s) ∧
    (let i := s.getF (R.calTrimSel c) F.calTrimSelIndex
     let gain := s.isSet (R.calTrimSel c) F.calTrimSelField
     s.domOn (3 * c.val) = true → s.getF (R.calTrimSel c) F.calTrimSelTile = t.val → i < 533 →
     (s.getF (R.calTrimSel c) F.calTrimSelBank = 0 → ∃ u, exec (.shadowWrite c v) s = .next u ∧
       u.isSet (R.calStatus c) F.calStatusBankErr = true ∧ u.reg (R.calBankEvt c) = satInc (s.reg (R.calBankEvt c)) 1 ∧
       s.regsBut u [R.calStatus c, R.calBankEvt c] ∧ s.regsOnly u) ∧
     (s.getF (R.calTrimSel c) F.calTrimSelBank ≠ 0 → s.commitPending c t = false → ¬ (gain = true ∧ 512 ≤ i ∧ i < 528) →
       ∃ u, exec (.shadowWrite c v) s = .next u ∧ trimGet (u.tile c t).shd (trimKey i gain) = v.toNat % 2 ^ trimWidth i ∧
         (∀ k, k ≠ trimKey i gain → trimGet (u.tile c t).shd k = trimGet (s.tile c t).shd k) ∧
         (u.tile c t).act = (s.tile c t).act ∧ u = { s with mc := u.mc }) ∧
     (s.getF (R.calTrimSel c) F.calTrimSelBank ≠ 0 → s.commitPending c t = true →
       ∃ u, exec (.shadowWrite c v) s = .next u ∧ u.isSet (R.calStatus c) F.calStatusShadowBusy = true ∧
         u.reg (R.calShbEvt c) = satInc (s.reg (R.calShbEvt c)) 1 ∧ s.regsOnly u)) ∧
    (s.commitPending c t = true → (s.tile c t).whole = true → ∃ u, exec (.epochBoundary c t) s = .next u ∧
      (u.tile c t).act = (s.tile c t).shd ∧ (u.tile c t).shd = (s.tile c t).shd ∧ u.commitPending c t = false ∧
      u.reg (R.calEpoch c t) = satInc (s.reg (R.calEpoch c t)) 1) ∧
    ((s.tile c t).runs = [] → (s.tile c t).whole = true) ∧
    (s.commitPending c t = false ∨ (s.tile c t).whole = false → exec (.epochBoundary c t) s = .next s) ∧
    (s.commitFree c t = true → (s.tile c t).wantRatio.isSome = true ∨ (s.tile c t).wantCommit = true →
      ∃ u, exec (.epochMinWait c t) s = .next u ∧ u.commitPending c t = true ∧ (u.tile c t).commitAt = s.timeUs ∧
        (u.tile c t).wantRatio = none ∧ (u.tile c t).wantCommit = false) ∧
    (s.tileTracked c t = true → s.commitPending c t = false →
      (s.tile c t).commitAt + 1000000 * s.tuneP P.tuneCalEpochMax ≤ s.timeUs →
      ∃ u, exec (.calEpochMax c t) s = .next u ∧ u.commitPending c t = true ∧ (u.tile c t).shd = (s.tile c t).act ∧
        (u.tile c t).act = (s.tile c t).act ∧ s.regsBut u [R.calTileCtrl c t]) ∧
    (c.val ∈ s.thm.slewing → s.tileTracked c t = true → s.commitFree c t = true →
      ∃ u, exec (.feedForward c) s = .next u ∧ u.commitPending c t = true ∧ (u.tile c t).commitAt = s.timeUs) ∧
    (c.val ∉ s.thm.slewing → exec (.feedForward c) s = .next s)

/-- A gap task that is due starts to collect its gaps, 64 for offsets and references and 128 for gains; a gain sweep waits
while the flash is written; a tile that saw no natural gap for 125,000 cycles gets a forced one; a task with its gaps commits
its trims (R134 to R136, R139). Rests in part on the model's own choice: assumption 54. -/
def Obligations.GapTasks : Prop :=
  ∀ (s : State) (c : CoreIx) (t : TileIx), s.tileTracked c t = true →
    (let x := s.tile c t
     let due := fun (k : Nat) => x.gaps.any (fun g => g.kind == k) = false ∧ x.gapStart.getD k 0 + s.gapPeriod k ≤ s.timeUs
     let started := fun (u : State) (k n : Nat) => u = { s with mc := u.mc } ∧
       u.tile c t = { x with gaps := x.gaps ++ [⟨k, n⟩], gapStart := (u.tile c t).gapStart } ∧
       (u.tile c t).gapStart.getD k 0 = s.timeUs
     (due 0 → ∃ u, exec (.offsetUpdate c t) s = .next u ∧ started u 0 64) ∧
     (due 1 → ∃ u, exec (.referenceSweep c t) s = .next u ∧ started u 1 64) ∧
     (due 2 → s.flashBusy = false → ∃ u, exec (.gainSweep c t) s = .next u ∧ started u 2 128) ∧
     (s.flashBusy = true → exec (.gainSweep c t) s = .next s) ∧
     (x.gapAt + 125000 ≤ s.pwr.cycle → ∃ u, exec (.forcedGap c t) s = .next u ∧ u.tile c t = { x with forced := true } ∧
       u = { s with mc := u.mc }) ∧
     (∀ (g : GapRun) (trims : List TrimVal), x.gaps.find? (fun g => g.left == 0) = some g → s.commitPending c t = false →
       ∃ u, exec (.gapTaskComplete c t trims false) s = .next u ∧
         (u.tile c t).gaps = x.gaps.filter (fun h => h.kind != g.kind) ∧
         (u.tile c t).shd = putTrims x.shd (trims.filter (trimOfKind g.kind)) ∧ (u.tile c t).act = x.act ∧
         (u.tile c t).gapDone.getD g.kind 0 = s.timeUs ∧
         (s.commitFree c t = true → u.commitPending c t = true) ∧
         (s.commitFree c t = false → (u.tile c t).wantCommit = true)))

/-- A tile in UNCAL whose factory values and pips stand enters CAL or BELOW by its fidelity, or SPARE, with the trims found
in force; without them it is handled as retired. The last tile completes the calibration; the cache is written when its
period has passed (R123, R125, R129, R130, R137). Rests in part on the model's own choices: assumptions 53, 54, 55, 57. -/
def Obligations.TileCalibration : Prop :=
  ∀ (s : State) (c : CoreIx) (t : TileIx) (r : CalResult), s.tileState c t = 1 → s.cal.running = true →
    (s.tile c t).retired = false → s.jobOf (tileKey c t) = none →
    ((s.tile c t).fac.ok = true → r.factoryOk = true → r.pipsOk = true → r.nWeak = 0 → r.sigOk = true → r.clamped = false →
      ∃ u, exec (.tileCalibrated c t r) s = .next u ∧
        u.tileState c t = (if 64 ≤ t.val ∧ s.isSet (R.tilState c t) F.tilStateSubst = false then 6
          else if r.fid.toNat < s.thresh c then 3 else 2) ∧
        u.getF (R.tilFidelity c t) F.tilFidelityFid = r.fid.toNat ∧ u.isSet (R.tilFidelity c t) F.tilFidelityValid = true ∧
        u.isSet (R.calTileInfo c t) F.calTileInfoFactoryOk = true ∧ (u.tile c t).act = (u.tile c t).shd ∧
        u.reg (R.calEpoch c t) = satInc (s.reg (R.calEpoch c t)) 1 ∧
        u.getF (R.tilRange c t) F.tilRangeStep = 0) ∧
    (r.factoryOk = false → exec (.tileCalibrated c t r) s = .next (s.calibBad c t E.calFactoryCrc)) ∧
    (r.factoryOk = true → (s.tile c t).fac.ok = true → r.pipsOk = false →
      exec (.tileCalibrated c t r) s = .next (s.calibBad c t E.calPipLadder)) ∧
    (s.calibDue = true → s.sys.boot = none → s.namedStart = none → s.sys.leaving = false →
      ∃ u, exec .calibrationComplete s = .next u ∧ u.cal.complete = true ∧ u.cal.running = false ∧
        u.isSet R.calSummary F.calSummaryValid = true ∧ s.regsBut u [R.calSummary, R.calWorst, R.calCounts]) ∧
    (s.cal.complete = true → s.getF R.pwrState F.pwrStateState = 0 → s.isSet R.thmLevel F.thmLevelStopping = false →
      s.cal.cacheAt + s.tuneP P.tuneCachePeriod * 3600000000 ≤ s.timeUs →
      ∃ u, exec .cacheWrite s = .next u ∧ u = s.writeCache ∧ u.cal.cacheAt = s.timeUs)

/-- The lowest BELOW tile that may refresh opens a refresh job; the pump arbiter admits the oldest waiting tile within its
budget and its cap, to a write pass in PROG or to its second pass; a pass of 2,176 batches settles after writing, and ends in
UNCAL after its second pass; a settled tile waits again after 100 ms; a requested mapping switch waits for whole inputs, then
the new tile takes over; an archive slot is loaded and checked (R79 to R88, R98 to R100, R110). Rests in part on the model's
own choices: assumptions 58, 91. -/
def Obligations.ProgrammingRows : Prop :=
  ∀ s : State,
    (∀ x y : Nat, s.refreshPick = some (x, y) → s.refreshes none < s.tuneP P.tuneRefreshMaxDev → s.progHeld = false →
      (∀ c, c < 16 → s.reliefUsed c < 4) →
      exec .refreshStart s = .next ((s.setPTile y { s.pTile y with fails := 0 }).openJob (.refresh x y) [y, x])) ∧
    (∀ (c : CoreIx) (t : TileIx) (r : ProgRun), s.pumpHead = some (tileKey c t, r) →
      (s.pumpFits (tileKey c t) r = false ∨ s.progHeld = true → exec .pumpAdmission s = .next s) ∧
      (s.pumpFits (tileKey c t) r = true → s.progHeld = false → r.phase ≠ 0 → ∃ u, exec .pumpAdmission s = .next u ∧
        (u.tile c t).prog = some { r with phase := 4, batch := 0, failed := 0, running := true } ∧ u = { s with mc := u.mc }) ∧
      (∀ n j l a, s.pumpFits (tileKey c t) r = true → s.progHeld = false → r.phase = 0 → s.jobOf (tileKey c t) = some (n, j) →
        s.jobLogical j (tileKey c t) = some l → s.slotReady l = some a → ∃ u, exec .pumpAdmission s = .next u ∧
          u.tileState c t = 4 ∧ u.isSet (R.tilCtrl c t) F.tilCtrlIssueEn = false ∧ u.commitPending c t = false ∧
          (u.tile c t).prog = some { r with phase := 1, batch := 0, running := true } ∧ (u.tile c t).q = [] ∧
          (u.tile c t).holds = some l ∧ (u.tile c t).stale = true ∧
          s.regsBut u [R.tilCtrl c t, R.tilState c t, R.tilSummary c, R.calTileCtrl c t])) ∧
    (∀ (c : CoreIx) (t : TileIx) (failed : Nat) (r : ProgRun), (s.tile c t).prog = some r → r.running = true →
      (r.batch + 1 < 2176 → r.phase = 1 → ∃ u, exec (.batchComplete c t failed) s = .next u ∧
        u.tile c t = { s.tile c t with prog := some { r with batch := r.batch + 1, running := !s.progHeld } } ∧
        u = { s with mc := u.mc }) ∧
      (r.batch + 1 < 2176 → r.phase = 4 → ∃ u, exec (.batchComplete c t failed) s = .next u ∧
        u.tile c t = { s.tile c t with
          prog := some { r with batch := r.batch + 1, failed := r.failed + failed, running := !s.progHeld } } ∧
        u = { s with mc := u.mc }) ∧
      (r.batch + 1 = 2176 → r.phase = 1 → ∃ u, exec (.batchComplete c t failed) s = .next u ∧
        u.tile c t = { s.tile c t with cycles := (s.tile c t).cycles + 1, prog := some ⟨2, 0, 0, s.timeUs, false⟩ }) ∧
      (r.batch + 1 = 2176 → r.phase = 4 → r.failed + failed ≤ 64 → ∃ u, exec (.batchComplete c t failed) s = .next u ∧
        u.tileState c t = 1 ∧ (u.tile c t).prog = none ∧ (u.tile c t).stale = false ∧
        s.regsBut u [R.tilState c t, R.tilSummary c])) ∧
    (∀ (c : CoreIx) (t : TileIx) (r : ProgRun), (s.tile c t).prog = some r → r.phase = 2 →
      (s.timeUs < r.since + 100000 → exec (.settleAndReverify c t) s = .next s) ∧
      (r.since + 100000 ≤ s.timeUs →
        (let u := s.setTile c t { s.tile c t with prog := some { r with phase := 3, since := s.timeUs } }
         (∀ q, u.pumpHead = some (tileKey c t, q) → exec (.settleAndReverify c t) s = .next u.pumpAdmit) ∧
         ((∀ q, u.pumpHead ≠ some (tileKey c t, q)) → exec (.settleAndReverify c t) s = .next u)))) ∧
    (∀ (c c' : CoreIx) (t t' : TileIx) (l : Nat), tileKey c t ≠ tileKey c' t' →
      s.cal.switches.find? (fun e => s.placeL e.1 == tileKey c t) = some (l, tileKey c' t') →
      ((s.tile c t).whole = false → exec (.mappingSwitch c t) s = .next s) ∧
      ((s.tile c t).whole = true → s.cal.jobs = [] → ∃ u, exec (.mappingSwitch c t) s = .next u ∧
        u.placeL l = tileKey c' t' ∧ (u.tile c' t').q = (s.tile c' t').q ++ (s.tile c t).q ∧ (u.tile c t).q = [] ∧
        u.isSet (R.tilCtrl c' t') F.tilCtrlIssueEn = true ∧ u.isSet (R.tilCtrl c t) F.tilCtrlIssueEn = false ∧
        u.getF (R.tilRange c' t') F.tilRangeStep = s.getF (R.tilRange c t) F.tilRangeStep ∧
        u.cal.switches = s.cal.switches.filter (fun e => e != (l, tileKey c' t')))) ∧
    (∀ (l : Fin 1024) (k : Nat), s.stk.arcPkg = some k → s.nextSlot = some l.val → s.stk.built = true → s.cal.modelWait = none →
      slotCode true true (s.flashTile k l) l = 0 →
      (∃ l', l' < s.arcTiles ∧ l' ≠ l.val ∧ s.stk.slots.get? l' = none) →
      ∃ u, exec (.archiveSlotLoad l true true true) s = .next u ∧
        u.stk.slots.get? l = some ⟨true, true, s.flashTile k l⟩ ∧ (∀ x, x ≠ l.val → u.stk.slots.get? x = s.stk.slots.get? x) ∧
        u = { s with stk := { s.stk with slots := u.stk.slots } })

/-! ### The monitor (R357 to R377) -/

/-- What starts a converter's work: a trigger, soft or on the selected edge, starts the selected channel or entry 0 of the
sequence, or is counted as an overrun in single mode; urgent and self-calibration put the converter's own work aside;
MON_CV_CTRL takes legal fields and logs others; a snapshot copies a channel's accumulator and clears its trackers (R361 to
R363, R367, R368, R371, R374, R376). Rests in part on the model's own choice: assumption 72. -/
def Obligations.MonitorStarts : Prop :=
  ∀ (s : State) (x : ConvIx), s.convPowered x = true →
    (s.convRuns x = false → exec (.softTrig x) s = .next s) ∧
    (s.convRuns x = true → s.convSeq x = false → s.convState x = 1 → ∃ u, exec (.softTrig x) s = .next u ∧
      u.convState x = 3 ∧ u.getF (R.monCvState x) F.monCvStateChan = s.getF (R.monCvChan x) F.monCvChanChan ∧
      s.regsBut u [R.monCvState x] ∧ s.regsOnly u) ∧
    (s.convRuns x = true → s.convSeq x = true → s.convState x = 1 → ∃ u, exec (.softTrig x) s = .next u ∧
      u.convState x = 3 ∧ u.getF (R.monCvState x) F.monCvStateEntry = 0 ∧
      u.getF (R.monCvState x) F.monCvStateChan = entryChan (s.reg (R.monSeq x 0)) ∧
      u.getF (R.monCvState x) F.monCvStateLeft = entryRepeat (s.reg (R.monSeq x 0)) ∧ s.regsBut u [R.monCvState x]) ∧
    (s.convRuns x = true → s.convSeq x = false → s.convState x ≠ 1 → ∃ u, exec (.softTrig x) s = .next u ∧
      u.isSet R.monStatus (if x.val = 0 then F.monStatusTrigOvrA else F.monStatusTrigOvrB) = true ∧
      u.reg (if x.val = 0 then R.monToaEvt else R.monTobEvt) = satInc (s.reg (if x.val = 0 then R.monToaEvt else R.monTobEvt)) 1 ∧
      u.convState x = s.convState x ∧ s.regsOnly u) ∧
    (∀ (pin : Fin 4) (rising : Bool), s.edgeTaken (1 - x.val) pin rising = false →
      (s.edgeTaken x pin rising = true → exec (.monTrigger pin rising) s = exec (.softTrig x) s) ∧
      (s.edgeTaken x pin rising = false → exec (.monTrigger pin rising) s = .next s)) ∧
    (s.isSet (R.monCvCmd x) F.monCvCmdUrgent = false → s.convState x < 4 → ∃ u, exec (.urgent x) s = .next u ∧
      u.isSet (R.monCvCmd x) F.monCvCmdUrgent = true ∧ u.convState x = 4 ∧
      u.getF (R.monCvState x) F.monCvStateChan = s.getF (R.monCvUrg x) F.monCvUrgChan ∧
      (s.convState x = 3 → (u.conv x).held = some (s.getF (R.monCvState x) F.monCvStateChan)) ∧
      s.regsBut u [R.monCvCmd x, R.monCvState x]) ∧
    (s.isSet (R.monCvCmd x) F.monCvCmdSelfcal = false → s.convState x < 4 → ∃ u, exec (.selfcal x) s = .next u ∧
      u.isSet (R.monCvCmd x) F.monCvCmdSelfcal = true ∧ u.convState x = 5 ∧
      u.getF (R.monCvState x) F.monCvStateChan = 31 ∧ s.regsBut u [R.monCvCmd x, R.monCvState x]) ∧
    (∀ w : Word, F.monCvCtrlRate.get w < 8 → F.monCvCtrlTrig.get w < 5 → F.monCvCtrlEdge.get w ≠ 3 →
      ∃ u, exec (.monCvCtrlWrite x w) s = .next u ∧
        (∀ f ∈ [F.monCvCtrlRun, F.monCvCtrlMode, F.monCvCtrlLp, F.monCvCtrlRate, F.monCvCtrlTrig, F.monCvCtrlEdge,
          F.monCvCtrlSeqLen], u.getF (R.monCvCtrl x) f = f.get w) ∧
        s.regsBut u [R.monCvCtrl x, R.monCvState x] ∧
        (s.convRuns x = false → F.monCvCtrlRun.get w = 1 → s.convState x < 4 → u.convState x = 1)) ∧
    (∀ w : Word, 8 ≤ F.monCvCtrlRate.get w ∨ 5 ≤ F.monCvCtrlTrig.get w ∨ F.monCvCtrlEdge.get w = 3 →
      ∃ d, exec (.monCvCtrlWrite x w) s = .next (s.report Src.device E.thmMonCfg (Rep.fw 3) d)) ∧
    (∀ (set : Fin 2) (w : Word), F.monSnapSelConv.get w = x.val → F.monSnapSelSnap.get w = 1 →
      (let ch := F.monSnapSelChan.get w
       let acc := (s.conv x).acc.getD ch (0, 0, 0)
       let trk := ((s.conv x).trk.get? (32 * set.val + ch)).getD (2 ^ 23 - 1, -(2 ^ 23))
       ∃ u, exec (.snap set w) s = .next u ∧
         u.regNat (R.monSnapSumLo set) = acc.1 % 2 ^ 32 ∧ u.regNat (R.monSnapSumHi set) = acc.1 / 2 ^ 32 % 2 ^ 32 ∧
         u.regNat (R.monSnapCount set) = (acc.2.1 + acc.2.2 * 2 ^ 16) % 2 ^ 32 ∧
         u.reg (R.monSnapMin set) = BitVec.ofInt 32 trk.1 ∧ u.reg (R.monSnapMax set) = BitVec.ofInt 32 trk.2 ∧
         (u.conv x).acc = (s.conv x).acc ∧ (u.conv x).trk.get? (32 * set.val + ch) = none))

/-- What a converter delivers: a result in range enters its channel's accumulator and the converter waits again in single
mode; one over range only counts; an urgent result gives the converter back; self-calibration sets the self factors or fails;
an entry's delay ends; the cross-check takes both converters when its period has passed (R361 to R371). Rests in part on the
model's own choice: assumption 72. -/
def Obligations.MonitorResults : Prop :=
  ∀ (s : State) (x : ConvIx), s.convPowered x = true →
    (let ch := s.getF (R.monCvState x) F.monCvStateChan
     ∀ (raw : Int) (overload : Bool), s.convState x = 3 → s.convSeq x = false →
       (let acc := (s.conv x).acc.getD ch (0, 0, 0)
        (s.overRange x raw overload = false → railBad ch (s.convResult x raw) = false →
          ∃ u, exec (.conversionResult x raw overload) s = .next u ∧
            (u.conv x).acc.getD ch (0, 0, 0) = ((((acc.1 : Int) + s.convResult x raw) % 2 ^ 48).toNat, (acc.2.1 + 1) % 2 ^ 16, acc.2.2) ∧
            u.convState x = 1 ∧ s.regsBut u [R.monCvState x]) ∧
        (s.overRange x raw overload = true →
          ∃ u, exec (.conversionResult x raw overload) s = .next u ∧
            (u.conv x).acc.getD ch (0, 0, 0) = (acc.1, acc.2.1, (acc.2.2 + 1) % 2 ^ 16) ∧ u.convState x = 1 ∧
            u.isSet R.monStatus (if x.val = 0 then F.monStatusOvrA else F.monStatusOvrB) = true))) ∧
    (∀ (raw : Int) (h : Nat), s.convState x = 4 → s.sys.railWait = none → s.convRuns x = true → (s.conv x).held = some h →
      h < 32 → s.isSet (R.monCvCmd x) F.monCvCmdSelfcal = false → s.mon.xWait = false → s.sys.ccUp = false →
      ∃ u, exec (.conversionResult x raw false) s = .next u ∧ u.isSet (R.monCvCmd x) F.monCvCmdUrgent = false ∧
        u.convState x = 3 ∧ u.getF (R.monCvState x) F.monCvStateChan = h) ∧
    (∀ zeros refs : List Int, zeros.length = 9 → refs.length = 9 → s.convState x = 5 →
      (let o := rneDiv zeros.sum 9
       let den := 10 * (refs.sum - 9 * o)
       let num : Int := 50331648 * 9
       let good := zeros.sum.natAbs ≤ 65536 * 9 ∧ 0 < den ∧ 95 * den ≤ num * 100 ∧ num * 100 ≤ 105 * den
       ∃ u, exec (.selfcalDone x zeros refs) s = .next u ∧ u.isSet (R.monCvCmd x) F.monCvCmdSelfcal = false ∧
         (good → u.reg (R.monCvOfsSelf x) = BitVec.ofInt 32 o ∧
           u.regNat (R.monCvGainSelf x) = (rneDiv (num * 2 ^ 30) den.toNat).toNat % 2 ^ 32) ∧
         (¬ good → u.isSet R.monStatus F.monStatusCalFail = true ∧ u.reg R.monCalfEvt = satInc (s.reg R.monCalfEvt) 1 ∧
           u.reg (R.monCvOfsSelf x) = s.reg (R.monCvOfsSelf x) ∧ u.reg (R.monCvGainSelf x) = s.reg (R.monCvGainSelf x)))) ∧
    (∀ d, (s.conv x).delayAt = some d →
      (s.timeUs < d → exec (.sequenceDelay x) s = .next s) ∧
      (d ≤ s.timeUs → s.convState x = 2 → ∃ u, exec (.sequenceDelay x) s = .next u ∧ u.convState x = 3 ∧
        u.getF (R.monCvState x) F.monCvStateChan = entryChan (s.conv x).entry ∧ s.regsBut u [R.monCvState x])) ∧
    (let per := s.getF R.monXchkCfg F.monXchkCfgPeriod
     per ≠ 0 → s.mon.xAt + per * 1000000 ≤ s.timeUs →
     (s.xchkSkipped = true → exec .crossCheck s = .next { s with mon := { s.mon with xAt := s.timeUs } }) ∧
     (s.xchkSkipped = false → s.convTaken 0 = true → exec .crossCheck s =
       .next { s with mon := { s.mon with xAt := s.timeUs, xWait := true } }) ∧
     (s.xchkSkipped = false → s.convTaken 0 = false → s.convTaken 1 = false → ∃ u, exec .crossCheck s = .next u ∧
       (∀ y, y < 2 → u.convState y = 6 ∧ u.getF (R.monCvState y) F.monCvStateChan = s.getF R.monXchkCfg F.monXchkCfgChan) ∧
       u.mon.xAt = s.timeUs ∧ s.regsBut u [R.monCvState 0, R.monCvState 1]))

/-! ### Power (R378 to R386, R391) and temperature (R387 to R394) -/

/-- A wake request joins the queue; the queue's head starts to ramp once its weight fits the inrush budget, else inrush_wait is
set; power-good leaves its registers at their reset values; twice the ramp without it switches it off with dom_fail; a gate
request waits for a ramp, else it switches the domain off (R379, R380). -/
def Obligations.DomainSequencer : Prop :=
  ∀ (s : State) (d : DomIx),
    (s.domOn d = false → d.val ∉ s.pwr.queue → s.pwr.ramping.get? d.val = none → ∃ u, exec (.domainWakeRequest d) s = .next u ∧
      u.pwr = { s.pwr with queue := s.pwr.queue ++ [d.val] } ∧ bit (u.regNat (R.pwrDomReq (d.val / 32))) (d.val % 32) = true ∧
      s.regsBut u [R.pwrDomReq (d.val / 32), R.pwrState]) ∧
    (s.domOn d = true → ∃ u, exec (.domainWakeRequest d) s = .next u ∧
      bit (u.regNat (R.pwrDomReq (d.val / 32))) (d.val % 32) = true ∧ s.regsBut u [R.pwrDomReq (d.val / 32)] ∧ s.regsOnly u) ∧
    (s.domOn d = true → s.pwr.ramping.get? d.val = none → s.domStep d s.pwr.gated = false → (d.val < 52 ∨ 60 ≤ d.val) →
      ∃ u, exec (.domainGate d) s = .next u ∧ u.domOn d = false ∧
        bit (u.regNat (R.pwrDomReq (d.val / 32))) (d.val % 32) = false) ∧
    (∀ at_, s.pwr.ramping.get? d.val = some at_ → d.val ∉ s.pwr.gateAfter → ∃ u, exec (.domainGate d) s = .next u ∧
      u.pwr.gateAfter = s.pwr.gateAfter ++ [d.val] ∧ u.domOn d = s.domOn d ∧ u.pwr.ramping = s.pwr.ramping) ∧
    (∀ rest, s.pwr.queue = d.val :: rest → s.pwr.ramping.get? d.val = none → s.pwr.steps = [] →
      (let w := (s.pwr.ramping.map (fun e => (domSpec e.1).1)).foldl (· + ·) (domSpec d).1
       (w ≤ s.getF R.pwrInrushBudget F.pwrInrushBudgetValue → s.domStep d s.pwr.ramping = false →
         ∃ u, exec .domainWakeStart s = .next u ∧ u.pwr.ramping.get? d.val = some s.timeUs ∧ d.val ∉ u.pwr.queue ∧
           s.regsBut u [R.pwrState]) ∧
       (s.getF R.pwrInrushBudget F.pwrInrushBudgetValue < w → ∃ u, exec .domainWakeStart s = .next u ∧
         u.isSet R.pwrStatus F.pwrStatusInrushWait = true ∧ u.reg R.pwrInrEvt = satInc (s.reg R.pwrInrEvt) 1 ∧
         s.regsBut u [R.pwrStatus, R.pwrInrEvt] ∧ s.regsOnly u))) ∧
    (s.pwr.ramping.get? d.val = none → exec (.domainAwake d) s = .next s) ∧
    (∀ at_, s.pwr.ramping.get? d.val = some at_ → d.val ∉ s.pwr.gateAfter → s.sys.leaving = false →
      exec (.domainAwake d) s = .next (((s.rampEnd d).fwInit d).standbyAwake) ∧ (s.rampEnd d).domOn d = true ∧
      ((48 ≤ d.val ∨ d.val % 3 ≠ 0) → ∀ a, domainOf a = some d.val → (s.rampEnd d).reg a = resetValue s.part a)) ∧
    (∀ at_, s.pwr.ramping.get? d.val = some at_ → s.sys.leaving = false →
      (s.timeUs < at_ + 2 * (domSpec d).2.1 → exec (.domainWakeFail d) s = .next s) ∧
      (at_ + 2 * (domSpec d).2.1 ≤ s.timeUs → 60 ≤ d.val → ∃ u, exec (.domainWakeFail d) s = .next u ∧ u.domOn d = false ∧
        u.isSet R.pwrStatus F.pwrStatusDomFail = true ∧ u.reg R.pwrDomfEvt = satInc (s.reg R.pwrDomfEvt) 1 ∧
        u.pwr.ramping.get? d.val = none))

/-- A planned step waits for the handshake where it exceeds load_step_a, and is made on LOAD_STEP_ACK, or after load_step_to
with PWR_STATUS.noack and the slew guard cut for 1 ms; LOAD_STEP_REQ falls 100 µs after the step (R386). -/
def Obligations.LoadStepHandshake : Prop :=
  ∀ s : State,
    (s.domOn 66 = false → exec .dispEn s = .next s) ∧
    (s.domOn 66 = true → s.bigStep = false → s.laneStarted = false → ∃ u, exec .dispEn s = .next u ∧
      u.isSet R.dspCtrl F.dspCtrlDispEn = true ∧ s.regsBut u [R.dspCtrl] ∧ s.regsOnly u) ∧
    (s.domOn 66 = true → s.bigStep = true → PlanStep.dispEn ∉ s.pwr.steps → s.pwr.ack = false → s.pwr.reqAt = none →
      ∃ u, exec .dispEn s = .next u ∧ u.pwr.steps = s.pwr.steps ++ [.dispEn] ∧ u.pwr.reqAt = some s.timeUs ∧
        u.wire = .pin "LOAD_STEP_REQ" true :: s.wire ∧ u.regs = s.regs) ∧
    (s.pwr.reqAt = none → exec .loadStepAck s = .next { s with pwr := { s.pwr with ack := true } }) ∧
    (∀ at_, s.pwr.reqAt = some at_ → s.pwr.madeAt = none → s.pwr.steps = [.dispEn] → s.laneStarted = false →
      (∃ u, exec .loadStepAck s = .next u ∧ u.pwr = { s.pwr with ack := true, steps := [], madeAt := some s.timeUs } ∧
        u.isSet R.dspCtrl F.dspCtrlDispEn = true ∧ s.regsBut u [R.dspCtrl]) ∧
      (at_ + s.getF R.pwrLoadstep F.pwrLoadstepTimeout ≤ s.timeUs → ∃ u, exec .loadStepTimeout s = .next u ∧
        u.pwr = { s.pwr with steps := [], madeAt := some s.timeUs, cutAt := some s.timeUs } ∧
        u.isSet R.dspCtrl F.dspCtrlDispEn = true ∧ u.isSet R.pwrStatus F.pwrStatusNoack = true ∧
        u.reg R.pwrNoackEvt = satInc (s.reg R.pwrNoackEvt) 1) ∧
      (s.timeUs < at_ + s.getF R.pwrLoadstep F.pwrLoadstepTimeout → exec .loadStepTimeout s = .next s)) ∧
    (∀ at_ made, s.pwr.reqAt = some at_ → s.pwr.madeAt = some made → made + 100 ≤ s.timeUs → s.pwr.steps = [] →
      exec .loadStepReqDeassert s = .next { s with
        pwr := { s.pwr with reqAt := none, madeAt := none }, wire := .pin "LOAD_STEP_REQ" false :: s.wire }) ∧
    (s.pwr.steps = [] → exec .loadStepAckDeassert s = .next { s with pwr := { s.pwr with ack := false } }) ∧
    (s.pwr.steps ≠ [] → s.pwr.reqAt = none → ∃ u, exec .loadStepAckDeassert s = .next u ∧ u.pwr.ack = false ∧
      u.pwr.reqAt = some s.timeUs ∧ u.wire = .pin "LOAD_STEP_REQ" true :: s.wire ∧ u.regs = s.regs) ∧
    (∀ at_, s.pwr.cutAt = some at_ →
      (at_ + 1000 ≤ s.timeUs → exec .slewRecover s = .next { s with pwr := { s.pwr with cutAt := none } }) ∧
      (s.timeUs < at_ + 1000 → exec .slewRecover s = .next s))

/-- Readings in range are what THM_TEMP reads, and THM_MAX holds the highest with a sensor that reads it (R387, R389). At level
1 the throttle goes to 2 after 10 ms at THM_THR and comes down after 10 ms below; the mean power above PWR_LIMIT throttles,
and stops after 10 ms below 95% of it (R390, R391). -/
def Obligations.ThermalThrottle : Prop :=
  ∀ s : State,
    (∀ ts : List Int, ts.length = 68 → (∀ t ∈ ts, -55 * 64 < t ∧ t < 108 * 64) → (∀ i, i < 68 → s.sensorFailed i = false) →
      ∃ u i, exec (.temperatureConversion ts) s = .next u ∧ (∀ j, j < 68 → u.sensor j = ts.getD j 0) ∧ i < 68 ∧
        (∀ j, j < 68 → ts.getD j 0 ≤ ts.getD i 0) ∧ sext 16 (u.getF R.thmMax F.thmMaxTemp) = ts.getD i 0 ∧
        u.getF R.thmMax F.thmMaxSensor = i) ∧
    (∀ at_, s.thm.hotAt = some at_ → s.thm.level = 1 →
      (at_ + 10000 ≤ s.timeUs → ∃ u, exec .throttleEscalate s = .next u ∧ u.thm.level = 2 ∧
        u.getF R.thmLevel F.thmLevelLevel = 2) ∧
      (s.timeUs < at_ + 10000 → exec .throttleEscalate s = .next s)) ∧
    (∀ at_, s.thm.coolAt = some at_ → s.thm.level = 2 →
      (at_ + 10000 ≤ s.timeUs → ∃ u, exec .throttleLower s = .next u ∧ u.thm.level = 1 ∧
        s.regsBut u [R.thmLevel, R.thmStatus, R.thmThrEvt, R.thmL2Evt]) ∧
      (s.timeUs < at_ + 10000 → exec .throttleLower s = .next s)) ∧
    (∀ at_, s.thm.coldAt = some at_ → s.thm.level = 1 → at_ + 10000 ≤ s.timeUs → s.bigStep = false →
      s.isSet R.thmLevel F.thmLevelPower = false → s.isSet R.thmLevel F.thmLevelStopping = false →
      ∃ u, exec .throttleLower s = .next u ∧ u.thm.level = 0 ∧ u.getF R.thmLevel F.thmLevelLevel = 0 ∧ u.divider = 1) ∧
    (∀ mean : BitVec 16,
      (mean.toNat ≤ 100 * s.getF R.pwrLimit F.pwrLimitValue → ∃ u, exec (.powerEstimate mean) s = .next u ∧
        u.getF R.pwrEst F.pwrEstMw10 = mean.toNat ∧ s.regsBut u [R.pwrEst]) ∧
      (100 * s.getF R.pwrLimit F.pwrLimitValue < mean.toNat → s.isSet R.thmLevel F.thmLevelPower = false →
        ∃ u, exec (.powerEstimate mean) s = .next u ∧ u.getF R.pwrEst F.pwrEstMw10 = mean.toNat ∧
          u.isSet R.thmLevel F.thmLevelPower = true ∧ 1 ≤ u.getF R.thmLevel F.thmLevelLevel ∧
          u.isSet R.pwrStatus F.pwrStatusPlimit = true ∧ u.reg R.pwrPlimEvt = satInc (s.reg R.pwrPlimEvt) 1)) ∧
    (∀ at_, s.pwr.lowAt = some at_ → s.isSet R.thmLevel F.thmLevelPower = true → s.bigStep = false →
      (at_ + 10000 ≤ s.timeUs → ∃ u, exec .powerLimitEnd s = .next u ∧ u.isSet R.thmLevel F.thmLevelPower = false ∧
        s.regsBut u [R.thmLevel, R.thmStatus, R.thmThrEvt, R.thmL2Evt]) ∧
      (s.timeUs < at_ + 10000 → exec .powerLimitEnd s = .next s))

/-- An orderly stop drains for 5 ms, then gates the domains and reaches STOPPED; a trip at 118 °C reaches STOPPED at once,
whatever runs, with the Stacks lost; STANDBY is entered after idle_standby_s without a started lane, with the Stacks in
self-refresh; rails out of range for 100 ms refuse a wake (R382, R383, R392, R394, R502). Rests in part on the model's own
choices: assumptions 73, 82. -/
def Obligations.PowerStates : Prop :=
  ∀ s : State,
    (∀ at_, s.thm.stopAt = some at_ → s.thm.drained = false →
      (s.timeUs < at_ + 5000 → exec .orderlyStopDrain s = .next s) ∧
      (at_ + 5000 ≤ s.timeUs → ∃ u, exec .orderlyStopDrain s = .next u ∧ u.thm.drained = true ∧
        u = { (((s.loseTokens (fun _ _ => true)).enterSafe 1).faultSummary E.thmStop) with thm := u.thm }) ∧
      exec .stopComplete s = .next s) ∧
    (∀ at_, s.thm.stopAt = some at_ → s.thm.drained = true → ∃ u, exec .stopComplete s = .next u ∧
      u.getF R.pwrState F.pwrStateState = 3 ∧ u.thm.stopAt = none ∧ u.stk.built = false ∧ u.stk.folios = []) ∧
    (∀ (i : Fin 68) (t : Int), s.sensorFailed i = false →
      (118 * 64 ≤ t → ∃ u, exec (.hardTrip i t) s = .next u ∧ u.getF R.pwrState F.pwrStateState = 3 ∧
        u.isSet R.thmLevel F.thmLevelStopping = true ∧ u.thm.tripN = true ∧ u.thm.stopAt = none ∧
        u.stk.built = false ∧ u.stk.folios = []) ∧
      (t < 118 * 64 → exec (.hardTrip i t) s = .next s)) ∧
    (∀ at_, s.pwr.idleAt = some at_ → 0 < s.pwrP P.pwrIdleStandbyS → s.mayIdle = true →
      (at_ + 1000000 * s.pwrP P.pwrIdleStandbyS ≤ s.timeUs → ∃ u, exec .idleStandby s = .next u ∧
        u.getF R.pwrState F.pwrStateState = 1 ∧ u.stk.selfRefresh = true ∧ u.cal.jobs = [] ∧ u.cal.complete = false) ∧
      (s.timeUs < at_ + 1000000 * s.pwrP P.pwrIdleStandbyS → exec .idleStandby s = .next s)) ∧
    (∀ at_, s.sys.railWait = some at_ →
      (s.timeUs < at_ + 100000 → exec .railWaitTimeout s = .next s) ∧
      (at_ + 100000 ≤ s.timeUs → s.sys.railCmd = none → ∃ u, exec .railWaitTimeout s = .next u ∧ u.sys.railWait = none ∧
        u.sys.railLeft = []))

/-! ### The dispatcher (R276 to R293) and its instances -/

/-- A running context is suspended, saved once its instances and slices are done, and resumed; a teardown raises the
generation and enters TEARING, at most once a millisecond; it ends when no request is outstanding, in LOADED with td_done, or
after 2 ms in FAULTED (R287 to R293). Rests in part on the model's own choice: assumption 46. -/
def Obligations.ContextRows : Prop :=
  ∀ (s : State) (x : CtxIx),
    (s.ctxState x = 2 → ∃ u, exec (.suspend x) s = .next u ∧ u.isSet (R.dspCxCtrl x) F.dspCxCtrlSuspend = true ∧
      u.ctx x = { s.ctx x with saving := true } ∧ u.ctxState x = 2 ∧ s.regsBut u [R.dspCxCtrl x]) ∧
    (s.ctxState x ≠ 2 → exec (.suspend x) s = .next s) ∧
    ((s.ctx x).saving = true → s.ctxState x = 2 → s.saveReady x = true → ∃ u, exec (.save x) s = .next u ∧
      u.ctxState x = 6 ∧ (u.ctx x).saving = false) ∧
    (s.saveReady x = false → exec (.save x) s = .next s) ∧
    (s.ctxState x = 2 → ∃ u, exec (.resume x) s = .next u ∧ u.isSet (R.dspCxCtrl x) F.dspCxCtrlSuspend = false ∧
      u.ctx x = { s.ctx x with saving := false, saved := [], kept := [] } ∧ s.regsBut u [R.dspCxCtrl x]) ∧
    (s.ctxState x = 6 → exec (.resume x) s = .next (((((s.ctx x).saved.foldl (fun t c => t.restoreCore x c) s).dropSave x).setF
      (R.dspCxState x) F.dspCxStateState 2).settle x)) ∧
    (s.domOn 66 = true → s.ctxState x ≠ 0 → s.ctxState x ≠ 4 → s.ctxState x ≠ 5 → (s.ctx x).tdWait = false →
      (∀ at_, (s.ctx x).genAt = some at_ → s.timeUs < at_ + 1000 → ∃ u, exec (.teardown x) s = .next u ∧
        (u.ctx x).tdWait = true ∧ u.isSet (R.dspCxCtrl x) F.dspCxCtrlTeardown = true ∧ u.ctxState x = s.ctxState x ∧
        u.ctxGen x = s.ctxGen x) ∧
      ((s.ctx x).genAt = none → exec (.teardown x) s = .next (s.startTeardown x)) ∧
      ((s.ctx x).genAt = none → s.dsp.insts = [] → s.dsp.tokens = [] → s.ctxLanes x = [] →
        ∃ u, exec (.teardown x) s = .next u ∧ u.ctxState x = 4 ∧ u.ctxGen x = (s.ctxGen x + 1) % 16 ∧
          (u.ctx x).genAt = some s.timeUs ∧ u.isSet (R.dspCxCtrl x) F.dspCxCtrlTeardown = true)) ∧
    (s.domOn 66 = true → s.ctxState x = 0 ∨ s.ctxState x = 5 →
      exec (.teardown x) s = .next (s.report (Src.ctx x) E.dspCtxState Rep.dispatcher)) ∧
    (s.domOn 66 = false → exec (.teardown x) s = .next s) ∧
    (∀ at_, (s.ctx x).genAt = some at_ → (s.ctx x).tdWait = true →
      (s.timeUs < at_ + 1000 → exec (.teardownDeferred x) s = .next s) ∧
      (at_ + 1000 ≤ s.timeUs →
        exec (.teardownDeferred x) s = .next ((s.setCtx x { s.ctx x with tdWait := false }).startTeardown x))) ∧
    (s.ctxState x = 4 → s.outstanding x = 0 → ∃ u, exec (.teardownComplete x) s = .next u ∧ u.ctxState x = 1 ∧
      u.isSet (R.dspCxCtrl x) F.dspCxCtrlTeardown = false ∧ u.isSet (R.dspCxState x) F.dspCxStateTdDone = true) ∧
    (s.ctxState x ≠ 4 ∨ s.outstanding x ≠ 0 → exec (.teardownComplete x) s = .next s) ∧
    (s.ctxState x = 4 → s.rcvP P.rcvFaultedCtxDrr ≠ 1 →
      ((s.ctx x).tdAt + 2000 ≤ s.timeUs → exec (.teardownTimeout x) s = .next (s.ctxFaulted x)) ∧
      ((s.ctx x).tdAt + 2000 ≤ s.timeUs → s.heldBy x = [] → ∃ u, exec (.teardownTimeout x) s = .next u ∧ u.ctxState x = 5 ∧
        u.isSet R.dspStatus F.dspStatusTdFault = true ∧ u.reg R.dspTdfEvt = satInc (s.reg R.dspTdfEvt) 1) ∧
      (s.timeUs < (s.ctx x).tdAt + 2000 → exec (.teardownTimeout x) s = .next s))

/-- A ready queue releases its first instance when the dispatcher is enabled and the engine is free; an instance completes
with what its operation writes, one with an old generation is discarded and counted; a decision commits its action to the
object; a gathered task closes after gather_wait; an instance whose timeout has expired is timed out (R276, R278, R283, R285,
R289, R311). Rests in part on the model's own choices: assumptions 44, 45. -/
def Obligations.InstanceRows : Prop :=
  ∀ s : State,
    (∀ (c : CoreIx) (e : EngIx),
      (s.isSet R.dspCtrl F.dspCtrlDispEn = false ∨ s.engFenced c e = true ∨ s.engBusy c e = true →
        exec (.instanceRelease c e) s = .next s) ∧
      (∀ i x, s.isSet R.dspCtrl F.dspCtrlDispEn = true → s.engFenced c e = false → s.engBusy c e = false →
        s.nextReady c e = some (i, x) → s.dsp.gathers.get? x.group = none →
        exec (.instanceRelease c e) s = .next (s.releaseInst i x))) ∧
    (∀ (i : Nat) (x : Inst) (t : TaskRec) (k : Token), s.inst i = some x → x.st = .running → s.instTask x = some t →
      s.token x.token = some k →
      (∀ op : InstOp, s.genOk x.ctx x.gen = true → opFits t.kind op = true → s.opReady i x op = true →
        exec (.instanceComplete i op) s =
          .next ((s.completes i x op).foldl (fun u j => u.complete j) (s.opEffect x t k op))) ∧
      (∀ op : InstOp, s.genOk x.ctx x.gen = true → opFits t.kind op = false ∨ s.opReady i x op = false →
        exec (.instanceComplete i op) s = .next s) ∧
      (∀ op : InstOp, s.genOk x.ctx x.gen = false → exec (.instanceComplete i op) s =
        .next (((s.removeInst i).raise R.dspStatus F.dspStatusStale R.dspStaleEvt).settle x.ctx)) ∧
      (∀ (call a : Nat) (top : List TopEntry) (isFloat : Bool), t.kind = 7 → s.genOk x.ctx x.gen = true → k.call = some call →
        (s.decideAction k.lane isFloat top = some (some a) →
          exec (.decide i isFloat top) s = .next ((s.commitCall k.lane call a).complete i)) ∧
        (s.decideAction k.lane isFloat top = some none →
          exec (.decide i isFloat top) s = .next ((s.report (Src.lane k.lane) E.actClassRange Rep.dispatcher).complete i)) ∧
        (s.decideAction k.lane isFloat top = none → exec (.decide i isFloat top) s = .next (s.complete i))) ∧
      (x.since + s.regNat (R.dspBudget t.budget) ≤ s.timeUs → t.kind = 6 → ∃ u, exec (.taskTimeout i) s = .next u ∧
        u.isSet R.dspStatus F.dspStatusTimeout = true) ∧
      (x.since + s.regNat (R.dspBudget t.budget) ≤ s.timeUs → exec (.taskTimeout i) s = .next (s.timeOut x t k)) ∧
      (s.timeUs < x.since + s.regNat (R.dspBudget t.budget) → exec (.taskTimeout i) s = .next s)) ∧
    (∀ (x : CtxIx) (op copy g : Nat) (ga : Gather), s.dsp.gathers = [(g, ga)] → ga.ctx = x.val → ga.op = op →
      ga.copy = copy → ga.closed = false →
      (s.ctxP x P.ctxGatherWait ≤ 10 * (s.timeUs - ga.since) → exec (.gatherWait x op copy) s = .next (s.closeGather g)) ∧
      (10 * (s.timeUs - ga.since) < s.ctxP x P.ctxGatherWait → exec (.gatherWait x op copy) s = .next s))

/-! ### The Stacks (R244 to R268, R399) -/

/-- A request that completes leaves the counter of its context, and the last write of an append advances n_l; an error that
link ECC corrected is counted, one that it did not fails the request, as 50 µs without an answer do; scrub counts what it
corrects; a due folio is released, an open one is closed by force at open_max_lc, given-up pages return once every earlier
request is complete, and STK_FREE_LOW restarts (R244 to R246, R249, R257, R268, R291, R399). Rests in part on the model's own
choice: assumption 50. -/
def Obligations.StacksRows : Prop :=
  ∀ s : State,
    (∀ (n i : Nat) (r : Req), s.stk.reqs.get? n = some r → r.kind = .xfer i →
      ∃ u, exec (.stacksRequestComplete n .ok) s = .next u ∧ u.stk = { s.stk with reqs := s.stk.reqs.del n } ∧
        u.getF (R.dspCxOutstanding r.ctx) F.dspCxOutstandingCount =
          (s.outstanding r.ctx - 1) % 2 ^ F.dspCxOutstandingCount.width ∧ s.regsBut u [R.dspCxOutstanding r.ctx]) ∧
    (∀ (n a : Nat) (r : Req) (p : Append) (f : Folio), s.stk.reqs.get? n = some r → r.kind = .append a →
      s.genOk r.ctx r.gen = true → s.stk.appends.get? a = some p → p.left = 1 → s.folio p.call = some f →
      p.layer < f.layout.layers.length →
      ∃ u g, exec (.stacksRequestComplete n .ok) s = .next u ∧ u.stk.appends = s.stk.appends.del a ∧ u.folio p.call = some g ∧
        g = { f with nl := g.nl } ∧ g.nl.getD p.layer 0 = f.nl.getD p.layer 0 + p.count ∧
        (∀ l, l < f.layout.layers.length → l ≠ p.layer → g.nl.getD l 0 = f.nl.getD l 0)) ∧
    (∀ (n i k : Nat) (r : Req), s.stk.reqs.get? n = some r → r.kind = .xfer i →
      ∃ u, exec (.stacksRequestComplete n (.corrected k)) s = .next u ∧ u.stk.reqs = s.stk.reqs.del n ∧
        u.reg (R.stkChCe (pageChannel r.page)) = satInc (s.reg (R.stkChCe (pageChannel r.page))) k ∧
        u.reg R.stkCeTotal = satInc (s.reg R.stkCeTotal) k) ∧
    (∀ (n : Nat) (r : Req), s.stk.reqs.get? n = some r →
      exec (.stacksRequestComplete n .uncorrectable) s = .next (s.reqLost n) ∧
      (r.since + 50 ≤ s.timeUs → exec (.stacksRequestTimeout n) s = .next (s.reqLost n)) ∧
      (s.timeUs < r.since + 50 → exec (.stacksRequestTimeout n) s = .next s)) ∧
    (∀ (page : BitVec 20) (k : Nat), s.isSet R.stkCtrl F.stkCtrlScrubEn = true → page.toNat < s.topPage → s.stk.built = true →
      exec (.patrolScrub page .ok) s = .next s ∧
      (∃ u, exec (.patrolScrub page (.corrected k)) s = .next u ∧
        u.reg (R.stkChCe (pageChannel page.toNat)) = satInc (s.reg (R.stkChCe (pageChannel page.toNat))) k ∧
        u.reg R.stkCeTotal = satInc (s.reg R.stkCeTotal) k ∧
        s.regsBut u [R.stkChCe (pageChannel page.toNat), R.stkCeTotal] ∧ s.regsOnly u)) ∧
    (∀ (page : BitVec 20) (a : EccResult), s.isSet R.stkCtrl F.stkCtrlScrubEn = false →
      exec (.patrolScrub page a) s = .next s) ∧
    (∀ (call : BitVec 24) (f : Folio), s.folio call.toNat = some f →
      (f.due = true → s.firstDue call.toNat f = true → s.stk.selfRefresh = false →
        ∃ u, exec (.folioReleaseDue call) s = .next u ∧ u.folio call.toNat = none ∧
          (∀ c, c ≠ call.toNat → u.folio c = s.folio c) ∧
          u.getF R.stkLive F.stkLiveLive = (s.getF R.stkLive F.stkLiveLive - 1) % 2 ^ F.stkLiveLive.width ∧
          (∀ p ∈ f.pages, p ∉ s.stk.retired → (p, s.stk.nextReq) ∈ u.stk.giveUp)) ∧
      (f.due = false ∨ s.stk.selfRefresh = true → exec (.folioReleaseDue call) s = .next s) ∧
      (let k := callShelf call.toNat
       let p := f.start + BitVec.ofNat 48 (s.getF (R.stkShOpenMax k) F.stkShOpenMaxLc)
       (f.st = 1 → Pos.atOrAfter (s.shelfPos k) p = true → s.slotOfCall call.toNat = [] →
         ∃ u, exec (.folioForceClose call) s = .next u ∧ u.isSet R.stkStatus F.stkStatusForceClose = true ∧
           u.reg R.stkFcloseEvt = satInc (s.reg R.stkFcloseEvt) 1 ∧
           (Pos.atOrAfter (s.shelfPos k) (p + s.window k) = false → u.folio call.toNat =
             some { f with st := 2, closePos := p, relPos := p + s.window k, flags := Nat.lor f.flags 8 })) ∧
       (f.st ≠ 1 ∨ Pos.atOrAfter (s.shelfPos k) p = false → exec (.folioForceClose call) s = .next s))) ∧
    (∃ u, exec .pageReturn s = .next u ∧ ∀ e, e ∈ u.stk.giveUp ↔
      e ∈ s.stk.giveUp ∧ s.stk.reqs.any (fun r => decide (r.1 < e.2)) = true) ∧
    (s.domOn 48 = true → ∃ u, exec .lwClr s = .next u ∧
      u.getF R.stkFreeLow F.stkFreeLowLow = s.freePages % 2 ^ F.stkFreeLowLow.width ∧ s.regsBut u [R.stkFreeLow] ∧ s.regsOnly u) ∧
    (s.domOn 48 = false → exec .lwClr s = .next s)

/-! ### Recovery (R398 to R410) and the log (R415 to R424) -/

/-- The sample of a fenced engine is in its dump slot when the copy ends, or the slot is incomplete after 20 µs; its reset ends
with no request left, or after 200 µs the core is power-cycled, woken after 1 ms and returned with its tiles as they were; a
fence ends with the core's domains off; a watchdog, a late fence and RESET_N start a device recovery reset (R398 to R408). -/
def Obligations.RecoveryLadder : Prop :=
  ∀ (s : State) (c : CoreIx) (e : EngIx),
    (∀ n, s.copying c e = some n → ∃ u, exec (.sampleCopyEnd c e) s = .next u ∧
      u.stk.mem.getRun 0 (dumpBase + 0x20000 + n * 0x8000) 0x8000 = s.sample c ∧
      u.flt.slots.get? n = (s.flt.slots.get? n).map (fun d => { d with st := 2, crc := crc32c (s.sample c) }) ∧
      (u.ladder c).resetAt.get? e = some s.timeUs ∧ u.isSet R.fltHostStatus F.fltHostStatusDump = true ∧
      s.regsBut u [R.fltHostStatus, R.fltHdmpEvt]) ∧
    (s.copying c e = none → exec (.sampleCopyEnd c e) s = .next s ∧ exec (.sampleCopyTimeout c e) s = .next s) ∧
    (∀ n at_, s.copying c e = some n → (s.ladder c).fencedAt.get? e = some at_ →
      (at_ + 20 ≤ s.timeUs → ∃ u, exec (.sampleCopyTimeout c e) s = .next u ∧
        u.flt.slots.get? n = (s.flt.slots.get? n).map (fun d => { d with st := 3 }) ∧
        (u.ladder c).resetAt.get? e = some s.timeUs ∧ u.regs = s.regs ∧ u.stk = s.stk) ∧
      (s.timeUs < at_ + 20 → exec (.sampleCopyTimeout c e) s = .next s)) ∧
    (∀ at_, (s.ladder c).resetAt.get? e = some at_ →
      (bit (s.ladder c).engines e = true → s.stk.reqs = [] → ∃ u, exec (.engineResetDone c e) s = .next u ∧
        (u.ladder c).engines = (s.ladder c).engines - 2 ^ e.val ∧ (u.ladder c).resetAt.get? e = none ∧
        ((s.ladder c).engines = 2 ^ e.val → u.coreState c = 0)) ∧
      (at_ + 200 ≤ s.timeUs → exec (.engineResetTimeout c e) s =
        .next ((s.report (Src.engine c e) E.fltEngineResetHang Rep.dispatcher).rung2 c)) ∧
      (s.timeUs < at_ + 200 → exec (.engineResetTimeout c e) s = .next s)) ∧
    (∀ at_, (s.ladder c).offAt = some at_ → s.coreState c = 2 → (s.ladder c).waking = false →
      (at_ + 1000 ≤ s.timeUs → (∀ d, d = 3 * c.val + 1 ∨ d = 3 * c.val + 2 →
          s.domOn d = false ∧ d ∉ s.pwr.queue ∧ s.pwr.ramping.get? d = none) →
        ∃ u, exec (.coreWake c) s = .next u ∧ (u.ladder c).waking = true ∧
          u.pwr.queue = s.pwr.queue ++ [3 * c.val + 1, 3 * c.val + 2]) ∧
      (s.timeUs < at_ + 1000 → exec (.coreWake c) s = .next s)) ∧
    (s.coreState c = 2 → s.domOn (3 * c.val + 1) = true → s.domOn (3 * c.val + 2) = true →
      (∃ u, exec (.coreReturn c true) s = .next u ∧ u.coreState c = 0 ∧ (u.ladder c).savedTiles = [] ∧
        (∀ t, t < 68 → (s.ladder c).savedTiles.length = 68 → (∀ v ∈ (s.ladder c).savedTiles, v < 8) →
          u.tileState c t = (s.ladder c).savedTiles.getD t 0)) ∧
      exec (.coreReturn c false) s = .next (s.rung3 c 4)) ∧
    (s.coreState c ≠ 2 → ∀ ok, exec (.coreReturn c ok) s = .next s) ∧
    (∀ at_, (s.ladder c).fenceAt = some at_ →
      (∃ u, exec (.fenceComplete c) s = .next u ∧ (u.ladder c).fenceAt = none ∧ u.domOn (3 * c.val) = false ∧
        u.domOn (3 * c.val + 1) = false ∧ u.domOn (3 * c.val + 2) = false) ∧
      (s.timeUs < at_ + 2000 → exec (.fenceTimeout c) s = .next s) ∧
      (at_ + 2000 ≤ s.timeUs → exec (.fenceTimeout c) s =
        .next (((s.setLadder c { s.ladder c with fenceAt := none }).report (Src.core c) E.fltFenceHang Rep.power).startDrr 1))) ∧
    ((s.ladder c).fenceAt = none → exec (.fenceComplete c) s = .next s) ∧
    (∀ k : Fin 4,
      (s.sys.ccUp = true → k.val ∉ s.sys.halted →
        exec (.watchdogKick k) s = .next { s with flt := { s.flt with kicks := s.flt.kicks.set k.val s.timeUs } }) ∧
      (s.sys.ccUp = true → s.flt.kicks.getD k.val 0 + 100000 ≤ s.timeUs → exec (.watchdogExpiry k) s =
        .next (((({ s with flt := { s.flt with kicks := List.replicate 4 s.timeUs } } : State)).report Src.device E.fltWatchdog
          Rep.power k.val).startDrr 2)) ∧
      (s.timeUs < s.flt.kicks.getD k.val 0 + 100000 → exec (.watchdogExpiry k) s = .next s)) ∧
    (s.sys.aon = true → s.getF R.pwrState F.pwrStateState = 3 ∨ s.isSet R.thmLevel F.thmLevelStopping = true →
      exec .resetN s = .next s) ∧
    (s.sys.aon = true → s.getF R.pwrState F.pwrStateState ≠ 3 → s.isSet R.thmLevel F.thmLevelStopping = false →
      s.flt.drrTimes = [] → ∃ u, exec .resetN s = .next u ∧ u.flt.drrAt = some s.timeUs ∧ u.flt.drrTimes = [s.timeUs]) ∧
    (∀ at_, s.flt.drrAt = some at_ → s.sys.boot = none →
      (at_ + 30000 ≤ s.timeUs → exec .warmReset s = .next (s.warmReset.bootRun .drr)) ∧
      (s.timeUs < at_ + 30000 → exec .warmReset s = .next s))

/-- A report counts in its open record, or opens one; a record closes 10 ms after it opened and is popped from the queue; a
log page is written 1 s after its first entry (R415 to R419, R424). A queued page write starts, reads TORN, and leaves its
data and its sequence number, or is made once more; a due increment of a counter is made when no page write runs; scrub moves
on by a page (R461 to R468). Rests in part on the model's own choices: assumptions 59, 60. -/
def Obligations.LogsAndStore : Prop :=
  ∀ s : State,
    (∀ (src code : BitVec 16) (rep : Byte) (detail : Word),
      ((∀ r ∈ s.flt.openRecs, ¬ (r.src = src.toNat ∧ r.code = code.toNat)) → s.flt.openRecs.length < 256 →
        ∃ u, exec (.faultReport src code rep detail) s = .next u ∧
          u.flt.openRecs = s.flt.openRecs ++ [⟨src.toNat, code.toNat, rep.toNat, detail.toNat, 1, s.timeUs, s.timeUs, false⟩] ∧
          u.isSet R.fltStatus F.fltStatusNewSrc = true ∧ u.reg R.fltNewsrcEvt = satInc (s.reg R.fltNewsrcEvt) 1 ∧
          s.regsBut u [R.fltOpen, R.fltStatus, R.fltNewsrcEvt]) ∧
      (∀ r rs, s.flt.openRecs = r :: rs → r.src = src.toNat → r.code = code.toNat →
        exec (.faultReport src code rep detail) s = .next { s with flt := { s.flt with
          openRecs := { r with count := min (r.count + 1) 0xFFFFFFFF, last := s.timeUs } :: rs } })) ∧
    (∀ r rs, s.flt.openRecs = r :: rs → s.flt.closed.length < 64 → s.sys.ccUp = false → r.first + 10000 ≤ s.timeUs →
      ∃ u, exec .recordClose s = .next u ∧ u.flt.openRecs = rs ∧ u.flt.closed = s.flt.closed ++ [{ r with entry := false }] ∧
        u.getF R.fltRecCtrl F.fltRecCtrlAvail = s.flt.closed.length + 1 ∧ s.regsBut u [R.fltOpen, R.fltRecCtrl]) ∧
    (s.flt.closed.length ≤ 64 → ∃ u, exec .pop s = .next u ∧ u.flt = { s.flt with closed := s.flt.closed.drop 1 } ∧
      u.getF R.fltRecCtrl F.fltRecCtrlAvail = s.flt.closed.length - 1 ∧ s.regsBut u [R.fltRecCtrl]) ∧
    (s.flt.pending ≠ [] →
      (s.flt.pendSince + 1000000 ≤ s.timeUs → ∃ u, exec .logFlushTimeout s = .next u ∧
        u.flt.pending = s.flt.pending.drop 7 ∧ u.pst.queue.length = s.pst.queue.length + 1) ∧
      (s.timeUs < s.flt.pendSince + 1000000 → exec .logFlushTimeout s = .next s)) ∧
    (s.domOn 64 = false → exec .pageWriteStart s = .next s) ∧
    (∀ (j : PJob) (p : Nat) (d : Bytes) (left : List (Nat × Bytes)), s.domOn 64 = true → s.pst.run = none → s.pst.lastEnd = none →
      s.pst.queue = [j] → j.begun = true → j.left = (p, d) :: left → p < 2048 →
      ∃ u r, exec .pageWriteStart s = .next u ∧ u.pst.run = some r ∧ r.page = p ∧ r.data = d ∧ r.retried = false ∧
        u.pst.queue = [] ∧ (∃ q, u.pst.pages.get? p = some q ∧ q.ok = false) ∧ u.isSet R.pstState F.pstStateBusy = true ∧
        u.getF R.pstState F.pstStatePage = p ∧ s.regsBut u [R.pstState]) ∧
    (∀ r : PRun, s.pst.run = some r →
      (∀ bs, r.job.kind = .cache bs → r.job.left = [] → ∃ u, exec (.pageWriteEnd true) s = .next u ∧ u.pst.run = none ∧
        u.pst.pages.get? r.page = some ⟨true, r.job.seq, r.data⟩ ∧ u.pst.lastEnd = some s.timeUs ∧
        u.isSet R.pstState F.pstStateBusy = false ∧ u.reg R.pstWrites = satInc (s.reg R.pstWrites) 1 ∧
        s.regsBut u [R.pstState, R.pstWrites]) ∧
      (r.retried = false → exec (.pageWriteEnd false) s =
        .next { s with pst := { s.pst with run := some { r with retried := true, start := s.timeUs } } }) ∧
      (∀ bs, r.retried = true → r.job.kind = .cache bs → ∃ u, exec (.pageWriteEnd false) s = .next u ∧ u.pst.run = none ∧
        u.isSet R.pstStatus F.pstStatusWriteFail = true ∧ u.reg R.pstWfailEvt = satInc (s.reg R.pstWfailEvt) 1 ∧
        u.pst.pages = s.pst.pages) ∧
      (∀ c, exec (.counterIncrement c) s = .next s) ∧
      (s.pst.hourAt + 3600000000 ≤ s.timeUs → exec .poweredHour s = .next { s with pst := { s.pst with
        hourAt := s.pst.hourAt + 3600000000, countDue := s.pst.countDue ++ [3] } })) ∧
    (∀ c : Fin 6, s.pst.run = none → s.slotWaits c = false → c.val ∈ s.pst.countDue → exec (.counterIncrement c) s =
      .next (({ s with pst := { s.pst with countDue := s.pst.countDue.erase c } } : State).incCounter c)) ∧
    (s.timeUs < s.pst.hourAt + 3600000000 → exec .poweredHour s = .next s) ∧
    (s.domOn 64 = true → ∃ u, exec (.marginRead .clean) s = .next u ∧
      u.getF R.pstScrub F.pstScrubNext = (s.getF R.pstScrub F.pstScrubNext + 1) % 2048 ∧ s.regsBut u [R.pstScrub] ∧ s.regsOnly u) ∧
    (s.domOn 64 = false → ∀ r, exec (.marginRead r) s = .next s)

/-! ### Power-up (R426, R438, R501, R503, R512) -/

/-- VDD_AON comes up with the parameter store awake; PORST_N resets the always-on domain and boots; a lost rail loses
everything volatile; the loss of VDD_AON loses the always-on registers too; HBM training ends stage 4 (R426, R438, R501,
R512). Rests in part on the model's own choices: assumptions 14, 76, 79. -/
def Obligations.PowerUp : Prop :=
  ∀ (s : State) (v : VrefMode),
    (s.sys.aon = false → ∃ u, exec .powerOn s = .next u ∧ u.sys.aon = true ∧ u.sys.boot = some .powerOn ∧ u.domOn 64 = true) ∧
    (s.sys.aon = true → exec .powerOn s = .next s) ∧
    (s.sys.aon = true → ∃ u, exec (.porstN v) s = .next u ∧ u.timeUs = 0 ∧ s.keyHolds u ∧
      u = ((({ s.aonReset.releaseTrip with
        sys := { s.aonReset.releaseTrip.sys with vref := v } } : State).domUp 64).readHold.bootRun .powerOn)) ∧
    (s.sys.aon = false → exec (.porstN v) s = .next s ∧ exec .vddAonLoss s = .next s ∧ exec .powerFailure s = .next s) ∧
    (s.sys.aon = true → ∃ u, exec .vddAonLoss s = .next u ∧ u.sys.aon = false ∧ u.regs = [] ∧ u.justReset ∧ s.keyHolds u) ∧
    (s.sys.aon = true → s.getF R.pwrState F.pwrStateState < 2 → ∃ u, exec .powerFailure s = .next u ∧
      u.sys.boot = some .powerOn ∧ u.justReset ∧ u.stk.folios = [] ∧ s.keyHolds u) ∧
    (s.sys.aon = true → 2 ≤ s.getF R.pwrState F.pwrStateState → exec .powerFailure s = .next s) ∧
    (∀ failed : BitVec 64,
      (s.getF R.idBoot F.idBootStage ≠ 4 → exec (.hbmTrainingComplete failed) s = .next s) ∧
      (∀ k, s.sys.boot = some k → s.getF R.idBoot F.idBootStage = 4 → s.sys.ccUp = true → s.pwr.queue = [] → s.pwr.ramping = [] →
        s.domOn 48 = true → s.domOn 49 = true → s.domOn 50 = true → s.domOn 51 = true →
        ∃ u, exec (.hbmTrainingComplete failed) s = .next u ∧ u.cal.running = true ∧ u.cal.complete = false ∧
          u.sys.trained = true))
end

