-- ==== Sys2Proof/Laws/Tab.lean ====
section
/-! SUPPORT. Reading and writing sparse tables: a read after a write, and the canonical form that every write keeps. -/

namespace Sys2Proof.Machine

theorem Tab.get?_put_self {α : Type} (t : Tab α) (k : Nat) (v : α) : (t.put k v).get? k = some v := by
  induction t with
  | nil => simp [Tab.put, Tab.get?]
  | cons e t ih =>
    obtain ⟨j, w⟩ := e
    simp only [Tab.put]
    split
    · simp [Tab.get?]
    · split
      · simp [Tab.get?]
      · simp [Tab.get?, *]

theorem Tab.get?_put_ne {α : Type} (t : Tab α) {k k' : Nat} (v : α) (h : k' ≠ k) : (t.put k v).get? k' = t.get? k' := by
  induction t with
  | nil => simp [Tab.put, Tab.get?, h]
  | cons e t ih =>
    obtain ⟨j, w⟩ := e
    simp only [Tab.put]
    split
    · simp [Tab.get?, h]
    · split
      · subst_vars; simp [Tab.get?, h]
      · simp [Tab.get?, ih]

theorem Tab.get?_del_self {α : Type} (t : Tab α) (k : Nat) : (t.del k).get? k = none := by
  induction t with
  | nil => rfl
  | cons e t ih =>
    obtain ⟨j, w⟩ := e
    simp only [Tab.del]
    split
    · exact ih
    · simp [Tab.get?, *]

theorem Tab.get?_del_ne {α : Type} (t : Tab α) {k k' : Nat} (h : k' ≠ k) : (t.del k).get? k' = t.get? k' := by
  induction t with
  | nil => rfl
  | cons e t ih =>
    obtain ⟨j, w⟩ := e
    simp only [Tab.del]
    split
    · subst_vars; simp [Tab.get?, h, ih]
    · simp [Tab.get?, ih]

/-- A read of the key that was written gives the value written. -/
theorem Tab.getD_set_self {α : Type} [DecidableEq α] (t : Tab α) (k : Nat) (v d : α) : (t.set k v d).getD k d = v := by
  unfold Tab.set Tab.getD
  split
  · simp [Tab.get?_del_self, *]
  · simp [Tab.get?_put_self]

/-- A write leaves every other key alone. -/
theorem Tab.getD_set_ne {α : Type} [DecidableEq α] (t : Tab α) {k k' : Nat} (v d d' : α) (h : k' ≠ k) :
    (t.set k v d).getD k' d' = t.getD k' d' := by
  unfold Tab.set Tab.getD
  split
  · simp [Tab.get?_del_ne _ h]
  · simp [Tab.get?_put_ne _ _ h]

/-! ### The canonical form -/

/-- The keys rise strictly, as a proposition over pairs. -/
theorem Tab.sorted_iff {α : Type} (t : Tab α) : Tab.sorted t = true ↔ t.Pairwise (fun x y => x.1 < y.1) := by
  induction t with
  | nil => simp [Tab.sorted]
  | cons e t ih =>
    cases t with
    | nil => simp [Tab.sorted]
    | cons e' t =>
      obtain ⟨j, w⟩ := e
      obtain ⟨k, v⟩ := e'
      simp only [Tab.sorted, Bool.and_eq_true, decide_eq_true_eq, ih]
      constructor
      · rintro ⟨h1, h2⟩
        refine List.pairwise_cons.2 ⟨?_, h2⟩
        intro x hx
        rcases List.mem_cons.1 hx with rfl | hx
        · exact h1
        · exact lt_trans h1 ((List.pairwise_cons.1 h2).1 x hx)
      · intro h
        exact ⟨(List.pairwise_cons.1 h).1 (k, v) (by simp), (List.pairwise_cons.1 h).2⟩

theorem Tab.mem_put {α : Type} (t : Tab α) (k : Nat) (v : α) (e : Nat × α) (h : e ∈ t.put k v) : e = (k, v) ∨ e ∈ t := by
  induction t with
  | nil => simpa [Tab.put] using h
  | cons x t ih =>
    obtain ⟨j, w⟩ := x
    simp only [Tab.put] at h
    split at h
    · simpa using h
    · split at h
      · rcases List.mem_cons.1 h with h | h
        · exact .inl h
        · exact .inr (by simp [h])
      · rcases List.mem_cons.1 h with h | h
        · exact .inr (by simp [h])
        · rcases ih h with h | h
          · exact .inl h
          · exact .inr (by simp [h])

theorem Tab.mem_del {α : Type} (t : Tab α) (k : Nat) (e : Nat × α) (h : e ∈ t.del k) : e ∈ t := by
  induction t with
  | nil => simp [Tab.del] at h
  | cons x t ih =>
    obtain ⟨j, w⟩ := x
    simp only [Tab.del] at h
    split at h
    · exact List.mem_cons_of_mem _ (ih h)
    · rcases List.mem_cons.1 h with h | h
      · simp [h]
      · exact List.mem_cons_of_mem _ (ih h)

theorem Tab.sorted_put {α : Type} (t : Tab α) (k : Nat) (v : α) (h : Tab.sorted t = true) :
    Tab.sorted (t.put k v) = true := by
  rw [Tab.sorted_iff] at *
  induction t with
  | nil => simp [Tab.put]
  | cons x t ih =>
    obtain ⟨j, w⟩ := x
    have h1 := (List.pairwise_cons.1 h).1
    have h2 := (List.pairwise_cons.1 h).2
    simp only [Tab.put]
    split
    · refine List.pairwise_cons.2 ⟨?_, h⟩
      intro y hy
      rcases List.mem_cons.1 hy with rfl | hy
      · assumption
      · exact lt_trans ‹_› (h1 y hy)
    · split
      · subst_vars; exact List.pairwise_cons.2 ⟨h1, h2⟩
      · refine List.pairwise_cons.2 ⟨?_, ih h2⟩
        intro y hy
        rcases Tab.mem_put t k v y hy with rfl | hy
        · simp only; omega
        · exact h1 y hy

theorem Tab.sorted_del {α : Type} (t : Tab α) (k : Nat) (h : Tab.sorted t = true) : Tab.sorted (t.del k) = true := by
  rw [Tab.sorted_iff] at *
  induction t with
  | nil => simp [Tab.del]
  | cons x t ih =>
    obtain ⟨j, w⟩ := x
    have h1 := (List.pairwise_cons.1 h).1
    have h2 := (List.pairwise_cons.1 h).2
    simp only [Tab.del]
    split
    · exact ih h2
    · exact List.pairwise_cons.2 ⟨fun y hy => h1 y (Tab.mem_del t k y hy), ih h2⟩

/-- A write of any value keeps the canonical form. -/
theorem Tab.canon_set {α : Type} [DecidableEq α] (dflt : Nat → α) (t : Tab α) (k : Nat) (v : α)
    (h : Tab.canon dflt t = true) : Tab.canon dflt (t.set k v (dflt k)) = true := by
  simp only [Tab.canon, Bool.and_eq_true, Tab.noDefault, List.all_eq_true, decide_eq_true_eq] at *
  unfold Tab.set
  split
  · exact ⟨Tab.sorted_del t k h.1, fun e he => h.2 e (Tab.mem_del t k e he)⟩
  · refine ⟨Tab.sorted_put t k v h.1, fun e he => ?_⟩
    rcases Tab.mem_put t k v e he with rfl | he
    · assumption
    · exact h.2 e he

/-- A run of writes keeps the canonical form. -/
theorem Tab.canon_setRun {α : Type} [DecidableEq α] (d : α) (vs : List α) : ∀ (t : Tab α) (k : Nat),
    Tab.canon (fun _ => d) t = true → Tab.canon (fun _ => d) (t.setRun d k vs) = true := by
  induction vs with
  | nil => intro t k h; exact h
  | cons v vs ih => intro t k h; exact ih _ _ (Tab.canon_set (fun _ => d) t k v h)

/-- A key that the filter keeps reads as before. -/
theorem Tab.get?_filter {α : Type} (p : Nat → Bool) {k : Nat} (h : p k = true) :
    ∀ t : Tab α, Tab.get? (t.filter fun e => p e.1) k = Tab.get? t k
  | [] => rfl
  | (j, v) :: t => by
    by_cases e : k = j
    · subst e; simp [List.filter, h, Tab.get?]
    · cases q : p j <;> simp [List.filter, q, Tab.get?, e, Tab.get?_filter p h t]

/-- A part of a canonical table is canonical. -/
theorem Tab.canon_filter {α : Type} [DecidableEq α] (dflt : Nat → α) (p : Nat × α → Bool) (t : Tab α)
    (h : Tab.canon dflt t = true) : Tab.canon dflt (t.filter p) = true := by
  unfold Tab.canon at *
  rw [Bool.and_eq_true] at *
  refine ⟨?_, ?_⟩
  · rw [Tab.sorted_iff] at *; exact h.1.filter p
  · unfold Tab.noDefault at *
    rw [List.all_eq_true] at *
    exact fun e he => h.2 e (List.mem_of_mem_filter he)

end Sys2Proof.Machine
end

