-- ==== Sys2Proof/Laws/State.lean ====
section
/-! SUPPORT. Registers of the state: a read after a write, fields within a word, and what a register write leaves alone.
One lemma per field of State and per update. -/

namespace Sys2Proof.Machine

/-! ### Fields of a word (R5) -/

theorem Field.get_lt (f : Field) (w : Word) : f.get w < 2 ^ f.width := Nat.mod_lt _ (Nat.two_pow_pos _)

/-- The word that a field write forms, as a number. -/
theorem Field.set_toNat (f : Field) (w : Word) (v : Nat) (h : f.lo + f.width ≤ 32) :
    (f.set w v).toNat = w.toNat % 2 ^ f.lo + (v % 2 ^ f.width) * 2 ^ f.lo
      + w.toNat / 2 ^ (f.lo + f.width) * 2 ^ (f.lo + f.width) := by
  unfold Field.set
  rw [BitVec.toNat_ofNat, Nat.mod_eq_of_lt]
  have h1 : w.toNat % 2 ^ f.lo < 2 ^ f.lo := Nat.mod_lt _ (Nat.two_pow_pos _)
  have h2 : v % 2 ^ f.width < 2 ^ f.width := Nat.mod_lt _ (Nat.two_pow_pos _)
  have h3 : w.toNat < 2 ^ (f.lo + f.width) * 2 ^ (32 - (f.lo + f.width)) := by
    rw [← pow_add, Nat.add_sub_cancel' h]; exact w.isLt
  have h4 : w.toNat / 2 ^ (f.lo + f.width) < 2 ^ (32 - (f.lo + f.width)) := Nat.div_lt_of_lt_mul h3
  have h5 : w.toNat / 2 ^ (f.lo + f.width) * 2 ^ (f.lo + f.width)
      ≤ (2 ^ (32 - (f.lo + f.width)) - 1) * 2 ^ (f.lo + f.width) := Nat.mul_le_mul_right _ (by omega)
  have h6 : (2 ^ (32 - (f.lo + f.width)) - 1) * 2 ^ (f.lo + f.width) + 2 ^ (f.lo + f.width) = 2 ^ 32 := by
    rw [Nat.sub_mul, one_mul, ← pow_add, Nat.sub_add_cancel h,
      Nat.sub_add_cancel (Nat.pow_le_pow_right (by decide) h)]
  have h7 : (v % 2 ^ f.width + 1) * 2 ^ f.lo ≤ 2 ^ (f.lo + f.width) := by
    rw [pow_add, mul_comm (2 ^ f.lo)]; exact Nat.mul_le_mul_right _ h2
  have h8 : (v % 2 ^ f.width + 1) * 2 ^ f.lo = v % 2 ^ f.width * 2 ^ f.lo + 2 ^ f.lo := by ring
  omega

/-- A field reads what was written to it, modulo its width. -/
theorem Field.get_set_self (f : Field) (w : Word) (v : Nat) (h : f.lo + f.width ≤ 32) :
    f.get (f.set w v) = v % 2 ^ f.width := by
  unfold Field.get
  rw [Field.set_toNat f w v h, pow_add]
  have h1 : w.toNat % 2 ^ f.lo < 2 ^ f.lo := Nat.mod_lt _ (Nat.two_pow_pos _)
  have e : w.toNat % 2 ^ f.lo + v % 2 ^ f.width * 2 ^ f.lo + w.toNat / (2 ^ f.lo * 2 ^ f.width) * (2 ^ f.lo * 2 ^ f.width)
      = w.toNat % 2 ^ f.lo + 2 ^ f.lo * (v % 2 ^ f.width + 2 ^ f.width * (w.toNat / (2 ^ f.lo * 2 ^ f.width))) := by ring
  rw [e, Nat.add_mul_div_left _ _ (Nat.two_pow_pos _), Nat.div_eq_of_lt h1, zero_add, Nat.add_mul_mod_self_left,
    Nat.mod_mod]

/-- A field write leaves every bit outside the field as it was. -/
theorem Field.get_set_ne (f g : Field) (w : Word) (v : Nat) (hf : f.lo + f.width ≤ 32)
    (h : g.lo + g.width ≤ f.lo ∨ f.lo + f.width ≤ g.lo) : g.get (f.set w v) = g.get w := by
  unfold Field.get
  rw [Field.set_toNat f w v hf]
  have h1 : w.toNat % 2 ^ f.lo < 2 ^ f.lo := Nat.mod_lt _ (Nat.two_pow_pos _)
  have h2 : v % 2 ^ f.width < 2 ^ f.width := Nat.mod_lt _ (Nat.two_pow_pos _)
  have hw := Nat.div_add_mod w.toNat (2 ^ (f.lo + f.width))
  rcases h with h | h
  · obtain ⟨d, hd⟩ := Nat.exists_eq_add_of_le h
    have e1 : w.toNat % 2 ^ f.lo + v % 2 ^ f.width * 2 ^ f.lo
        + w.toNat / 2 ^ (f.lo + f.width) * 2 ^ (f.lo + f.width)
        = w.toNat % 2 ^ f.lo + 2 ^ (g.lo + g.width) * (2 ^ d * (v % 2 ^ f.width
          + 2 ^ f.width * (w.toNat / 2 ^ (f.lo + f.width)))) := by
      have : (2 : Nat) ^ f.lo = 2 ^ (g.lo + g.width) * 2 ^ d := by rw [hd, pow_add]
      rw [pow_add 2 f.lo, this]; ring
    have key : ∀ x y : Nat, (x + 2 ^ (g.lo + g.width) * y) / 2 ^ g.lo % 2 ^ g.width = x / 2 ^ g.lo % 2 ^ g.width := by
      intro x y
      rw [pow_add, mul_assoc, Nat.add_mul_div_left _ _ (Nat.two_pow_pos _), Nat.add_mul_mod_self_left]
    rw [e1, key]
    conv_rhs => rw [← Nat.mod_add_div w.toNat (2 ^ f.lo)]
    have e2 : (2 : Nat) ^ f.lo = 2 ^ (g.lo + g.width) * 2 ^ d := by rw [hd, pow_add]
    rw [e2, mul_assoc, ← e2, key]
  · obtain ⟨d, hd⟩ := Nat.exists_eq_add_of_le h
    have e0 : (2 : Nat) ^ g.lo = 2 ^ (f.lo + f.width) * 2 ^ d := by rw [hd, pow_add]
    have key : ∀ x y : Nat, x < 2 ^ (f.lo + f.width) → (x + y * 2 ^ (f.lo + f.width)) / 2 ^ g.lo = y / 2 ^ d := by
      intro x y hx
      rw [e0, ← Nat.div_div_eq_div_mul, Nat.add_mul_div_right _ _ (Nat.two_pow_pos _), Nat.div_eq_of_lt hx, zero_add]
    have hx : w.toNat % 2 ^ f.lo + v % 2 ^ f.width * 2 ^ f.lo < 2 ^ (f.lo + f.width) := by
      have h7 : (v % 2 ^ f.width + 1) * 2 ^ f.lo ≤ 2 ^ (f.lo + f.width) := by
        rw [pow_add, mul_comm (2 ^ f.lo)]; exact Nat.mul_le_mul_right _ h2
      have h8 : (v % 2 ^ f.width + 1) * 2 ^ f.lo = v % 2 ^ f.width * 2 ^ f.lo + 2 ^ f.lo := by ring
      omega
    rw [key _ _ hx]
    conv_rhs => rw [← Nat.mod_add_div w.toNat (2 ^ (f.lo + f.width)), mul_comm,
      key _ _ (Nat.mod_lt _ (Nat.two_pow_pos _))]

/-! ### A register read after a write -/

@[simp] theorem State.reg_setReg_self (s : State) (a : Nat) (w : Word) : (s.setReg a w).reg a = w :=
  Tab.getD_set_self _ _ _ _

theorem State.reg_setReg_ne (s : State) {a b : Nat} (w : Word) (h : b ≠ a) : (s.setReg a w).reg b = s.reg b :=
  Tab.getD_set_ne _ _ _ _ h

@[simp] theorem State.reg_setF_self (s : State) (a : Nat) (f : Field) (v : Nat) :
    (s.setF a f v).reg a = f.set (s.reg a) v := State.reg_setReg_self _ _ _

theorem State.reg_setF_ne (s : State) {a b : Nat} (f : Field) (v : Nat) (h : b ≠ a) : (s.setF a f v).reg b = s.reg b :=
  State.reg_setReg_ne _ _ h

theorem State.getF_setF_self (s : State) (a : Nat) (f : Field) (v : Nat) (h : f.lo + f.width ≤ 32) :
    (s.setF a f v).getF a f = v % 2 ^ f.width := by
  unfold State.getF; rw [State.reg_setF_self, Field.get_set_self _ _ _ h]

theorem State.getF_setF_field (s : State) (a : Nat) (f g : Field) (v : Nat) (hf : f.lo + f.width ≤ 32)
    (h : g.lo + g.width ≤ f.lo ∨ f.lo + f.width ≤ g.lo) : (s.setF a f v).getF a g = s.getF a g := by
  unfold State.getF; rw [State.reg_setF_self, Field.get_set_ne _ _ _ _ hf h]

theorem State.getF_setF_ne (s : State) {a b : Nat} (f g : Field) (v : Nat) (h : b ≠ a) :
    (s.setF a f v).getF b g = s.getF b g := by unfold State.getF; rw [State.reg_setF_ne _ _ _ h]

theorem State.getF_setReg_ne (s : State) {a b : Nat} (w : Word) (g : Field) (h : b ≠ a) :
    (s.setReg a w).getF b g = s.getF b g := by unfold State.getF; rw [State.reg_setReg_ne _ _ h]

@[simp] theorem State.reg_count_self (s : State) (a n : Nat) : (s.count a n).reg a = satInc (s.reg a) n :=
  State.reg_setReg_self _ _ _

theorem State.reg_count_ne (s : State) {a b n : Nat} (h : b ≠ a) : (s.count a n).reg b = s.reg b :=
  State.reg_setReg_ne _ _ h

/-- A status bit that the hardware sets reads 1, and its counter has advanced by one (R17). -/
theorem State.reg_raise_evt (s : State) (a : Nat) (f : Field) (e : Nat) (h : e ≠ a) :
    (s.raise a f e).reg e = satInc (s.reg e) 1 := by
  unfold State.raise; rw [State.reg_count_self, State.reg_setF_ne _ _ _ h]

theorem State.reg_raise_self (s : State) (a : Nat) (f : Field) (e : Nat) (h : a ≠ e) :
    (s.raise a f e).reg a = f.set (s.reg a) 1 := by
  unfold State.raise; rw [State.reg_count_ne _ h, State.reg_setF_self]

theorem State.reg_raise_ne (s : State) (a : Nat) (f : Field) (e : Nat) {b : Nat} (ha : b ≠ a) (he : b ≠ e) :
    (s.raise a f e).reg b = s.reg b := by
  unfold State.raise; rw [State.reg_count_ne _ he, State.reg_setF_ne _ _ _ ha]

@[simp] theorem State.reg_clearBits_self (s : State) (a : Nat) (m : Word) : (s.clearBits a m).reg a = s.reg a &&& ~~~ m :=
  State.reg_setReg_self _ _ _

theorem State.reg_clearBits_ne (s : State) {a b : Nat} (m : Word) (h : b ≠ a) : (s.clearBits a m).reg b = s.reg b :=
  State.reg_setReg_ne _ _ h

/-! ### What `setReg` leaves alone -/

@[simp] theorem State.setReg_part (s : State) (a : Nat) (w : Word) : (s.setReg a w).part = s.part := rfl
@[simp] theorem State.setReg_timeUs (s : State) (a : Nat) (w : Word) : (s.setReg a w).timeUs = s.timeUs := rfl
@[simp] theorem State.setReg_fresh (s : State) (a : Nat) (w : Word) : (s.setReg a w).fresh = s.fresh := rfl
@[simp] theorem State.setReg_cfg (s : State) (a : Nat) (w : Word) : (s.setReg a w).cfg = s.cfg := rfl
@[simp] theorem State.setReg_wire (s : State) (a : Nat) (w : Word) : (s.setReg a w).wire = s.wire := rfl
@[simp] theorem State.setReg_lck (s : State) (a : Nat) (w : Word) : (s.setReg a w).lck = s.lck := rfl
@[simp] theorem State.setReg_prt (s : State) (a : Nat) (w : Word) : (s.setReg a w).prt = s.prt := rfl
@[simp] theorem State.setReg_flt (s : State) (a : Nat) (w : Word) : (s.setReg a w).flt = s.flt := rfl
@[simp] theorem State.setReg_pst (s : State) (a : Nat) (w : Word) : (s.setReg a w).pst = s.pst := rfl
@[simp] theorem State.setReg_stk (s : State) (a : Nat) (w : Word) : (s.setReg a w).stk = s.stk := rfl
@[simp] theorem State.setReg_dsp (s : State) (a : Nat) (w : Word) : (s.setReg a w).dsp = s.dsp := rfl
@[simp] theorem State.setReg_mc (s : State) (a : Nat) (w : Word) : (s.setReg a w).mc = s.mc := rfl
@[simp] theorem State.setReg_cal (s : State) (a : Nat) (w : Word) : (s.setReg a w).cal = s.cal := rfl
@[simp] theorem State.setReg_pwr (s : State) (a : Nat) (w : Word) : (s.setReg a w).pwr = s.pwr := rfl
@[simp] theorem State.setReg_thm (s : State) (a : Nat) (w : Word) : (s.setReg a w).thm = s.thm := rfl
@[simp] theorem State.setReg_mon (s : State) (a : Nat) (w : Word) : (s.setReg a w).mon = s.mon := rfl
@[simp] theorem State.setReg_sdm (s : State) (a : Nat) (w : Word) : (s.setReg a w).sdm = s.sdm := rfl
@[simp] theorem State.setReg_sys (s : State) (a : Nat) (w : Word) : (s.setReg a w).sys = s.sys := rfl
@[simp] theorem State.setReg_pending (s : State) (a : Nat) (w : Word) : (s.setReg a w).pending = s.pending := rfl

/-! ### What `setF` leaves alone -/

@[simp] theorem State.setF_part (s : State) (a : Nat) (f : Field) (v : Nat) : (s.setF a f v).part = s.part := rfl
@[simp] theorem State.setF_timeUs (s : State) (a : Nat) (f : Field) (v : Nat) : (s.setF a f v).timeUs = s.timeUs := rfl
@[simp] theorem State.setF_fresh (s : State) (a : Nat) (f : Field) (v : Nat) : (s.setF a f v).fresh = s.fresh := rfl
@[simp] theorem State.setF_cfg (s : State) (a : Nat) (f : Field) (v : Nat) : (s.setF a f v).cfg = s.cfg := rfl
@[simp] theorem State.setF_wire (s : State) (a : Nat) (f : Field) (v : Nat) : (s.setF a f v).wire = s.wire := rfl
@[simp] theorem State.setF_lck (s : State) (a : Nat) (f : Field) (v : Nat) : (s.setF a f v).lck = s.lck := rfl
@[simp] theorem State.setF_prt (s : State) (a : Nat) (f : Field) (v : Nat) : (s.setF a f v).prt = s.prt := rfl
@[simp] theorem State.setF_flt (s : State) (a : Nat) (f : Field) (v : Nat) : (s.setF a f v).flt = s.flt := rfl
@[simp] theorem State.setF_pst (s : State) (a : Nat) (f : Field) (v : Nat) : (s.setF a f v).pst = s.pst := rfl
@[simp] theorem State.setF_stk (s : State) (a : Nat) (f : Field) (v : Nat) : (s.setF a f v).stk = s.stk := rfl
@[simp] theorem State.setF_dsp (s : State) (a : Nat) (f : Field) (v : Nat) : (s.setF a f v).dsp = s.dsp := rfl
@[simp] theorem State.setF_mc (s : State) (a : Nat) (f : Field) (v : Nat) : (s.setF a f v).mc = s.mc := rfl
@[simp] theorem State.setF_cal (s : State) (a : Nat) (f : Field) (v : Nat) : (s.setF a f v).cal = s.cal := rfl
@[simp] theorem State.setF_pwr (s : State) (a : Nat) (f : Field) (v : Nat) : (s.setF a f v).pwr = s.pwr := rfl
@[simp] theorem State.setF_thm (s : State) (a : Nat) (f : Field) (v : Nat) : (s.setF a f v).thm = s.thm := rfl
@[simp] theorem State.setF_mon (s : State) (a : Nat) (f : Field) (v : Nat) : (s.setF a f v).mon = s.mon := rfl
@[simp] theorem State.setF_sdm (s : State) (a : Nat) (f : Field) (v : Nat) : (s.setF a f v).sdm = s.sdm := rfl
@[simp] theorem State.setF_sys (s : State) (a : Nat) (f : Field) (v : Nat) : (s.setF a f v).sys = s.sys := rfl
@[simp] theorem State.setF_pending (s : State) (a : Nat) (f : Field) (v : Nat) : (s.setF a f v).pending = s.pending := rfl

/-! ### What `setNat` leaves alone -/

@[simp] theorem State.setNat_part (s : State) (a n : Nat) : (s.setNat a n).part = s.part := rfl
@[simp] theorem State.setNat_timeUs (s : State) (a n : Nat) : (s.setNat a n).timeUs = s.timeUs := rfl
@[simp] theorem State.setNat_fresh (s : State) (a n : Nat) : (s.setNat a n).fresh = s.fresh := rfl
@[simp] theorem State.setNat_cfg (s : State) (a n : Nat) : (s.setNat a n).cfg = s.cfg := rfl
@[simp] theorem State.setNat_wire (s : State) (a n : Nat) : (s.setNat a n).wire = s.wire := rfl
@[simp] theorem State.setNat_lck (s : State) (a n : Nat) : (s.setNat a n).lck = s.lck := rfl
@[simp] theorem State.setNat_prt (s : State) (a n : Nat) : (s.setNat a n).prt = s.prt := rfl
@[simp] theorem State.setNat_flt (s : State) (a n : Nat) : (s.setNat a n).flt = s.flt := rfl
@[simp] theorem State.setNat_pst (s : State) (a n : Nat) : (s.setNat a n).pst = s.pst := rfl
@[simp] theorem State.setNat_stk (s : State) (a n : Nat) : (s.setNat a n).stk = s.stk := rfl
@[simp] theorem State.setNat_dsp (s : State) (a n : Nat) : (s.setNat a n).dsp = s.dsp := rfl
@[simp] theorem State.setNat_mc (s : State) (a n : Nat) : (s.setNat a n).mc = s.mc := rfl
@[simp] theorem State.setNat_cal (s : State) (a n : Nat) : (s.setNat a n).cal = s.cal := rfl
@[simp] theorem State.setNat_pwr (s : State) (a n : Nat) : (s.setNat a n).pwr = s.pwr := rfl
@[simp] theorem State.setNat_thm (s : State) (a n : Nat) : (s.setNat a n).thm = s.thm := rfl
@[simp] theorem State.setNat_mon (s : State) (a n : Nat) : (s.setNat a n).mon = s.mon := rfl
@[simp] theorem State.setNat_sdm (s : State) (a n : Nat) : (s.setNat a n).sdm = s.sdm := rfl
@[simp] theorem State.setNat_sys (s : State) (a n : Nat) : (s.setNat a n).sys = s.sys := rfl
@[simp] theorem State.setNat_pending (s : State) (a n : Nat) : (s.setNat a n).pending = s.pending := rfl

/-! ### What `count` leaves alone -/

@[simp] theorem State.count_part (s : State) (a n : Nat) : (s.count a n).part = s.part := rfl
@[simp] theorem State.count_timeUs (s : State) (a n : Nat) : (s.count a n).timeUs = s.timeUs := rfl
@[simp] theorem State.count_fresh (s : State) (a n : Nat) : (s.count a n).fresh = s.fresh := rfl
@[simp] theorem State.count_cfg (s : State) (a n : Nat) : (s.count a n).cfg = s.cfg := rfl
@[simp] theorem State.count_wire (s : State) (a n : Nat) : (s.count a n).wire = s.wire := rfl
@[simp] theorem State.count_lck (s : State) (a n : Nat) : (s.count a n).lck = s.lck := rfl
@[simp] theorem State.count_prt (s : State) (a n : Nat) : (s.count a n).prt = s.prt := rfl
@[simp] theorem State.count_flt (s : State) (a n : Nat) : (s.count a n).flt = s.flt := rfl
@[simp] theorem State.count_pst (s : State) (a n : Nat) : (s.count a n).pst = s.pst := rfl
@[simp] theorem State.count_stk (s : State) (a n : Nat) : (s.count a n).stk = s.stk := rfl
@[simp] theorem State.count_dsp (s : State) (a n : Nat) : (s.count a n).dsp = s.dsp := rfl
@[simp] theorem State.count_mc (s : State) (a n : Nat) : (s.count a n).mc = s.mc := rfl
@[simp] theorem State.count_cal (s : State) (a n : Nat) : (s.count a n).cal = s.cal := rfl
@[simp] theorem State.count_pwr (s : State) (a n : Nat) : (s.count a n).pwr = s.pwr := rfl
@[simp] theorem State.count_thm (s : State) (a n : Nat) : (s.count a n).thm = s.thm := rfl
@[simp] theorem State.count_mon (s : State) (a n : Nat) : (s.count a n).mon = s.mon := rfl
@[simp] theorem State.count_sdm (s : State) (a n : Nat) : (s.count a n).sdm = s.sdm := rfl
@[simp] theorem State.count_sys (s : State) (a n : Nat) : (s.count a n).sys = s.sys := rfl
@[simp] theorem State.count_pending (s : State) (a n : Nat) : (s.count a n).pending = s.pending := rfl

/-! ### What `countF` leaves alone -/

@[simp] theorem State.countF_part (s : State) (a : Nat) (f : Field) : (s.countF a f).part = s.part := rfl
@[simp] theorem State.countF_timeUs (s : State) (a : Nat) (f : Field) : (s.countF a f).timeUs = s.timeUs := rfl
@[simp] theorem State.countF_fresh (s : State) (a : Nat) (f : Field) : (s.countF a f).fresh = s.fresh := rfl
@[simp] theorem State.countF_cfg (s : State) (a : Nat) (f : Field) : (s.countF a f).cfg = s.cfg := rfl
@[simp] theorem State.countF_wire (s : State) (a : Nat) (f : Field) : (s.countF a f).wire = s.wire := rfl
@[simp] theorem State.countF_lck (s : State) (a : Nat) (f : Field) : (s.countF a f).lck = s.lck := rfl
@[simp] theorem State.countF_prt (s : State) (a : Nat) (f : Field) : (s.countF a f).prt = s.prt := rfl
@[simp] theorem State.countF_flt (s : State) (a : Nat) (f : Field) : (s.countF a f).flt = s.flt := rfl
@[simp] theorem State.countF_pst (s : State) (a : Nat) (f : Field) : (s.countF a f).pst = s.pst := rfl
@[simp] theorem State.countF_stk (s : State) (a : Nat) (f : Field) : (s.countF a f).stk = s.stk := rfl
@[simp] theorem State.countF_dsp (s : State) (a : Nat) (f : Field) : (s.countF a f).dsp = s.dsp := rfl
@[simp] theorem State.countF_mc (s : State) (a : Nat) (f : Field) : (s.countF a f).mc = s.mc := rfl
@[simp] theorem State.countF_cal (s : State) (a : Nat) (f : Field) : (s.countF a f).cal = s.cal := rfl
@[simp] theorem State.countF_pwr (s : State) (a : Nat) (f : Field) : (s.countF a f).pwr = s.pwr := rfl
@[simp] theorem State.countF_thm (s : State) (a : Nat) (f : Field) : (s.countF a f).thm = s.thm := rfl
@[simp] theorem State.countF_mon (s : State) (a : Nat) (f : Field) : (s.countF a f).mon = s.mon := rfl
@[simp] theorem State.countF_sdm (s : State) (a : Nat) (f : Field) : (s.countF a f).sdm = s.sdm := rfl
@[simp] theorem State.countF_sys (s : State) (a : Nat) (f : Field) : (s.countF a f).sys = s.sys := rfl
@[simp] theorem State.countF_pending (s : State) (a : Nat) (f : Field) : (s.countF a f).pending = s.pending := rfl

/-! ### What `raise` leaves alone -/

@[simp] theorem State.raise_part (s : State) (a : Nat) (f : Field) (e : Nat) : (s.raise a f e).part = s.part := rfl
@[simp] theorem State.raise_timeUs (s : State) (a : Nat) (f : Field) (e : Nat) : (s.raise a f e).timeUs = s.timeUs := rfl
@[simp] theorem State.raise_fresh (s : State) (a : Nat) (f : Field) (e : Nat) : (s.raise a f e).fresh = s.fresh := rfl
@[simp] theorem State.raise_cfg (s : State) (a : Nat) (f : Field) (e : Nat) : (s.raise a f e).cfg = s.cfg := rfl
@[simp] theorem State.raise_wire (s : State) (a : Nat) (f : Field) (e : Nat) : (s.raise a f e).wire = s.wire := rfl
@[simp] theorem State.raise_lck (s : State) (a : Nat) (f : Field) (e : Nat) : (s.raise a f e).lck = s.lck := rfl
@[simp] theorem State.raise_prt (s : State) (a : Nat) (f : Field) (e : Nat) : (s.raise a f e).prt = s.prt := rfl
@[simp] theorem State.raise_flt (s : State) (a : Nat) (f : Field) (e : Nat) : (s.raise a f e).flt = s.flt := rfl
@[simp] theorem State.raise_pst (s : State) (a : Nat) (f : Field) (e : Nat) : (s.raise a f e).pst = s.pst := rfl
@[simp] theorem State.raise_stk (s : State) (a : Nat) (f : Field) (e : Nat) : (s.raise a f e).stk = s.stk := rfl
@[simp] theorem State.raise_dsp (s : State) (a : Nat) (f : Field) (e : Nat) : (s.raise a f e).dsp = s.dsp := rfl
@[simp] theorem State.raise_mc (s : State) (a : Nat) (f : Field) (e : Nat) : (s.raise a f e).mc = s.mc := rfl
@[simp] theorem State.raise_cal (s : State) (a : Nat) (f : Field) (e : Nat) : (s.raise a f e).cal = s.cal := rfl
@[simp] theorem State.raise_pwr (s : State) (a : Nat) (f : Field) (e : Nat) : (s.raise a f e).pwr = s.pwr := rfl
@[simp] theorem State.raise_thm (s : State) (a : Nat) (f : Field) (e : Nat) : (s.raise a f e).thm = s.thm := rfl
@[simp] theorem State.raise_mon (s : State) (a : Nat) (f : Field) (e : Nat) : (s.raise a f e).mon = s.mon := rfl
@[simp] theorem State.raise_sdm (s : State) (a : Nat) (f : Field) (e : Nat) : (s.raise a f e).sdm = s.sdm := rfl
@[simp] theorem State.raise_sys (s : State) (a : Nat) (f : Field) (e : Nat) : (s.raise a f e).sys = s.sys := rfl
@[simp] theorem State.raise_pending (s : State) (a : Nat) (f : Field) (e : Nat) : (s.raise a f e).pending = s.pending := rfl

/-! ### What `clearBits` leaves alone -/

@[simp] theorem State.clearBits_part (s : State) (a : Nat) (m : Word) : (s.clearBits a m).part = s.part := rfl
@[simp] theorem State.clearBits_timeUs (s : State) (a : Nat) (m : Word) : (s.clearBits a m).timeUs = s.timeUs := rfl
@[simp] theorem State.clearBits_fresh (s : State) (a : Nat) (m : Word) : (s.clearBits a m).fresh = s.fresh := rfl
@[simp] theorem State.clearBits_cfg (s : State) (a : Nat) (m : Word) : (s.clearBits a m).cfg = s.cfg := rfl
@[simp] theorem State.clearBits_wire (s : State) (a : Nat) (m : Word) : (s.clearBits a m).wire = s.wire := rfl
@[simp] theorem State.clearBits_lck (s : State) (a : Nat) (m : Word) : (s.clearBits a m).lck = s.lck := rfl
@[simp] theorem State.clearBits_prt (s : State) (a : Nat) (m : Word) : (s.clearBits a m).prt = s.prt := rfl
@[simp] theorem State.clearBits_flt (s : State) (a : Nat) (m : Word) : (s.clearBits a m).flt = s.flt := rfl
@[simp] theorem State.clearBits_pst (s : State) (a : Nat) (m : Word) : (s.clearBits a m).pst = s.pst := rfl
@[simp] theorem State.clearBits_stk (s : State) (a : Nat) (m : Word) : (s.clearBits a m).stk = s.stk := rfl
@[simp] theorem State.clearBits_dsp (s : State) (a : Nat) (m : Word) : (s.clearBits a m).dsp = s.dsp := rfl
@[simp] theorem State.clearBits_mc (s : State) (a : Nat) (m : Word) : (s.clearBits a m).mc = s.mc := rfl
@[simp] theorem State.clearBits_cal (s : State) (a : Nat) (m : Word) : (s.clearBits a m).cal = s.cal := rfl
@[simp] theorem State.clearBits_pwr (s : State) (a : Nat) (m : Word) : (s.clearBits a m).pwr = s.pwr := rfl
@[simp] theorem State.clearBits_thm (s : State) (a : Nat) (m : Word) : (s.clearBits a m).thm = s.thm := rfl
@[simp] theorem State.clearBits_mon (s : State) (a : Nat) (m : Word) : (s.clearBits a m).mon = s.mon := rfl
@[simp] theorem State.clearBits_sdm (s : State) (a : Nat) (m : Word) : (s.clearBits a m).sdm = s.sdm := rfl
@[simp] theorem State.clearBits_sys (s : State) (a : Nat) (m : Word) : (s.clearBits a m).sys = s.sys := rfl
@[simp] theorem State.clearBits_pending (s : State) (a : Nat) (m : Word) : (s.clearBits a m).pending = s.pending := rfl

end Sys2Proof.Machine
end

