-- ==== Sys2Proof/Laws/Frame.lean ====
section
/-! SUPPORT. Frames of the shared operations that firmware and the units use: flags, counters, reports, tiles and converters.
A prover cites these and does not unfold the operations. -/

namespace Sys2Proof.Machine

/-! ### Registers of equal tables -/

theorem State.reg_congr {s t : State} (h : t.regs = s.regs) (hp : t.part = s.part) (a : Nat) : t.reg a = s.reg a := by
  simp only [State.reg, h, hp]
theorem State.getF_congr {s t : State} {a : Nat} (h : t.reg a = s.reg a) (f : Field) : t.getF a f = s.getF a f := by
  simp only [State.getF, h]
theorem State.getF_lt (s : State) (a : Nat) (f : Field) : s.getF a f < 2 ^ f.width := Field.get_lt _ _
theorem State.getF_mod (s : State) (a : Nat) (f : Field) : s.getF a f % 2 ^ f.width = s.getF a f :=
  Nat.mod_eq_of_lt (State.getF_lt s a f)

/-! ### Flags, numbers and counters -/
theorem State.isSet_setF_self (s : State) (a : Nat) (f : Field) (v : Nat) (h : f.lo + f.width ≤ 32) :
    (s.setF a f v).isSet a f = (v % 2 ^ f.width == 1) := by
  simp only [State.isSet, State.getF_setF_self s a f v h]
theorem State.isSet_setF_ne (s : State) {a b : Nat} (f g : Field) (v : Nat) (h : b ≠ a) :
    (s.setF a f v).isSet b g = s.isSet b g := by
  simp only [State.isSet, State.getF_setF_ne s f g v h]
theorem State.isSet_setF_field (s : State) (a : Nat) (f g : Field) (v : Nat) (hf : f.lo + f.width ≤ 32)
    (hd : g.lo + g.width ≤ f.lo ∨ f.lo + f.width ≤ g.lo) : (s.setF a f v).isSet a g = s.isSet a g := by
  simp only [State.isSet, State.getF_setF_field s a f g v hf hd]
theorem State.getF_raise_self (s : State) (a : Nat) (f : Field) (e : Nat) (h : a ≠ e) (hf : f.lo + f.width ≤ 32) :
    (s.raise a f e).getF a f = 1 % 2 ^ f.width := by
  simp only [State.getF, State.reg_raise_self s a f e h, Field.get_set_self f _ _ hf]
theorem State.isSet_raise_self (s : State) (a : Nat) (f : Field) (e : Nat) (h : a ≠ e) (hf : f.lo + f.width ≤ 32) (h1 : 1 % 2 ^ f.width = 1) :
    (s.raise a f e).isSet a f = true := by
  simp only [State.isSet, State.getF_raise_self s a f e h hf, h1]; rfl
theorem State.getF_raise_ne (s : State) (a : Nat) (f g : Field) (e : Nat) {b : Nat} (ha : b ≠ a) (he : b ≠ e) :
    (s.raise a f e).getF b g = s.getF b g := State.getF_congr (State.reg_raise_ne s a f e ha he) g
theorem State.isSet_raise_ne (s : State) (a : Nat) (f g : Field) (e : Nat) {b : Nat} (ha : b ≠ a) (he : b ≠ e) :
    (s.raise a f e).isSet b g = s.isSet b g := by simp only [State.isSet, State.getF_raise_ne s a f g e ha he]
theorem State.reg_setNat_self (s : State) (a n : Nat) : (s.setNat a n).reg a = BitVec.ofNat 32 n := State.reg_setReg_self _ _ _
theorem State.reg_setNat_ne (s : State) {a b : Nat} (n : Nat) (h : b ≠ a) : (s.setNat a n).reg b = s.reg b := State.reg_setReg_ne _ _ h
theorem State.getF_setNat_ne (s : State) {a b : Nat} (n : Nat) (f : Field) (h : b ≠ a) : (s.setNat a n).getF b f = s.getF b f :=
  State.getF_congr (State.reg_setNat_ne s n h) f
theorem State.getF_count_ne (s : State) {a b : Nat} (n : Nat) (f : Field) (h : b ≠ a) : (s.count a n).getF b f = s.getF b f :=
  State.getF_congr (State.reg_count_ne s h) f
theorem State.isSet_setNat_ne (s : State) {a b : Nat} (n : Nat) (f : Field) (h : b ≠ a) : (s.setNat a n).isSet b f = s.isSet b f := by
  simp only [State.isSet, State.getF_setNat_ne s n f h]
theorem State.isSet_count_ne (s : State) {a b : Nat} (n : Nat) (f : Field) (h : b ≠ a) : (s.count a n).isSet b f = s.isSet b f := by
  simp only [State.isSet, State.getF_count_ne s n f h]

/-! ### A report (R415) changes FLT_OPEN, FLT_STATUS and the two counters, and the aggregator -/
theorem State.reg_syncOpen (s : State) {a : Nat} (h1 : a ≠ R.fltOpen) : s.syncOpen.reg a = s.reg a := by
  unfold State.syncOpen
  exact (State.reg_setF_ne _ _ _ h1).trans (State.reg_setF_ne _ _ _ h1)
theorem State.reg_report (s : State) (src code rep d : Nat) {a : Nat}
    (h : a ≠ R.fltOpen ∧ a ≠ R.fltStatus ∧ a ≠ R.fltNewsrcEvt ∧ a ≠ R.fltOvfEvt) :
    (s.report src code rep d).reg a = s.reg a := by
  obtain ⟨h1, h2, h3, h4⟩ := h
  unfold State.report
  split
  · exact State.reg_congr rfl rfl a
  · split
    · exact (State.reg_raise_ne _ _ _ _ h2 h3).trans ((State.reg_syncOpen _ h1).trans (State.reg_congr rfl rfl a))
    · exact (State.reg_raise_ne _ _ _ _ h2 h4).trans (State.reg_congr rfl rfl a)
theorem State.getF_report (s : State) (src code rep d : Nat) {a : Nat} (f : Field)
    (h : a ≠ R.fltOpen ∧ a ≠ R.fltStatus ∧ a ≠ R.fltNewsrcEvt ∧ a ≠ R.fltOvfEvt) :
    (s.report src code rep d).getF a f = s.getF a f := State.getF_congr (State.reg_report s src code rep d h) f
theorem State.isSet_report (s : State) (src code rep d : Nat) {a : Nat} (f : Field)
    (h : a ≠ R.fltOpen ∧ a ≠ R.fltStatus ∧ a ≠ R.fltNewsrcEvt ∧ a ≠ R.fltOvfEvt) :
    (s.report src code rep d).isSet a f = s.isSet a f := by simp only [State.isSet, State.getF_report s src code rep d f h]
theorem State.syncOpen_part (s : State) : s.syncOpen.part = s.part := by
  unfold State.syncOpen
  exact (State.setF_part _ _ _ _).trans (State.setF_part _ _ _ _)
@[simp] theorem State.report_part (s : State) (src code rep d : Nat) : (s.report src code rep d).part = s.part := by
  unfold State.report
  split
  · rfl
  · split
    · exact (State.raise_part _ _ _ _).trans (State.syncOpen_part _)
    · exact State.raise_part _ _ _ _
theorem State.syncOpen_timeUs (s : State) : s.syncOpen.timeUs = s.timeUs := by
  unfold State.syncOpen
  exact (State.setF_timeUs _ _ _ _).trans (State.setF_timeUs _ _ _ _)
@[simp] theorem State.report_timeUs (s : State) (src code rep d : Nat) : (s.report src code rep d).timeUs = s.timeUs := by
  unfold State.report
  split
  · rfl
  · split
    · exact (State.raise_timeUs _ _ _ _).trans (State.syncOpen_timeUs _)
    · exact State.raise_timeUs _ _ _ _
theorem State.syncOpen_fresh (s : State) : s.syncOpen.fresh = s.fresh := by
  unfold State.syncOpen
  exact (State.setF_fresh _ _ _ _).trans (State.setF_fresh _ _ _ _)
@[simp] theorem State.report_fresh (s : State) (src code rep d : Nat) : (s.report src code rep d).fresh = s.fresh := by
  unfold State.report
  split
  · rfl
  · split
    · exact (State.raise_fresh _ _ _ _).trans (State.syncOpen_fresh _)
    · exact State.raise_fresh _ _ _ _
theorem State.syncOpen_cfg (s : State) : s.syncOpen.cfg = s.cfg := by
  unfold State.syncOpen
  exact (State.setF_cfg _ _ _ _).trans (State.setF_cfg _ _ _ _)
@[simp] theorem State.report_cfg (s : State) (src code rep d : Nat) : (s.report src code rep d).cfg = s.cfg := by
  unfold State.report
  split
  · rfl
  · split
    · exact (State.raise_cfg _ _ _ _).trans (State.syncOpen_cfg _)
    · exact State.raise_cfg _ _ _ _
theorem State.syncOpen_wire (s : State) : s.syncOpen.wire = s.wire := by
  unfold State.syncOpen
  exact (State.setF_wire _ _ _ _).trans (State.setF_wire _ _ _ _)
@[simp] theorem State.report_wire (s : State) (src code rep d : Nat) : (s.report src code rep d).wire = s.wire := by
  unfold State.report
  split
  · rfl
  · split
    · exact (State.raise_wire _ _ _ _).trans (State.syncOpen_wire _)
    · exact State.raise_wire _ _ _ _
theorem State.syncOpen_lck (s : State) : s.syncOpen.lck = s.lck := by
  unfold State.syncOpen
  exact (State.setF_lck _ _ _ _).trans (State.setF_lck _ _ _ _)
@[simp] theorem State.report_lck (s : State) (src code rep d : Nat) : (s.report src code rep d).lck = s.lck := by
  unfold State.report
  split
  · rfl
  · split
    · exact (State.raise_lck _ _ _ _).trans (State.syncOpen_lck _)
    · exact State.raise_lck _ _ _ _
theorem State.syncOpen_prt (s : State) : s.syncOpen.prt = s.prt := by
  unfold State.syncOpen
  exact (State.setF_prt _ _ _ _).trans (State.setF_prt _ _ _ _)
@[simp] theorem State.report_prt (s : State) (src code rep d : Nat) : (s.report src code rep d).prt = s.prt := by
  unfold State.report
  split
  · rfl
  · split
    · exact (State.raise_prt _ _ _ _).trans (State.syncOpen_prt _)
    · exact State.raise_prt _ _ _ _
theorem State.syncOpen_pst (s : State) : s.syncOpen.pst = s.pst := by
  unfold State.syncOpen
  exact (State.setF_pst _ _ _ _).trans (State.setF_pst _ _ _ _)
@[simp] theorem State.report_pst (s : State) (src code rep d : Nat) : (s.report src code rep d).pst = s.pst := by
  unfold State.report
  split
  · rfl
  · split
    · exact (State.raise_pst _ _ _ _).trans (State.syncOpen_pst _)
    · exact State.raise_pst _ _ _ _
theorem State.syncOpen_stk (s : State) : s.syncOpen.stk = s.stk := by
  unfold State.syncOpen
  exact (State.setF_stk _ _ _ _).trans (State.setF_stk _ _ _ _)
@[simp] theorem State.report_stk (s : State) (src code rep d : Nat) : (s.report src code rep d).stk = s.stk := by
  unfold State.report
  split
  · rfl
  · split
    · exact (State.raise_stk _ _ _ _).trans (State.syncOpen_stk _)
    · exact State.raise_stk _ _ _ _
theorem State.syncOpen_dsp (s : State) : s.syncOpen.dsp = s.dsp := by
  unfold State.syncOpen
  exact (State.setF_dsp _ _ _ _).trans (State.setF_dsp _ _ _ _)
@[simp] theorem State.report_dsp (s : State) (src code rep d : Nat) : (s.report src code rep d).dsp = s.dsp := by
  unfold State.report
  split
  · rfl
  · split
    · exact (State.raise_dsp _ _ _ _).trans (State.syncOpen_dsp _)
    · exact State.raise_dsp _ _ _ _
theorem State.syncOpen_mc (s : State) : s.syncOpen.mc = s.mc := by
  unfold State.syncOpen
  exact (State.setF_mc _ _ _ _).trans (State.setF_mc _ _ _ _)
@[simp] theorem State.report_mc (s : State) (src code rep d : Nat) : (s.report src code rep d).mc = s.mc := by
  unfold State.report
  split
  · rfl
  · split
    · exact (State.raise_mc _ _ _ _).trans (State.syncOpen_mc _)
    · exact State.raise_mc _ _ _ _
theorem State.syncOpen_cal (s : State) : s.syncOpen.cal = s.cal := by
  unfold State.syncOpen
  exact (State.setF_cal _ _ _ _).trans (State.setF_cal _ _ _ _)
@[simp] theorem State.report_cal (s : State) (src code rep d : Nat) : (s.report src code rep d).cal = s.cal := by
  unfold State.report
  split
  · rfl
  · split
    · exact (State.raise_cal _ _ _ _).trans (State.syncOpen_cal _)
    · exact State.raise_cal _ _ _ _
theorem State.syncOpen_pwr (s : State) : s.syncOpen.pwr = s.pwr := by
  unfold State.syncOpen
  exact (State.setF_pwr _ _ _ _).trans (State.setF_pwr _ _ _ _)
@[simp] theorem State.report_pwr (s : State) (src code rep d : Nat) : (s.report src code rep d).pwr = s.pwr := by
  unfold State.report
  split
  · rfl
  · split
    · exact (State.raise_pwr _ _ _ _).trans (State.syncOpen_pwr _)
    · exact State.raise_pwr _ _ _ _
theorem State.syncOpen_thm (s : State) : s.syncOpen.thm = s.thm := by
  unfold State.syncOpen
  exact (State.setF_thm _ _ _ _).trans (State.setF_thm _ _ _ _)
@[simp] theorem State.report_thm (s : State) (src code rep d : Nat) : (s.report src code rep d).thm = s.thm := by
  unfold State.report
  split
  · rfl
  · split
    · exact (State.raise_thm _ _ _ _).trans (State.syncOpen_thm _)
    · exact State.raise_thm _ _ _ _
theorem State.syncOpen_mon (s : State) : s.syncOpen.mon = s.mon := by
  unfold State.syncOpen
  exact (State.setF_mon _ _ _ _).trans (State.setF_mon _ _ _ _)
@[simp] theorem State.report_mon (s : State) (src code rep d : Nat) : (s.report src code rep d).mon = s.mon := by
  unfold State.report
  split
  · rfl
  · split
    · exact (State.raise_mon _ _ _ _).trans (State.syncOpen_mon _)
    · exact State.raise_mon _ _ _ _
theorem State.syncOpen_sdm (s : State) : s.syncOpen.sdm = s.sdm := by
  unfold State.syncOpen
  exact (State.setF_sdm _ _ _ _).trans (State.setF_sdm _ _ _ _)
@[simp] theorem State.report_sdm (s : State) (src code rep d : Nat) : (s.report src code rep d).sdm = s.sdm := by
  unfold State.report
  split
  · rfl
  · split
    · exact (State.raise_sdm _ _ _ _).trans (State.syncOpen_sdm _)
    · exact State.raise_sdm _ _ _ _
theorem State.syncOpen_sys (s : State) : s.syncOpen.sys = s.sys := by
  unfold State.syncOpen
  exact (State.setF_sys _ _ _ _).trans (State.setF_sys _ _ _ _)
@[simp] theorem State.report_sys (s : State) (src code rep d : Nat) : (s.report src code rep d).sys = s.sys := by
  unfold State.report
  split
  · rfl
  · split
    · exact (State.raise_sys _ _ _ _).trans (State.syncOpen_sys _)
    · exact State.raise_sys _ _ _ _
theorem State.syncOpen_pending (s : State) : s.syncOpen.pending = s.pending := by
  unfold State.syncOpen
  exact (State.setF_pending _ _ _ _).trans (State.setF_pending _ _ _ _)
@[simp] theorem State.report_pending (s : State) (src code rep d : Nat) : (s.report src code rep d).pending = s.pending := by
  unfold State.report
  split
  · rfl
  · split
    · exact (State.raise_pending _ _ _ _).trans (State.syncOpen_pending _)
    · exact State.raise_pending _ _ _ _

/-! ### Tiles -/
theorem State.reg_setTile (s : State) (c t : Nat) (x : TileRt) (a : Nat) : (s.setTile c t x).reg a = s.reg a := rfl
theorem State.getF_setTile (s : State) (c t : Nat) (x : TileRt) (a : Nat) (f : Field) : (s.setTile c t x).getF a f = s.getF a f := rfl
theorem State.isSet_setTile (s : State) (c t : Nat) (x : TileRt) (a : Nat) (f : Field) : (s.setTile c t x).isSet a f = s.isSet a f := rfl
theorem State.tile_setTile (s : State) (c t : Nat) (x : TileRt) : (s.setTile c t x).tile c t = x := Tab.getD_set_self _ _ _ _
theorem State.tile_setTile_ne (s : State) {c t c' t' : Nat} (x : TileRt) (h : tileKey c' t' ≠ tileKey c t) :
    (s.setTile c t x).tile c' t' = s.tile c' t' := Tab.getD_set_ne _ _ _ _ h

/-! ### Converters -/
theorem State.conv_setConv (s : State) (x : Nat) (k : Conv) : (s.setConv x k).conv x = k := by
  unfold State.setConv State.conv; split <;> simp_all
theorem State.reg_setConv (s : State) (x : Nat) (k : Conv) (a : Nat) : (s.setConv x k).reg a = s.reg a := by
  unfold State.setConv; split <;> rfl
theorem State.getF_setConv (s : State) (x : Nat) (k : Conv) (a : Nat) (f : Field) : (s.setConv x k).getF a f = s.getF a f := State.getF_congr (State.reg_setConv s x k a) f
theorem State.isSet_setConv (s : State) (x : Nat) (k : Conv) (a : Nat) (f : Field) : (s.setConv x k).isSet a f = s.isSet a f := by simp only [State.isSet, State.getF_setConv]
theorem State.conv_setF (s : State) (x a : Nat) (f : Field) (v : Nat) : (s.setF a f v).conv x = s.conv x := rfl
theorem State.conv_setReg (s : State) (x a : Nat) (v : Word) : (s.setReg a v).conv x = s.conv x := rfl
theorem State.conv_setNat (s : State) (x a v : Nat)  : (s.setNat a v).conv x = s.conv x := rfl
theorem State.conv_raise (s : State) (x a : Nat) (f : Field) (e : Nat) : (s.raise a f e).conv x = s.conv x := rfl

/-! ### Tables with a listed default -/
theorem Tab.getD_put_self {α : Type} (t : Tab α) (k : Nat) (v d : α) : (t.put k v).getD k d = v := by
  simp [Tab.getD, Tab.get?_put_self]
theorem Tab.getD_put_ne {α : Type} (t : Tab α) {k k' : Nat} (v d : α) (h : k' ≠ k) : (t.put k v).getD k' d = t.getD k' d := by
  simp [Tab.getD, Tab.get?_put_ne _ _ h]

end Sys2Proof.Machine
end

