-- ==== Sys2Proof/Laws/Keep.lean ====
section
/-! SUPPORT. What every operation of the block keeps: the ordering code, the queue, the canonical register table, the locked
limits and the burned key. -/

namespace Sys2Proof.Machine

/-- What `s`, reached from `s0` within one command, keeps of it. -/
structure Keep (s0 s : State) : Prop where
  part : s.part = s0.part
  pending : s.pending = s0.pending
  time : s.timeUs = s0.timeUs ∨ s.justReset
  canon : s0.canonical = true → s.canonical = true
  limits : s.justReset ∨ s0.limitsHold s
  key : s0.keyHolds s

theorem Keep.refl (s : State) : Keep s s :=
  ⟨rfl, rfl, .inl rfl, id, .inr fun _ _ _ => rfl, fun h => ⟨h, rfl⟩⟩

/-- The lock of every row is itself a row whose bits are the lock bit. -/
theorem limitRows_lock {l : LimitRow} (h : l ∈ limitRows) : (⟨l.lock, l.lockBit, l.lock, l.lockBit⟩ : LimitRow) ∈ limitRows := by
  revert l; decide

/-- A lock stays set where every limit holds. -/
theorem limitsHold_locked {s t : State} (h : s.limitsHold t) {l : LimitRow} (hl : l ∈ limitRows) (k : l.isLocked s) :
    l.isLocked t := (h _ (limitRows_lock hl) k).trans k

theorem Keep.trans {s t u : State} (h : Keep s t) (k : Keep t u) : Keep s u where
  part := k.part.trans h.part
  pending := k.pending.trans h.pending
  time := by
    rcases k.time with e | e
    · rcases h.time with f | f
      · exact .inl (e.trans f)
      · exact .inr (e.trans f)
    · exact .inr e
  canon := fun c => k.canon (h.canon c)
  limits := by
    rcases k.limits with e | e
    · exact .inl e
    · rcases h.limits with f | f
      · rcases k.time with g | g
        · exact .inl (g.trans f)
        · exact .inl g
      · exact .inr fun l hl hk => (e l hl (limitsHold_locked f hl hk)).trans (f l hl hk)
  key := fun e => ⟨(k.key (h.key e).1).1, (k.key (h.key e).1).2.trans (h.key e).2⟩

/-- A change of hidden state alone. -/
theorem Keep.hidden {s0 s : State} (h : Keep s0 s) {fresh : Nat} {cfg : Tab (List Nat)} {wire : List Wire} {lck : LckUnit}
    {prt : PrtUnit} {flt : FltUnit} {pst : PstUnit} {stk : StkUnit} {dsp : DspUnit} {mc : CoreUnit} {cal : CalUnit}
    {pwr : PwrUnit} {thm : ThmUnit} {mon : MonUnit} {sdm : SdmUnit} {sys : SysUnit}
    (he : sys.enrolled = s.sys.enrolled) (hk : sys.keyFuse = s.sys.keyFuse) :
    Keep s0 (State.mk s.part s.timeUs fresh s.regs cfg wire lck prt flt pst stk dsp mc cal pwr thm mon sdm sys s.pending) :=
  h.trans ⟨rfl, rfl, .inl rfl, id, .inr fun _ _ _ => rfl, fun e => ⟨he.trans e, hk⟩⟩

/-- A register write that leaves every locked bit as it was. -/
theorem Keep.setReg' {s0 s : State} (h : Keep s0 s) (a : Nat) (w : Word)
    (ok : ∀ l ∈ limitRows, l.addr = a → l.isLocked s → w &&& l.bits = s.reg a &&& l.bits) : Keep s0 (s.setReg a w) :=
  h.trans
    { part := rfl
      pending := rfl
      time := .inl rfl
      canon := fun c => Tab.canon_set _ _ _ _ c
      limits := .inr fun l hl hk => by
        unfold LimitRow.same
        by_cases e : l.addr = a
        · rw [e, State.reg_setReg_self]; exact ok l hl e hk
        · rw [State.reg_setReg_ne _ _ e]
      key := fun e => ⟨e, rfl⟩ }

/-- The address is no limit's and no lock's. -/
def notLimit (a : Nat) : Prop :=
  a < 0x20004 ∨ (0x20018 < a ∧ a < 0x30000) ∨ (0x30004 < a ∧ a < 0x50004) ∨ (0x50008 < a ∧ a < 0xA0000) ∨ 0xA0000 < a

theorem limitRows_range : ∀ l ∈ limitRows, (0x20004 ≤ l.addr ∧ l.addr ≤ 0x20018) ∨ (0x30000 ≤ l.addr ∧ l.addr ≤ 0x30004) ∨
    (0x50004 ≤ l.addr ∧ l.addr ≤ 0x50008) ∨ l.addr = 0xA0000 := by decide

theorem notLimit_ne {a : Nat} (h : notLimit a) {l : LimitRow} (hl : l ∈ limitRows) : l.addr ≠ a := by
  have := limitRows_range l hl; unfold notLimit at h; omega

theorem Keep.setReg {s0 s : State} (h : Keep s0 s) {a : Nat} {w : Word} (n : notLimit a) : Keep s0 (s.setReg a w) :=
  h.setReg' a w fun _ hl e => absurd e (notLimit_ne n hl)

theorem Keep.setF {s0 s : State} (h : Keep s0 s) {a : Nat} {f : Field} {v : Nat} (n : notLimit a) :
    Keep s0 (s.setF a f v) := h.setReg n

theorem Keep.setNat {s0 s : State} (h : Keep s0 s) {a v : Nat} (n : notLimit a) : Keep s0 (s.setNat a v) := h.setReg n

theorem Keep.count {s0 s : State} (h : Keep s0 s) {a v : Nat} (n : notLimit a) : Keep s0 (s.count a v) := h.setReg n

theorem Keep.countF {s0 s : State} (h : Keep s0 s) {a : Nat} {f : Field} (n : notLimit a) : Keep s0 (s.countF a f) := h.setReg n

theorem Keep.raise {s0 s : State} (h : Keep s0 s) {a : Nat} {f : Field} {e : Nat} (n : notLimit a) (m : notLimit e) :
    Keep s0 (s.raise a f e) := (h.setF n).count m

theorem Keep.clearBits {s0 s : State} (h : Keep s0 s) {a : Nat} {m : Word} (n : notLimit a) : Keep s0 (s.clearBits a m) :=
  h.setReg n

theorem Keep.ite' {s0 s t : State} {c : Prop} [Decidable c] (h : c → Keep s0 s) (k : ¬ c → Keep s0 t) :
    Keep s0 (if c then s else t) := by
  split
  · exact h ‹_›
  · exact k ‹_›

theorem Keep.foldl {α : Type} {s0 : State} (f : State → α → State) (hf : ∀ s x, Keep s0 s → Keep s0 (f s x)) :
    ∀ (l : List α) (s : State), Keep s0 s → Keep s0 (l.foldl f s)
  | [], _, h => h
  | x :: l, s, h => Keep.foldl f hf l (f s x) (hf s x h)

theorem Keep.foldl_fst {α β : Type} {s0 : State} (f : State × β → α → State × β)
    (hf : ∀ p x, Keep s0 p.1 → Keep s0 (f p x).1) : ∀ (l : List α) (p : State × β), Keep s0 p.1 → Keep s0 (l.foldl f p).1
  | [], _, h => h
  | x :: l, p, h => Keep.foldl_fst f hf l (f p x) (hf p x h)

theorem Keep.foldl_snd {α β : Type} {s0 : State} (f : β × State → α → β × State)
    (hf : ∀ p x, Keep s0 p.2 → Keep s0 (f p x).2) : ∀ (l : List α) (p : β × State), Keep s0 p.2 → Keep s0 (l.foldl f p).2
  | [], _, h => h
  | x :: l, p, h => Keep.foldl_snd f hf l (f p x) (hf p x h)

/-- The limits and the locks are registers of the always-on domain. -/
theorem limitRows_aon : ∀ l ∈ limitRows, domainOf l.addr = none := by decide

theorem Keep.setOff {s0 s : State} (h : Keep s0 s) {a : Nat} {w : Word} (n : domainOf a ≠ none) : Keep s0 (s.setReg a w) :=
  h.setReg' a w fun l hl e => absurd (e ▸ limitRows_aon l hl) n

/-- A reset of the always-on domain: every register at its reset value but for those it keeps (R426). -/
theorem Keep.aon {s0 s t : State} (h : Keep s0 s) (hp : t.part = s.part) (hq : t.pending = s.pending) (ht : t.timeUs = 0)
    (hr : t.regs = keptRegs s.part s.regs) (he : t.sys.enrolled = s.sys.enrolled) (hk : t.sys.keyFuse = s.sys.keyFuse) :
    Keep s0 t :=
  h.trans
    { part := hp
      pending := hq
      time := .inr ht
      canon := fun _ => by
        unfold State.canonical
        rw [hr, hp]
        exact Tab.canon_set _ _ _ _ (Tab.canon_set _ _ _ _ rfl)
      limits := .inl ht
      key := fun e => ⟨he.trans e, hk⟩ }

/-- A domain reset leaves the always-on registers, which hold every limit, alone. -/
theorem Keep.resetDomRegs {s0 s : State} (h : Keep s0 s) {d : Nat} : Keep s0 (s.resetDomRegs d) :=
  h.trans
    { part := rfl
      pending := rfl
      time := .inl rfl
      canon := fun c => Tab.canon_filter _ _ _ c
      limits := .inr fun l hl _ => by
        have e := limitRows_aon l hl
        unfold LimitRow.same State.reg State.resetDomRegs Tab.getD
        rw [Tab.get?_filter (fun a => domainOf a != some d) (by rw [e]; rfl)]
      key := fun e => ⟨e, rfl⟩ }

/-- Two words that agree in a field from bit 0 agree under its mask. -/
theorem and_mask_eq {w w' : Word} (k : Nat) (hk : k ≤ 32) (h : (⟨0, k⟩ : Field).get w = (⟨0, k⟩ : Field).get w') :
    w &&& BitVec.ofNat 32 (2 ^ k - 1) = w' &&& BitVec.ofNat 32 (2 ^ k - 1) := by
  have hm : 2 ^ k - 1 < 2 ^ 32 := by
    have := Nat.pow_le_pow_right (n := 2) (by decide) hk
    have := Nat.two_pow_pos k
    omega
  apply BitVec.eq_of_toNat_eq
  simp only [BitVec.toNat_and, BitVec.toNat_ofNat, Nat.mod_eq_of_lt hm, Nat.and_two_pow_sub_one_eq_mod]
  simpa [Field.get] using h

theorem bit0_iff (w : Word) : w &&& 1 = 1 ↔ (⟨0, 1⟩ : Field).get w = 1 := by
  constructor
  · intro h
    have := congrArg BitVec.toNat h
    simpa [Field.get, BitVec.toNat_and, Nat.and_one_is_mod] using this
  · intro h
    apply BitVec.eq_of_toNat_eq
    simpa [Field.get, BitVec.toNat_and, Nat.and_one_is_mod] using h

/-- Setting a lock, or a bit above the lock bit of its register, widens nothing. -/
theorem Keep.setLock {s0 s : State} (h : Keep s0 s) {a : Nat} (ha : a = R.pwrLock ∨ a = R.thmLock ∨ a = R.secLock) {f : Field}
    {v : Nat} (hf : f = ⟨0, 1⟩ ∧ v = 1 ∨ 1 ≤ f.lo ∧ f.lo + f.width ≤ 32) : Keep s0 (s.setF a f v) := by
  refine h.setReg' a _ fun l hl e k => ?_
  have hb : l.bits = 1 ∧ l.lock = a ∧ l.lockBit = 1 := by
    have := (by decide : ∀ l ∈ limitRows, (l.addr = R.pwrLock ∨ l.addr = R.thmLock ∨ l.addr = R.secLock) →
      l.bits = 1 ∧ l.lock = l.addr ∧ l.lockBit = 1) l hl (e ▸ ha)
    exact e ▸ this
  obtain ⟨hb, hk, hc⟩ := hb
  unfold LimitRow.isLocked at k
  rw [hk, hc] at k
  rw [hb, k]
  rw [bit0_iff] at k ⊢
  rcases hf with ⟨rfl, rfl⟩ | hf
  · exact Field.get_set_self _ _ _ (by decide)
  · rw [Field.get_set_ne f ⟨0, 1⟩ _ _ hf.2 (.inl hf.1)]; exact k

/-- The pin polarity is no limit. -/
theorem Keep.setPol {s0 s : State} (h : Keep s0 s) {v : Nat} : Keep s0 (s.setF R.actGpioMaxw F.actGpioMaxwPol v) := by
  refine h.setReg' _ _ fun l hl e _ => ?_
  have hb := (by decide : ∀ l ∈ limitRows, l.addr = R.actGpioMaxw → l.bits = BitVec.ofNat 32 (2 ^ 16 - 1)) l hl e
  rw [hb]
  exact and_mask_eq 16 (by decide) (Field.get_set_ne _ _ _ _ (by decide) (by decide))

/-- A limit that is not locked may be written. -/
theorem Keep.setFree {s0 s : State} (h : Keep s0 s) {a : Nat} {w : Word}
    (n : ∀ l ∈ limitRows, l.addr = a → ¬ l.isLocked s) : Keep s0 (s.setReg a w) :=
  h.setReg' a w fun l hl e k => absurd k (n l hl e)

theorem lockRows_ok (s : State) : ∀ r ∈ s.lockRows, (∀ l ∈ limitRows, l.lock ≠ r.1) ∧
    ∀ l ∈ limitRows, l.addr = r.1 → l.isLocked s → r.2.2.2 = true := by
  have hs : ∀ a f, f = (⟨0, 1⟩ : Field) → s.reg a &&& 1 = 1 → s.isSet a f = true := by
    rintro a f rfl h
    unfold State.isSet State.getF
    rw [beq_iff_eq]; exact (bit0_iff _).1 h
  intro r hr
  unfold State.lockRows at hr
  simp only [List.mem_cons, List.not_mem_nil, or_false] at hr
  rcases hr with rfl | rfl | rfl | rfl | rfl | rfl | rfl | rfl <;> dsimp only <;>
  · refine ⟨by decide, fun l hl e k => ?_⟩
    refine hs _ _ rfl ?_
    have q := (by decide : ∀ l ∈ limitRows, l.addr ∈ [R.pwrInrushBudget, R.pwrSlew, R.pwrLimit, R.pwrLoadstep, R.pwrPumpLim] →
      l.lock = R.pwrLock ∧ l.lockBit = 1) l hl
    have q' := (by decide : ∀ l ∈ limitRows, l.addr ∈ [R.thmThr] → l.lock = R.thmLock ∧ l.lockBit = 1) l hl
    have q'' := (by decide : ∀ l ∈ limitRows, l.addr ∈ [R.actLimits, R.actGpioMaxw] → l.lock = R.secLock ∧ l.lockBit = 1) l hl
    rw [e] at q q' q''
    unfold LimitRow.isLocked at k
    first
    | rw [(q (by decide)).1, (q (by decide)).2] at k; exact k
    | rw [(q' (by decide)).1, (q' (by decide)).2] at k; exact k
    | rw [(q'' (by decide)).1, (q'' (by decide)).2] at k; exact k

/-- Boot writes limits whose lock is not set, and then sets the locks (R440). -/
theorem Keep.writeLocks {s0 s : State} (h : Keep s0 s) : Keep s0 s.writeLocks := by
  have key : ∀ rows : List (Nat × Nat × Nat × Bool), (∀ r ∈ rows, (∀ l ∈ limitRows, l.lock ≠ r.1) ∧
      ∀ l ∈ limitRows, l.addr = r.1 → l.isLocked s → r.2.2.2 = true) → ∀ t : State, Keep s0 t →
      (∀ l ∈ limitRows, t.reg l.lock = s.reg l.lock) →
      Keep s0 (rows.foldl (fun s (x : Nat × Nat × Nat × Bool) => if x.2.2.2 then s else
        s.setReg x.1 ((s.reg x.1 &&& ~~~ BitVec.ofNat 32 x.2.1) ||| BitVec.ofNat 32 x.2.2.1)) t) := by
    intro rows
    induction rows with
    | nil => exact fun _ t ht _ => ht
    | cons r rows ih =>
      intro hr t ht hl
      have h1 := hr r List.mem_cons_self
      refine ih (fun r' h' => hr r' (List.mem_cons_of_mem _ h')) _ ?_ ?_
      · dsimp only
        by_cases hb : r.2.2.2 = true
        · rw [if_pos hb]; exact ht
        · rw [if_neg hb]
          refine ht.setFree fun l hl' e k => hb (h1.2 l hl' e ?_)
          unfold LimitRow.isLocked at *; rwa [hl l hl'] at k
      · intro l hl'
        dsimp only
        by_cases hb : r.2.2.2 = true
        · rw [if_pos hb]; exact hl l hl'
        · rw [if_neg hb]; exact (State.reg_setReg_ne _ _ (h1.1 l hl')).trans (hl l hl')
  unfold State.writeLocks
  have k := key s.lockRows (lockRows_ok s) s h (fun _ _ => rfl)
  exact ((((Keep.setLock k (.inl rfl) (.inl ⟨rfl, rfl⟩)).setLock (.inr (.inr rfl)) (.inr (by decide))).setLock (.inr (.inl rfl))
    (.inl ⟨rfl, rfl⟩)).setLock (.inr (.inr rfl)) (.inr (by decide))).setLock (.inr (.inr rfl)) (.inl ⟨rfl, rfl⟩)

/-- Blank or partly burned fuses are burned (R437, R452). -/
theorem Keep.burn {s0 s : State} (h : Keep s0 s) (n : ¬ s.sys.enrolled = true) {k : Bytes} :
    Keep s0 { s with sys := { s.sys with keyFuse := k, enrolled := true } } :=
  h.trans ⟨rfl, rfl, .inl rfl, id, .inr fun _ _ _ => rfl, fun e => absurd e n⟩

/-- A stored word keeps the bits of a mask that the written bits miss. -/
theorem stored_bits {w v rw c b : Word} (h : rw &&& b = 0#32) (k : c &&& b = 0#32) :
    (((w &&& ~~~ rw) ||| (v &&& rw)) &&& ~~~ (v &&& c)) &&& b = w &&& b := by
  apply BitVec.eq_of_getLsbD_eq
  intro i hi
  have h1 := congrArg (fun x => BitVec.getLsbD x i) h
  have k1 := congrArg (fun x => BitVec.getLsbD x i) k
  simp only [BitVec.getLsbD_and, BitVec.getLsbD_or, BitVec.getLsbD_not, BitVec.getLsbD_zero, hi, decide_true, Bool.true_and]
    at h1 k1 ⊢
  revert h1 k1
  cases w.getLsbD i <;> cases v.getLsbD i <;> cases rw.getLsbD i <;> cases c.getLsbD i <;> cases b.getLsbD i <;> decide

/-- What a store to a limit's register may change: nothing of the limit, unless its lock is open (R14). -/
def limitStore (l : LimitRow) : Bool :=
  match regRow l.addr with
  | none => true
  | some r =>
    decide (BitVec.ofNat 32 r.rw &&& l.bits = 0) && decide (BitVec.ofNat 32 r.w1c &&& l.bits = 0) &&
    (decide (BitVec.ofNat 32 (Nat.lor r.rw r.rwl) &&& l.bits = 0) ||
      (decide (l.lockBit = 1) && (decide (l.addr / 0x10000 = 2 ∧ l.lock = R.pwrLock) ||
        decide (l.addr / 0x10000 = 3 ∧ l.lock = R.thmLock) || decide (l.addr / 0x10000 = 5 ∧ l.lock = R.secLock))))

theorem limitRows_store : ∀ l ∈ limitRows, limitStore l = true := by decide

/-- A word that is stored plainly leaves every locked limit as it is (R14). -/
theorem Keep.storeWord {s0 s : State} (h : Keep s0 s) {a : Nat} {v : Word} : Keep s0 (s.storeWord a v) := by
  unfold State.storeWord
  split
  · rename_i r hr
    refine h.setReg' a _ fun l hl e k => ?_
    subst e
    have q := limitRows_store l hl
    unfold limitStore at q
    rw [hr] at q
    simp only [Bool.and_eq_true, Bool.or_eq_true, decide_eq_true_eq] at q
    obtain ⟨⟨q1, q2⟩, q3⟩ := q
    unfold State.storedWord
    refine stored_bits ?_ q2
    split
    · exact q1
    · rename_i n
      refine q3.resolve_right fun q => n ?_
      obtain ⟨q4, q5⟩ := q
      unfold LimitRow.isLocked at k
      rw [q4, bit0_iff] at k
      unfold State.lockedAt
      rcases q5 with (⟨q5, q6⟩ | ⟨q5, q6⟩) | ⟨q5, q6⟩ <;> rw [q5] <;> rw [q6] at k <;>
        exact beq_iff_eq.2 k
  · exact h

theorem Keep.foldl_mem {α : Type} {s0 : State} (f : State → α → State) : ∀ (l : List α),
    (∀ s x, x ∈ l → Keep s0 s → Keep s0 (f s x)) → ∀ s : State, Keep s0 s → Keep s0 (l.foldl f s)
  | [], _, _, h => h
  | x :: l, hf, s, h => Keep.foldl_mem f l (fun s y m => hf s y (List.mem_cons_of_mem _ m)) (f s x) (hf s x List.mem_cons_self h)

/-- A kept state that a function answers beside another value. -/
theorem pair_l {s0 t : State} {α : Type} {y : α} {p : State × α} (e : p = (t, y)) (h : Keep s0 p.1) : Keep s0 t := by
  subst e; exact h

theorem pair_r {s0 t : State} {α : Type} {y : α} {p : α × State} (e : p = (y, t)) (h : Keep s0 p.2) : Keep s0 t := by
  subst e; exact h

theorem wfReg_free (x : Nat) (c : WfCause) : notLimit (wfReg x c) := by
  cases c <;> simp only [wfReg, notLimit, R.lckLnWfLate, R.lckLnWfRefused, R.lckLnWfRetired, R.lckLnWfFault] <;> omega

theorem velReg_free (e : Nat) : notLimit (velReg e) := by
  unfold velReg; split <;> simp only [notLimit, R.lckVel0, R.lckVel1] <;> omega

theorem statusAddr_free (r : StatusReg) : notLimit (statusAddr r) := by
  cases r <;> simp only [statusAddr, notLimit, R.tilStatus, R.calStatus, R.vecQstatus, R.accStatus, R.stkStatus, R.dspStatus,
    R.dspCxState, R.lckStatus, R.lckLnStatus, R.actStatus, R.prtStatus, R.monStatus, R.pwrStatus, R.thmStatus, R.fltStatus,
    R.fltHostStatus, R.pstStatus, R.sdmHostStatus] <;> omega

theorem statusEvt_free (r : StatusReg) {i : Nat} (h : i < (statusBits r).2) : notLimit (statusEvt r + 4 * i) := by
  cases r <;> simp only [statusBits] at h <;> simp only [statusEvt, notLimit, R.tilSatEvt, R.calShbEvt, R.vecIsatEvt,
    R.accWaitEvt, R.stkFullEvt, R.dspTmoEvt, R.dspCxTdEvt, R.lckE0errEvt, R.lckLnWfEvt, R.actClipEvt, R.prtDetEvt,
    R.monOvraEvt, R.pwrInrEvt, R.thmThrEvt, R.fltNewsrcEvt, R.fltHfltEvt, R.pstTornEvt, R.sdmReplyEvt] <;> omega

theorem Keep.setStatus {s0 s : State} (h : Keep s0 s) {r : StatusReg} {m : Word} : Keep s0 (s.setStatus r m) := by
  refine Keep.foldl_mem _ _ (fun s i hi k => ?_) _ (h.setReg (statusAddr_free r))
  split
  · exact k.count (statusEvt_free r (List.mem_range.1 hi))
  · exact k

end Sys2Proof.Machine
end

