-- ==== Sys2Proof/Laws/KeepUnits.lean ====
section
/-! SUPPORT. `Keep` for the fault aggregator, the link, the parameter store, the line clock and the Stacks: every function of these modules keeps what `Keep` names. -/

set_option linter.all false

namespace Sys2Proof.Machine

theorem State.syncOpen_keep {s0 s : State} (h : Keep s0 s) : Keep s0 (State.syncOpen s) := by
  unfold State.syncOpen
  repeat' first
    | with_reducible assumption
    | with_reducible apply Keep.setF
    | (simp only [notLimit, R.fltOpen] <;> omega)

theorem State.report_keep {s0 s : State} {x1 x2 x3 x4} (h : Keep s0 s) : Keep s0 (State.report s x1 x2 x3 x4) := by
  unfold State.report
  repeat' first
    | with_reducible assumption
    | with_reducible apply Keep.raise
    | with_reducible apply State.syncOpen_keep
    | (simp only [notLimit, R.fltNewsrcEvt, R.fltOvfEvt, R.fltStatus] <;> omega)
    | split
    | fail_if_no_progress (with_reducible refine Keep.hidden ?_ rfl rfl)

theorem State.choose_keep {s0 s : State} {x1} (h : Keep s0 s) : Keep s0 ((State.choose s x1).2) := by
  unfold State.choose
  repeat' first
    | with_reducible assumption
    | fail_if_no_progress (with_reducible refine Keep.hidden ?_ rfl rfl)

theorem State.emit_keep {s0 s : State} {x1} (h : Keep s0 s) : Keep s0 (State.emit s x1) := by
  unfold State.emit
  repeat' first
    | with_reducible assumption
    | fail_if_no_progress (with_reducible refine Keep.hidden ?_ rfl rfl)

theorem State.setPort_keep {s0 s : State} {x1 x2} (h : Keep s0 s) : Keep s0 (State.setPort s x1 x2) := by
  unfold State.setPort
  repeat' first
    | with_reducible assumption
    | fail_if_no_progress (with_reducible refine Keep.hidden ?_ rfl rfl)

theorem State.putFrame_keep {s0 s : State} {x1 x2 x3 x4} (h : Keep s0 s) : Keep s0 (State.putFrame s x1 x2 x3 x4) := by
  unfold State.putFrame
  repeat' first
    | with_reducible assumption
    | with_reducible apply State.emit_keep
    | with_reducible apply State.setPort_keep

theorem State.sendFrame_keep {s0 s : State} {x1 x2 x3 x4} (h : Keep s0 s) : Keep s0 (State.sendFrame s x1 x2 x3 x4) := by
  unfold State.sendFrame
  repeat' first
    | with_reducible assumption
    | with_reducible apply Keep.raise
    | with_reducible apply State.putFrame_keep
    | (simp only [notLimit, R.prtStatus, R.prtTxlEvt] <;> omega)
    | split

theorem State.syncQueue_keep {s0 s : State} (h : Keep s0 s) : Keep s0 (State.syncQueue s) := by
  unfold State.syncQueue
  repeat' first
    | with_reducible assumption
    | with_reducible apply Keep.setF
    | (simp only [notLimit, R.pstState] <;> omega)

theorem State.enqueue_keep {s0 s : State} {x1 x2} (h : Keep s0 s) : Keep s0 (State.enqueue s x1 x2) := by
  unfold State.enqueue
  repeat' first
    | with_reducible assumption
    | with_reducible apply State.syncQueue_keep
    | fail_if_no_progress (with_reducible refine Keep.hidden ?_ rfl rfl)

theorem State.writeRec_keep {s0 s : State} {x1 x2 x3 x4} (h : Keep s0 s) : Keep s0 (State.writeRec s x1 x2 x3 x4) := by
  unfold State.writeRec
  repeat' first
    | with_reducible assumption
    | with_reducible apply State.report_keep
    | with_reducible apply State.enqueue_keep
    | split
    | fail_if_no_progress (with_reducible refine Keep.hidden ?_ rfl rfl)

theorem State.flushLog_keep {s0 s : State} (h : Keep s0 s) : Keep s0 (State.flushLog s) := by
  unfold State.flushLog
  repeat' first
    | with_reducible assumption
    | with_reducible apply State.enqueue_keep
    | split
    | fail_if_no_progress (with_reducible refine Keep.hidden ?_ rfl rfl)

theorem State.addEntry_keep {s0 s : State} {x1} (h : Keep s0 s) : Keep s0 (State.addEntry s x1) := by
  unfold State.addEntry
  repeat' first
    | with_reducible assumption
    | (dsimp only)
    | with_reducible apply State.report_keep
    | with_reducible apply State.flushLog_keep
    | split
    | fail_if_no_progress (with_reducible refine Keep.hidden ?_ rfl rfl)

theorem State.losePower_keep {s0 s : State} (h : Keep s0 s) : Keep s0 (State.losePower s) := by
  unfold State.losePower
  repeat' first
    | with_reducible assumption
    | with_reducible apply Keep.setF
    | with_reducible apply State.syncQueue_keep
    | (simp only [notLimit, R.pstState] <;> omega)
    | split
    | fail_if_no_progress (with_reducible refine Keep.hidden ?_ rfl rfl)

theorem State.reportTorn_keep {s0 s : State} {x1 x2} (h : Keep s0 s) : Keep s0 (State.reportTorn s x1 x2) := by
  unfold State.reportTorn
  repeat' first
    | with_reducible assumption
    | (intro _ _ _)
    | with_reducible apply Keep.raise
    | with_reducible apply State.report_keep
    | with_reducible apply Keep.foldl
    | (simp only [notLimit, R.pstStatus, R.pstTornEvt] <;> omega)
    | split

theorem State.programCell_keep {s0 s : State} {x1 x2} (h : Keep s0 s) : Keep s0 (State.programCell s x1 x2) := by
  unfold State.programCell
  repeat' first
    | with_reducible assumption
    | fail_if_no_progress (with_reducible refine Keep.hidden ?_ rfl rfl)

theorem State.incCounter_keep {s0 s : State} {x1} (h : Keep s0 s) : Keep s0 (State.incCounter s x1) := by
  unfold State.incCounter
  repeat' first
    | with_reducible assumption
    | (dsimp only)
    | with_reducible apply State.report_keep
    | with_reducible apply State.enqueue_keep
    | with_reducible apply State.programCell_keep
    | split

theorem State.readRec_keep {s0 s : State} {x1} (h : Keep s0 s) : Keep s0 ((State.readRec s x1).1) := by
  unfold State.readRec
  repeat' first
    | with_reducible assumption
    | (dsimp only)
    | with_reducible apply Keep.raise
    | with_reducible apply State.reportTorn_keep
    | with_reducible apply State.report_keep
    | (simp only [notLimit, R.pstLostEvt, R.pstStatus] <;> omega)
    | split

theorem State.endWrite_keep {s0 s : State} {x1} (h : Keep s0 s) : Keep s0 ((State.endWrite s x1).1) := by
  unfold State.endWrite
  repeat' first
    | with_reducible assumption
    | with_reducible apply Keep.count
    | with_reducible apply Keep.setF
    | with_reducible apply Keep.raise
    | with_reducible apply State.programCell_keep
    | with_reducible apply State.syncQueue_keep
    | with_reducible apply State.report_keep
    | (simp only [notLimit, R.pstState, R.pstStatus, R.pstWfailEvt, R.pstWrites] <;> omega)
    | split
    | fail_if_no_progress (with_reducible refine Keep.hidden ?_ rfl rfl)

theorem State.startWrite_keep {s0 s : State} (h : Keep s0 s) : Keep s0 (State.startWrite s) := by
  unfold State.startWrite
  repeat' first
    | with_reducible assumption
    | (dsimp only)
    | with_reducible apply Keep.setF
    | with_reducible apply State.syncQueue_keep
    | (simp only [notLimit, R.pstState] <;> omega)
    | split
    | fail_if_no_progress (with_reducible refine Keep.hidden ?_ rfl rfl)

theorem State.windfall_keep {s0 s : State} {x1 x2} (h : Keep s0 s) : Keep s0 (State.windfall s x1 x2) := by
  unfold State.windfall
  repeat' first
    | with_reducible assumption
    | with_reducible apply wfReg_free
    | with_reducible apply Keep.count
    | with_reducible apply Keep.raise
    | (simp only [notLimit, R.lckLnStatus, R.lckLnWfEvt] <;> omega)

theorem State.armFlags_keep {s0 s : State} {x1 x2 x3} (h : Keep s0 s) : Keep s0 (State.armFlags s x1 x2 x3) := by
  unfold State.armFlags
  repeat' first
    | with_reducible assumption
    | with_reducible apply Keep.raise
    | with_reducible apply State.report_keep
    | (simp only [notLimit, R.actClipEvt, R.actLateoEvt, R.actStatus] <;> omega)
    | split

theorem State.putFire_keep {s0 s : State} {x1 x2} (h : Keep s0 s) : Keep s0 (State.putFire s x1 x2) := by
  unfold State.putFire
  repeat' first
    | with_reducible assumption
    | with_reducible apply Keep.count
    | with_reducible apply State.putFrame_keep
    | (simp only [notLimit, R.actFire0, R.actFire1] <;> omega)
    | split
    | fail_if_no_progress (with_reducible refine Keep.hidden ?_ rfl rfl)

theorem State.setFireQ_keep {s0 s : State} {x1 x2} (h : Keep s0 s) : Keep s0 (State.setFireQ s x1 x2) := by
  unfold State.setFireQ
  repeat' first
    | with_reducible assumption
    | split
    | fail_if_no_progress (with_reducible refine Keep.hidden ?_ rfl rfl)

theorem State.fire_keep {s0 s : State} {x1 x2 x3} (h : Keep s0 s) : Keep s0 (State.fire s x1 x2 x3) := by
  unfold State.fire
  repeat' first
    | with_reducible assumption
    | (dsimp only)
    | with_reducible apply Keep.raise
    | with_reducible apply State.putFire_keep
    | with_reducible apply State.setFireQ_keep
    | (simp only [notLimit, R.prtStatus, R.prtTxlEvt] <;> omega)
    | split

theorem State.refreshGpio_keep {s0 s : State} (h : Keep s0 s) : Keep s0 (State.refreshGpio s) := by
  unfold State.refreshGpio
  repeat' first
    | with_reducible assumption
    | (dsimp only)
    | with_reducible apply Keep.setF
    | with_reducible apply State.emit_keep
    | (simp only [notLimit, R.actGpioMaxw, R.actGpioState] <;> omega)
    | split

theorem State.dacCopy_keep {s0 s : State} {x1} (h : Keep s0 s) : Keep s0 (State.dacCopy s x1) := by
  unfold State.dacCopy
  repeat' first
    | with_reducible assumption
    | with_reducible apply Keep.setF
    | (simp only [notLimit, R.actDacActive, R.actDacAmp, R.actDacCode, R.actDacFcw, R.actDacMode, R.actDacPhase] <;> omega)
    | fail_if_no_progress (with_reducible refine Keep.hidden ?_ rfl rfl)

theorem State.dacSample_keep {s0 s : State} {x1} (h : Keep s0 s) : Keep s0 (State.dacSample s x1) := by
  unfold State.dacSample
  repeat' first
    | with_reducible assumption
    | with_reducible apply Keep.raise
    | (simp only [notLimit, R.actDclipEvt, R.actStatus] <;> omega)
    | split

theorem State.dacStrobe_keep {s0 s : State} (h : Keep s0 s) : Keep s0 (State.dacStrobe s) := by
  unfold State.dacStrobe
  repeat' first
    | with_reducible assumption
    | with_reducible apply Keep.count
    | with_reducible apply State.dacCopy_keep
    | with_reducible apply State.dacSample_keep
    | with_reducible apply Keep.foldl
    | (simp only [notLimit, R.actDacStrobes] <;> omega)

theorem State.doOut_keep {s0 s : State} {x1} (h : Keep s0 s) : Keep s0 ((State.doOut s x1).1) := by
  unfold State.doOut
  repeat' first
    | with_reducible assumption
    | with_reducible apply State.dacStrobe_keep
    | with_reducible apply State.emit_keep
    | split

theorem State.missOut_keep {s0 s : State} (h : Keep s0 s) : Keep s0 (State.missOut s) := by
  unfold State.missOut
  repeat' first
    | with_reducible assumption
    | with_reducible apply Keep.raise
    | with_reducible apply State.report_keep
    | (simp only [notLimit, R.lckMissEvt, R.lckStatus] <;> omega)

theorem State.armOut_keep {s0 s : State} {x1 x2} (h : Keep s0 s) : Keep s0 ((State.armOut s x1 x2).1) := by
  unfold State.armOut
  repeat' first
    | with_reducible assumption
    | (dsimp only)
    | with_reducible apply Keep.raise
    | with_reducible apply State.doOut_keep
    | with_reducible apply State.missOut_keep
    | (simp only [notLimit, R.lckCfg, R.lckLateEvt, R.lckStatus] <;> omega)
    | split

theorem State.syncSlots_keep {s0 s : State} (h : Keep s0 s) : Keep s0 (State.syncSlots s) := by
  unfold State.syncSlots
  repeat' first
    | with_reducible assumption
    | with_reducible apply Keep.setF
    | (simp only [notLimit, R.lckSlots] <;> omega)

theorem State.setSlot_keep {s0 s : State} {x1 x2} (h : Keep s0 s) : Keep s0 (State.setSlot s x1 x2) := by
  unfold State.setSlot
  repeat' first
    | with_reducible assumption
    | fail_if_no_progress (with_reducible refine Keep.hidden ?_ rfl rfl)

theorem State.takeSlot_keep {s0 s : State} {x1} (h : Keep s0 s) : Keep s0 ((State.takeSlot s x1).2) := by
  unfold State.takeSlot
  repeat' first
    | with_reducible assumption
    | with_reducible apply State.choose_keep
    | with_reducible apply State.syncSlots_keep
    | with_reducible apply State.setSlot_keep

theorem State.reserveOut_keep {s0 s : State} {x1 x2} (h : Keep s0 s) : Keep s0 (State.reserveOut s x1 x2) := by
  unfold State.reserveOut
  repeat' first
    | with_reducible assumption
    | with_reducible apply State.armOut_keep
    | with_reducible apply State.refreshGpio_keep
    | with_reducible apply State.takeSlot_keep
    | with_reducible apply State.missOut_keep
    | split
    | (with_reducible refine pair_l ‹State.armOut _ _ _ = _› ?_)

theorem State.defaultRefused_keep {s0 s : State} {x1 x2 x3 x4} (h : Keep s0 s) : Keep s0 (State.defaultRefused s x1 x2 x3 x4) := by
  unfold State.defaultRefused
  repeat' first
    | with_reducible assumption
    | (intro _ _)
    | with_reducible apply State.windfall_keep
    | with_reducible apply State.armFlags_keep
    | with_reducible apply State.fire_keep
    | with_reducible apply State.refreshGpio_keep
    | with_reducible apply State.reserveOut_keep
    | with_reducible apply Keep.foldl
    | split

theorem State.freeSlot_keep {s0 s : State} {x1} (h : Keep s0 s) : Keep s0 (State.freeSlot s x1) := by
  unfold State.freeSlot
  repeat' first
    | with_reducible assumption
    | with_reducible apply State.syncSlots_keep
    | fail_if_no_progress (with_reducible refine Keep.hidden ?_ rfl rfl)

theorem State.armOuts_keep {s0 s : State} {x1 x2} (h : Keep s0 s) : Keep s0 ((State.armOuts s x1 x2).1) := by
  induction x2 generalizing s x1 <;> unfold State.armOuts <;> try dsimp only
  all_goals repeat' first
    | with_reducible apply State.armOut_keep
    | with_reducible apply_assumption

theorem State.freeIfDone_keep {s0 s : State} {x1} (h : Keep s0 s) : Keep s0 (State.freeIfDone s x1) := by
  unfold State.freeIfDone
  repeat' first
    | with_reducible assumption
    | with_reducible apply State.freeSlot_keep
    | split

theorem State.commitSlot_keep {s0 s : State} {x1 x2 x3 x4 x5} (h : Keep s0 s) : Keep s0 (State.commitSlot s x1 x2 x3 x4 x5) := by
  unfold State.commitSlot
  repeat' first
    | with_reducible assumption
    | with_reducible apply State.freeSlot_keep
    | with_reducible apply State.armFlags_keep
    | with_reducible apply State.fire_keep
    | with_reducible apply State.armOuts_keep
    | with_reducible apply State.freeIfDone_keep
    | with_reducible apply State.refreshGpio_keep
    | with_reducible apply State.setSlot_keep
    | split

theorem State.defaultSlot_keep {s0 s : State} {x1 x2 x3 x4} (h : Keep s0 s) : Keep s0 (State.defaultSlot s x1 x2 x3 x4) := by
  unfold State.defaultSlot
  repeat' first
    | with_reducible assumption
    | with_reducible apply State.freeSlot_keep
    | with_reducible apply State.commitSlot_keep
    | with_reducible apply State.windfall_keep
    | split

theorem State.defaultNow_keep {s0 s : State} {x1 x2} (h : Keep s0 s) : Keep s0 (State.defaultNow s x1 x2) := by
  unfold State.defaultNow
  repeat' first
    | with_reducible assumption
    | with_reducible apply State.defaultSlot_keep
    | split

theorem State.defaultCall_keep {s0 s : State} {x1 x2} (h : Keep s0 s) : Keep s0 (State.defaultCall s x1 x2) := by
  unfold State.defaultCall
  repeat' first
    | with_reducible assumption
    | (intro _ _)
    | with_reducible apply State.defaultNow_keep
    | with_reducible apply Keep.foldl

theorem State.discardModel_keep {s0 s : State} {x1} (h : Keep s0 s) : Keep s0 (State.discardModel s x1) := by
  unfold State.discardModel
  repeat' first
    | with_reducible assumption
    | with_reducible apply Keep.count
    | (simp only [notLimit, R.lckLnDiscarded] <;> omega)

theorem State.markSlot_keep {s0 s : State} {x1} (h : Keep s0 s) : Keep s0 (State.markSlot s x1) := by
  unfold State.markSlot
  repeat' first
    | with_reducible assumption
    | with_reducible apply State.discardModel_keep
    | with_reducible apply State.setSlot_keep
    | split

theorem State.markCall_keep {s0 s : State} {x1} (h : Keep s0 s) : Keep s0 (State.markCall s x1) := by
  unfold State.markCall
  repeat' first
    | with_reducible assumption
    | with_reducible apply State.markSlot_keep
    | with_reducible apply Keep.foldl

theorem State.defaultLane_keep {s0 s : State} {x1 x2} (h : Keep s0 s) : Keep s0 (State.defaultLane s x1 x2) := by
  unfold State.defaultLane
  repeat' first
    | with_reducible assumption
    | (intro _ _ _)
    | with_reducible apply State.defaultNow_keep
    | with_reducible apply Keep.foldl
    | split

theorem State.refreshHold_keep {s0 s : State} (h : Keep s0 s) : Keep s0 (State.refreshHold s) := by
  unfold State.refreshHold
  repeat' first
    | with_reducible assumption
    | (intro _ _ _)
    | with_reducible apply Keep.setF
    | with_reducible apply Keep.foldl
    | (simp only [notLimit, R.actDacActive] <;> omega)

theorem State.holdOutputs_keep {s0 s : State} (h : Keep s0 s) : Keep s0 (State.holdOutputs s) := by
  unfold State.holdOutputs
  repeat' first
    | with_reducible assumption
    | with_reducible apply Keep.setF
    | with_reducible apply State.refreshGpio_keep
    | with_reducible apply State.refreshHold_keep
    | with_reducible apply State.syncSlots_keep
    | (simp only [notLimit, R.actCtrl] <;> omega)
    | fail_if_no_progress (with_reducible refine Keep.hidden ?_ rfl rfl)

theorem State.enterSafe_keep {s0 s : State} {x1 x2} (h : Keep s0 s) : Keep s0 (State.enterSafe s x1 x2) := by
  unfold State.enterSafe
  repeat' first
    | with_reducible assumption
    | with_reducible apply Keep.raise
    | with_reducible apply State.holdOutputs_keep
    | with_reducible apply State.sendFrame_keep
    | with_reducible apply State.report_keep
    | (simp only [notLimit, R.actSafeEvt, R.actStatus] <;> omega)
    | split

theorem State.leaveSafe_keep {s0 s : State} (h : Keep s0 s) : Keep s0 (State.leaveSafe s) := by
  unfold State.leaveSafe
  repeat' first
    | with_reducible assumption
    | with_reducible apply Keep.setF
    | with_reducible apply State.refreshGpio_keep
    | with_reducible apply State.refreshHold_keep
    | (simp only [notLimit, R.actCtrl] <;> omega)

theorem State.setEnc_keep {s0 s : State} {x1 x2} (h : Keep s0 s) : Keep s0 (State.setEnc s x1 x2) := by
  unfold State.setEnc
  repeat' first
    | with_reducible assumption
    | split
    | fail_if_no_progress (with_reducible refine Keep.hidden ?_ rfl rfl)

theorem State.modelSlot_keep {s0 s : State} {x1 x2 x3} (h : Keep s0 s) : Keep s0 (State.modelSlot s x1 x2 x3) := by
  unfold State.modelSlot
  repeat' first
    | with_reducible assumption
    | with_reducible apply Keep.count
    | with_reducible apply State.freeSlot_keep
    | with_reducible apply State.commitSlot_keep
    | (simp only [notLimit, R.lckLnDecided] <;> omega)
    | split

theorem State.closeSlot_keep {s0 s : State} {x1 x2} (h : Keep s0 s) : Keep s0 (State.closeSlot s x1 x2) := by
  unfold State.closeSlot
  repeat' first
    | with_reducible assumption
    | (dsimp only)
    | with_reducible apply State.setSlot_keep
    | with_reducible apply State.modelSlot_keep
    | with_reducible apply State.defaultSlot_keep
    | with_reducible apply State.discardModel_keep
    | split

theorem State.registerCutoff_keep {s0 s : State} {x1} (h : Keep s0 s) : Keep s0 (State.registerCutoff s x1) := by
  unfold State.registerCutoff
  repeat' first
    | with_reducible assumption
    | (dsimp only)
    | with_reducible apply State.setSlot_keep
    | with_reducible apply State.defaultSlot_keep
    | split

theorem State.commitDecide_keep {s0 s : State} {x1 x2} (h : Keep s0 s) : Keep s0 (State.commitDecide s x1 x2) := by
  unfold State.commitDecide
  repeat' first
    | with_reducible assumption
    | (dsimp only)
    | with_reducible apply State.registerCutoff_keep
    | with_reducible apply State.discardModel_keep
    | with_reducible apply State.setSlot_keep
    | with_reducible apply State.modelSlot_keep
    | split

theorem State.loadHold_keep {s0 s : State} {x1} (h : Keep s0 s) : Keep s0 (State.loadHold s x1) := by
  unfold State.loadHold
  repeat' first
    | with_reducible assumption
    | with_reducible apply Keep.setF
    | with_reducible apply State.refreshGpio_keep
    | (simp only [notLimit, R.actGpioState] <;> omega)
    | fail_if_no_progress (with_reducible refine Keep.hidden ?_ rfl rfl)

theorem State.dacStep_keep {s0 s : State} {x1} (h : Keep s0 s) : Keep s0 (State.dacStep s x1) := by
  unfold State.dacStep
  repeat' first
    | with_reducible assumption
    | split
    | fail_if_no_progress (with_reducible refine Keep.hidden ?_ rfl rfl)

theorem State.putOuts_keep {s0 s : State} {x1 x2} (h : Keep s0 s) : Keep s0 (State.putOuts s x1 x2) := by
  unfold State.putOuts
  repeat' first
    | with_reducible assumption
    | with_reducible apply State.freeIfDone_keep
    | with_reducible apply State.refreshGpio_keep
    | with_reducible apply State.setSlot_keep
    | split

theorem State.runOuts_keep {s0 s : State} {x1} (h : Keep s0 s) : Keep s0 ((State.runOuts s x1).1) := by
  induction x1 generalizing s <;> unfold State.runOuts <;> try dsimp only
  all_goals repeat' first
    | with_reducible apply State.doOut_keep
    | split
    | with_reducible apply_assumption

theorem State.sendSync_keep {s0 s : State} {x1 x2} (h : Keep s0 s) : Keep s0 (State.sendSync s x1 x2) := by
  unfold State.sendSync
  repeat' first
    | with_reducible assumption
    | (intro _ _ _)
    | with_reducible apply State.sendFrame_keep
    | with_reducible apply State.setEnc_keep
    | with_reducible apply Keep.foldl
    | split

theorem State.setFolio_keep {s0 s : State} {x1 x2} (h : Keep s0 s) : Keep s0 (State.setFolio s x1 x2) := by
  unfold State.setFolio
  repeat' first
    | with_reducible assumption
    | fail_if_no_progress (with_reducible refine Keep.hidden ?_ rfl rfl)

theorem State.refuseAdmit_keep {s0 s : State} {x1 x2} (h : Keep s0 s) : Keep s0 (State.refuseAdmit s x1 x2) := by
  unfold State.refuseAdmit
  repeat' first
    | with_reducible assumption
    | with_reducible apply Keep.count
    | with_reducible apply Keep.raise
    | with_reducible apply State.report_keep
    | (simp only [notLimit, R.stkFullEvt, R.stkShRefused, R.stkStatus] <;> omega)
    | split

theorem State.countLive_keep {s0 s : State} {x1 x2 x3} (h : Keep s0 s) : Keep s0 (State.countLive s x1 x2 x3) := by
  unfold State.countLive
  repeat' first
    | with_reducible assumption
    | with_reducible apply Keep.setF
    | (simp only [notLimit, R.stkLive, R.stkShLive, R.stkShPages] <;> omega)

theorem State.giveUpFolio_keep {s0 s : State} {x1 x2} (h : Keep s0 s) : Keep s0 (State.giveUpFolio s x1 x2) := by
  unfold State.giveUpFolio
  repeat' first
    | with_reducible assumption
    | with_reducible apply State.countLive_keep
    | fail_if_no_progress (with_reducible refine Keep.hidden ?_ rfl rfl)

theorem State.releaseFolio_keep {s0 s : State} {x1} (h : Keep s0 s) : Keep s0 (State.releaseFolio s x1) := by
  unfold State.releaseFolio
  repeat' first
    | with_reducible assumption
    | with_reducible apply State.giveUpFolio_keep
    | split

theorem State.earlyLoop_keep {s0 s : State} {x0} (h : Keep s0 s) : Keep s0 (State.earlyLoop x0 s) := by
  induction x0 generalizing s <;> unfold State.earlyLoop <;> try dsimp only
  all_goals repeat' first
    | with_reducible apply Keep.raise
    | with_reducible apply State.releaseFolio_keep
    | (simp only [notLimit, R.stkEarlyEvt, R.stkReserve, R.stkStatus] <;> omega)
    | split
    | with_reducible apply_assumption

theorem State.earlyRelease?_keep {s0 s : State} (h : Keep s0 s) : Keep s0 (State.earlyRelease? s) := by
  unfold State.earlyRelease?
  repeat' first
    | with_reducible assumption
    | with_reducible apply State.earlyLoop_keep
    | (simp only [notLimit, R.stkCtrl, R.stkReserve] <;> omega)
    | split

theorem State.countFree_keep {s0 s : State} {x1 x2} (h : Keep s0 s) : Keep s0 (State.countFree s x1 x2) := by
  unfold State.countFree
  repeat' first
    | with_reducible assumption
    | with_reducible apply Keep.setF
    | (simp only [notLimit, R.stkChState, R.stkFree, R.stkFreeLow] <;> omega)

theorem State.takePage_keep {s0 s : State} {x1} (h : Keep s0 s) : Keep s0 ((State.takePage s x1).1) := by
  unfold State.takePage
  repeat' first
    | with_reducible assumption
    | with_reducible apply State.choose_keep
    | with_reducible apply State.countFree_keep
    | split

theorem State.headPage_keep {s0 s : State} {x1} (h : Keep s0 s) : Keep s0 ((State.headPage s x1).1) := by
  unfold State.headPage
  repeat' first
    | with_reducible assumption
    | with_reducible apply State.takePage_keep
    | split
    | (with_reducible refine pair_l ‹State.takePage _ _ = _› ?_)
    | fail_if_no_progress (with_reducible refine Keep.hidden ?_ rfl rfl)

theorem State.admitFolio_keep {s0 s : State} {x1} (h : Keep s0 s) : Keep s0 ((State.admitFolio s x1).1) := by
  unfold State.admitFolio
  repeat' first
    | with_reducible assumption
    | (dsimp only)
    | with_reducible apply Keep.count
    | with_reducible apply State.refuseAdmit_keep
    | with_reducible apply State.earlyRelease?_keep
    | with_reducible apply State.headPage_keep
    | with_reducible apply State.countLive_keep
    | (simp only [notLimit, R.stkAdmitted, R.stkReserve] <;> omega)
    | split
    | (with_reducible refine pair_l ‹State.headPage _ _ = _› ?_)
    | fail_if_no_progress (with_reducible refine Keep.hidden ?_ rfl rfl)

theorem State.extend_keep {s0 s : State} {x1 x2} (h : Keep s0 s) : Keep s0 ((State.extend s x1 x2).1) := by
  induction x2 generalizing s x1 <;> unfold State.extend <;> try dsimp only
  all_goals repeat' first
    | with_reducible apply Keep.setF
    | with_reducible apply State.takePage_keep
    | with_reducible apply State.setFolio_keep
    | (simp only [notLimit, R.stkShPages] <;> omega)
    | split
    | (with_reducible refine pair_l ‹State.takePage _ _ = _› ?_)
    | with_reducible apply_assumption

theorem State.retireFolio_keep {s0 s : State} {x1} (h : Keep s0 s) : Keep s0 (State.retireFolio s x1) := by
  unfold State.retireFolio
  repeat' first
    | with_reducible assumption
    | with_reducible apply Keep.count
    | with_reducible apply State.giveUpFolio_keep
    | with_reducible apply State.defaultCall_keep
    | (simp only [notLimit, R.stkShRetired] <;> omega)
    | split

theorem State.growFail_keep {s0 s : State} {x1} (h : Keep s0 s) : Keep s0 (State.growFail s x1) := by
  unfold State.growFail
  repeat' first
    | with_reducible assumption
    | with_reducible apply Keep.raise
    | with_reducible apply State.retireFolio_keep
    | with_reducible apply State.report_keep
    | (simp only [notLimit, R.stkGrowEvt, R.stkStatus] <;> omega)

theorem State.nextPosition_keep {s0 s : State} {x1} (h : Keep s0 s) : Keep s0 ((State.nextPosition s x1).1) := by
  unfold State.nextPosition
  repeat' first
    | with_reducible assumption
    | (dsimp only)
    | with_reducible apply State.setFolio_keep
    | with_reducible apply State.extend_keep
    | with_reducible apply State.growFail_keep
    | split
    | (with_reducible refine pair_l ‹State.extend _ _ _ = _› ?_)

theorem State.setCtx_keep {s0 s : State} {x1 x2} (h : Keep s0 s) : Keep s0 (State.setCtx s x1 x2) := by
  unfold State.setCtx
  repeat' first
    | with_reducible assumption
    | fail_if_no_progress (with_reducible refine Keep.hidden ?_ rfl rfl)

theorem State.countOut_keep {s0 s : State} {x1 x2} (h : Keep s0 s) : Keep s0 (State.countOut s x1 x2) := by
  unfold State.countOut
  repeat' first
    | with_reducible assumption
    | with_reducible apply Keep.setF
    | (simp only [notLimit, R.dspCxOutstanding] <;> omega)

theorem State.ceAt_keep {s0 s : State} {x1 x2} (h : Keep s0 s) : Keep s0 (State.ceAt s x1 x2) := by
  unfold State.ceAt
  repeat' first
    | with_reducible assumption
    | with_reducible apply Keep.count
    | (simp only [notLimit, R.stkCeTotal, R.stkChCe] <;> omega)

theorem State.closeFolio_keep {s0 s : State} {x1 x2 x3} (h : Keep s0 s) : Keep s0 (State.closeFolio s x1 x2 x3) := by
  unfold State.closeFolio
  repeat' first
    | with_reducible assumption
    | (dsimp only)
    | (intro _ _)
    | with_reducible apply Keep.raise
    | with_reducible apply State.setFolio_keep
    | with_reducible apply State.report_keep
    | with_reducible apply State.closeSlot_keep
    | with_reducible apply State.releaseFolio_keep
    | with_reducible apply Keep.foldl
    | (simp only [notLimit, R.stkFcloseEvt, R.stkStatus] <;> omega)
    | split

theorem State.markReleases_keep {s0 s : State} {x1 x2} (h : Keep s0 s) : Keep s0 (State.markReleases s x1 x2) := by
  unfold State.markReleases
  repeat' first
    | with_reducible assumption
    | fail_if_no_progress (with_reducible refine Keep.hidden ?_ rfl rfl)

theorem State.folioWrite_keep {s0 s : State} {x1 x2 x3} (h : Keep s0 s) : Keep s0 (State.folioWrite s x1 x2 x3) := by
  induction x3 generalizing s x1 x2 <;> unfold State.folioWrite <;> try dsimp only
  all_goals repeat' first
    | fail_if_no_progress (with_reducible refine Keep.hidden ?_ rfl rfl)
    | with_reducible apply_assumption

theorem State.newReq_keep {s0 s : State} {x1} (h : Keep s0 s) : Keep s0 (State.newReq s x1) := by
  unfold State.newReq
  repeat' first
    | with_reducible assumption
    | with_reducible apply State.countOut_keep
    | fail_if_no_progress (with_reducible refine Keep.hidden ?_ rfl rfl)

theorem State.listRetired_keep {s0 s : State} {x1} (h : Keep s0 s) : Keep s0 (State.listRetired s x1) := by
  unfold State.listRetired
  repeat' first
    | with_reducible assumption
    | with_reducible apply State.writeRec_keep
    | with_reducible apply State.report_keep
    | split
    | fail_if_no_progress (with_reducible refine Keep.hidden ?_ rfl rfl)

theorem State.retirePage_keep {s0 s : State} {x1} (h : Keep s0 s) : Keep s0 (State.retirePage s x1) := by
  unfold State.retirePage
  repeat' first
    | with_reducible assumption
    | with_reducible apply Keep.setF
    | with_reducible apply State.countFree_keep
    | with_reducible apply State.listRetired_keep
    | (simp only [notLimit, R.stkChState, R.stkRetired] <;> omega)
    | split
    | fail_if_no_progress (with_reducible refine Keep.hidden ?_ rfl rfl)

theorem State.remapPage_keep {s0 s : State} {x1} (h : Keep s0 s) : Keep s0 (State.remapPage s x1) := by
  unfold State.remapPage
  repeat' first
    | with_reducible assumption
    | (dsimp only)
    | with_reducible apply State.retirePage_keep
    | with_reducible apply State.takePage_keep
    | split
    | (with_reducible refine pair_l ‹State.takePage _ _ = _› ?_)
    | fail_if_no_progress (with_reducible refine Keep.hidden ?_ rfl rfl)

theorem State.failChannel_keep {s0 s : State} {x1} (h : Keep s0 s) : Keep s0 (State.failChannel s x1) := by
  unfold State.failChannel
  repeat' first
    | with_reducible assumption
    | (intro _ _ _)
    | with_reducible apply Keep.setF
    | with_reducible apply Keep.raise
    | with_reducible apply State.report_keep
    | with_reducible apply State.retireFolio_keep
    | with_reducible apply State.remapPage_keep
    | with_reducible apply Keep.foldl
    | (simp only [notLimit, R.stkChState, R.stkChfEvt, R.stkFree, R.stkFreeLow, R.stkStatus, R.stkXferEvt] <;> omega)
    | split
    | fail_if_no_progress (with_reducible refine Keep.hidden ?_ rfl rfl)

theorem State.joinFolio_keep {s0 s : State} {x1 x2} (h : Keep s0 s) : Keep s0 ((State.joinFolio s x1 x2).1) := by
  unfold State.joinFolio
  repeat' first
    | with_reducible assumption
    | with_reducible apply Keep.raise
    | with_reducible apply State.report_keep
    | with_reducible apply State.setFolio_keep
    | (simp only [notLimit, R.stkJoinEvt, R.stkStatus] <;> omega)
    | split

theorem State.pageReturn_keep {s0 s : State} (h : Keep s0 s) : Keep s0 (State.pageReturn s) := by
  unfold State.pageReturn
  repeat' first
    | with_reducible assumption
    | (intro _ _ _)
    | with_reducible apply State.countFree_keep
    | with_reducible apply Keep.foldl
    | split
    | fail_if_no_progress (with_reducible refine Keep.hidden ?_ rfl rfl)

theorem State.ueEffect_keep {s0 s : State} {x1 x2} (h : Keep s0 s) : Keep s0 (State.ueEffect s x1 x2) := by
  unfold State.ueEffect
  repeat' first
    | with_reducible assumption
    | with_reducible apply State.report_keep
    | with_reducible apply State.remapPage_keep
    | with_reducible apply State.retireFolio_keep
    | with_reducible apply State.retirePage_keep
    | split
    | fail_if_no_progress (with_reducible refine Keep.hidden ?_ rfl rfl)

theorem State.ueAt_keep {s0 s : State} {x1 x2} (h : Keep s0 s) : Keep s0 (State.ueAt s x1 x2) := by
  unfold State.ueAt
  repeat' first
    | with_reducible assumption
    | (dsimp only)
    | with_reducible apply Keep.count
    | with_reducible apply Keep.raise
    | with_reducible apply State.ueEffect_keep
    | with_reducible apply State.failChannel_keep
    | (simp only [notLimit, R.stkChUe, R.stkStatus, R.stkUeEvt] <;> omega)
    | split
    | fail_if_no_progress (with_reducible refine Keep.hidden ?_ rfl rfl)

end Sys2Proof.Machine
end

