-- ==== Sys2Proof/Laws/KeepTiles.lean ====
section
/-! SUPPORT. `Keep` for the tiles, the vector unit, the dispatcher, calibration and programming: every function of these modules keeps what `Keep` names. -/

set_option linter.all false

namespace Sys2Proof.Machine

theorem State.setTile_keep {s0 s : State} {x1 x2 x3} (h : Keep s0 s) : Keep s0 (State.setTile s x1 x2 x3) := by
  unfold State.setTile
  repeat' first
    | with_reducible assumption
    | fail_if_no_progress (with_reducible refine Keep.hidden ?_ rfl rfl)

theorem State.modAcc_keep {s0 s : State} {x1 x2 x3} (h : Keep s0 s) : Keep s0 (State.modAcc s x1 x2 x3) := by
  unfold State.modAcc
  repeat' first
    | with_reducible assumption
    | fail_if_no_progress (with_reducible refine Keep.hidden ?_ rfl rfl)

theorem State.addCode_keep {s0 s : State} {x1 x2 x3 x4 x5 x6 x7} (h : Keep s0 s) : Keep s0 (State.addCode s x1 x2 x3 x4 x5 x6 x7) := by
  unfold State.addCode
  repeat' first
    | with_reducible assumption
    | with_reducible apply State.modAcc_keep

theorem State.syncOcc_keep {s0 s : State} {x1} (h : Keep s0 s) : Keep s0 (State.syncOcc s x1) := by
  unfold State.syncOcc
  repeat' first
    | with_reducible assumption
    | with_reducible apply Keep.setF
    | (simp only [notLimit, R.accOcc] <;> omega)

theorem State.freeAcc_keep {s0 s : State} {x1 x2} (h : Keep s0 s) : Keep s0 (State.freeAcc s x1 x2) := by
  unfold State.freeAcc
  repeat' first
    | with_reducible assumption
    | with_reducible apply State.syncOcc_keep
    | fail_if_no_progress (with_reducible refine Keep.hidden ?_ rfl rfl)

theorem State.setTileState_keep {s0 s : State} {x1 x2 x3} (h : Keep s0 s) : Keep s0 (State.setTileState s x1 x2 x3) := by
  unfold State.setTileState
  repeat' first
    | with_reducible assumption
    | with_reducible apply Keep.setF
    | (simp only [notLimit, R.tilState, R.tilSummary] <;> omega)

theorem State.setAcc_keep {s0 s : State} {x1 x2 x3} (h : Keep s0 s) : Keep s0 (State.setAcc s x1 x2 x3) := by
  unfold State.setAcc
  repeat' first
    | with_reducible assumption
    | with_reducible apply State.syncOcc_keep
    | fail_if_no_progress (with_reducible refine Keep.hidden ?_ rfl rfl)

theorem State.allocAcc_keep {s0 s : State} {x1 x2} (h : Keep s0 s) : Keep s0 ((State.allocAcc s x1 x2).1) := by
  unfold State.allocAcc
  repeat' first
    | with_reducible assumption
    | with_reducible apply State.choose_keep
    | with_reducible apply State.setAcc_keep
    | split

theorem State.syncStep_keep {s0 s : State} {x1 x2} (h : Keep s0 s) : Keep s0 (State.syncStep s x1 x2) := by
  unfold State.syncStep
  repeat' first
    | with_reducible assumption
    | with_reducible apply Keep.setF
    | (simp only [notLimit, R.tilState] <;> omega)

theorem State.convEffect_keep {s0 s : State} {x1 x2 x3 x4 x5 x6} (h : Keep s0 s) : Keep s0 (State.convEffect s x1 x2 x3 x4 x5 x6) := by
  unfold State.convEffect
  repeat' first
    | with_reducible assumption
    | with_reducible apply Keep.raise
    | with_reducible apply Keep.count
    | with_reducible apply State.addCode_keep
    | (simp only [notLimit, R.tilOvrEvt, R.tilReconvCount, R.tilSatCount, R.tilSatEvt, R.tilStatus] <;> omega)
    | split

theorem State.convAll_keep {s0 s : State} {x1 x2 x3 x4 x5} (h : Keep s0 s) : Keep s0 ((State.convAll s x1 x2 x3 x4 x5).1) := by
  induction x5 generalizing s x1 x2 x3 x4 <;> unfold State.convAll <;> try dsimp only
  all_goals repeat' first
    | with_reducible apply State.convEffect_keep
    | with_reducible apply_assumption

theorem State.pipAdd_keep {s0 s : State} {x1 x2 x3 x4} (h : Keep s0 s) : Keep s0 (State.pipAdd s x1 x2 x3 x4) := by
  unfold State.pipAdd
  repeat' first
    | with_reducible assumption
    | (dsimp only)
    | with_reducible apply Keep.setF
    | with_reducible apply State.setTile_keep
    | (simp only [notLimit, R.tilPipGain] <;> omega)
    | split

theorem State.trackRange_keep {s0 s : State} {x1 x2 x3} (h : Keep s0 s) : Keep s0 (State.trackRange s x1 x2 x3) := by
  unfold State.trackRange
  repeat' first
    | with_reducible assumption
    | with_reducible apply Keep.setF
    | with_reducible apply State.syncStep_keep
    | (simp only [notLimit, R.tilCtrl, R.tilRange] <;> omega)
    | split

theorem State.endRun_keep {s0 s : State} {x1 x2 x3 x4} (h : Keep s0 s) : Keep s0 (State.endRun s x1 x2 x3 x4) := by
  unfold State.endRun
  repeat' first
    | with_reducible assumption
    | (dsimp only)
    | with_reducible apply State.setTile_keep
    | with_reducible apply State.trackRange_keep
    | with_reducible apply State.countOut_keep
    | with_reducible apply State.freeAcc_keep
    | split

theorem State.sliceGone_keep {s0 s : State} {x1 x2 x3} (h : Keep s0 s) : Keep s0 (State.sliceGone s x1 x2 x3) := by
  unfold State.sliceGone
  repeat' first
    | with_reducible assumption
    | (dsimp only)
    | with_reducible apply State.modAcc_keep
    | with_reducible apply State.endRun_keep
    | with_reducible apply State.setTile_keep
    | split

theorem State.deliver_keep {s0 s : State} {x1 x2 x3 x4} (h : Keep s0 s) : Keep s0 (State.deliver s x1 x2 x3 x4) := by
  unfold State.deliver
  repeat' first
    | with_reducible assumption
    | (dsimp only)
    | with_reducible apply State.convAll_keep
    | with_reducible apply State.pipAdd_keep
    | with_reducible apply State.setTile_keep
    | with_reducible apply State.sliceGone_keep
    | split

theorem State.issueSlice_keep {s0 s : State} {x1 x2 x3 x4} (h : Keep s0 s) : Keep s0 (State.issueSlice s x1 x2 x3 x4) := by
  unfold State.issueSlice
  repeat' first
    | with_reducible assumption
    | with_reducible apply State.setTile_keep

theorem State.meshRetry_keep {s0 s : State} (h : Keep s0 s) : Keep s0 (State.meshRetry s) := by
  unfold State.meshRetry
  repeat' first
    | with_reducible assumption
    | (intro _ _ _)
    | with_reducible apply State.allocAcc_keep
    | with_reducible apply Keep.foldl
    | split
    | (with_reducible refine pair_l ‹State.allocAcc _ _ _ = _› ?_)
    | fail_if_no_progress (with_reducible refine Keep.hidden ?_ rfl rfl)

theorem State.startInput_keep {s0 s : State} {x1 x2} (h : Keep s0 s) : Keep s0 ((State.startInput s x1 x2).1) := by
  unfold State.startInput
  repeat' first
    | with_reducible assumption
    | (dsimp only)
    | with_reducible apply State.setTile_keep
    | split
    | fail_if_no_progress (with_reducible refine Keep.hidden ?_ rfl rfl)

theorem State.tryIssue_keep {s0 s : State} {x1 x2 x3 x4 x5} (h : Keep s0 s) : Keep s0 ((State.tryIssue s x1 x2 x3 x4 x5).1) := by
  unfold State.tryIssue
  repeat' first
    | with_reducible assumption
    | (dsimp only)
    | with_reducible apply Keep.raise
    | with_reducible apply State.setTile_keep
    | with_reducible apply State.sliceGone_keep
    | with_reducible apply State.issueSlice_keep
    | with_reducible apply State.allocAcc_keep
    | with_reducible apply State.countOut_keep
    | (simp only [notLimit, R.accStatus, R.accWaitEvt, R.pwrSlewEvt, R.pwrStatus, R.tilStallEvt, R.tilStatus] <;> omega)
    | split
    | (with_reducible refine pair_l ‹State.allocAcc _ _ _ = _› ?_)

theorem State.tileBoundary_keep {s0 s : State} {x1 x2 x3 x4} (h : Keep s0 s) : Keep s0 ((State.tileBoundary s x1 x2 x3 x4).1) := by
  unfold State.tileBoundary
  repeat' first
    | with_reducible assumption
    | (dsimp only)
    | with_reducible apply Keep.count
    | with_reducible apply State.setTile_keep
    | with_reducible apply State.startInput_keep
    | with_reducible apply State.tryIssue_keep
    | (simp only [notLimit, R.calForcedGaps] <;> omega)
    | split
    | (with_reducible refine pair_l ‹State.startInput _ _ _ = _› ?_)

theorem State.mvmBoundary_keep {s0 s : State} (h : Keep s0 s) : Keep s0 (State.mvmBoundary s) := by
  unfold State.mvmBoundary
  repeat' first
    | with_reducible assumption
    | (intro _ _)
    | with_reducible apply State.meshRetry_keep
    | with_reducible apply State.tileBoundary_keep
    | with_reducible apply Keep.foldl_fst
    | fail_if_no_progress (with_reducible refine Keep.hidden ?_ rfl rfl)

theorem State.padWrite_keep {s0 s : State} {x1 x2 x3} (h : Keep s0 s) : Keep s0 (State.padWrite s x1 x2 x3) := by
  unfold State.padWrite
  repeat' first
    | with_reducible assumption
    | fail_if_no_progress (with_reducible refine Keep.hidden ?_ rfl rfl)

theorem State.vecEvent_keep {s0 s : State} {x1 x2} (h : Keep s0 s) : Keep s0 (State.vecEvent s x1 x2) := by
  unfold State.vecEvent
  repeat' first
    | with_reducible assumption
    | with_reducible apply Keep.raise
    | (simp only [notLimit, R.vecFsatEvt, R.vecIsatEvt, R.vecKvnanEvt, R.vecKvsatEvt, R.vecKvufEvt, R.vecNanEvt, R.vecQstatus] <;> omega)
    | split

theorem State.vecEvents_keep {s0 s : State} {x1 x2} (h : Keep s0 s) : Keep s0 (State.vecEvents s x1 x2) := by
  unfold State.vecEvents
  repeat' first
    | with_reducible assumption
    | (intro _ _)
    | with_reducible apply State.vecEvent_keep
    | with_reducible apply Keep.foldl

theorem State.padNarrow_keep {s0 s : State} {x1 x2 x3 x4} (h : Keep s0 s) : Keep s0 (State.padNarrow s x1 x2 x3 x4) := by
  unfold State.padNarrow
  repeat' first
    | with_reducible assumption
    | with_reducible apply State.padWrite_keep
    | with_reducible apply State.vecEvents_keep

theorem State.kvGroup_keep {s0 s : State} {x1 x2 x3 x4} (h : Keep s0 s) : Keep s0 ((State.kvGroup s x1 x2 x3 x4).1) := by
  unfold State.kvGroup
  repeat' first
    | with_reducible assumption
    | with_reducible apply Keep.count
    | with_reducible apply State.vecEvents_keep
    | (simp only [notLimit, R.vecKvGroups] <;> omega)

theorem State.kvEntry_keep {s0 s : State} {x1 x2 x3 x4 x5 x6} (h : Keep s0 s) : Keep s0 ((State.kvEntry s x1 x2 x3 x4 x5 x6).1) := by
  unfold State.kvEntry
  repeat' first
    | with_reducible assumption
    | (intro _ _ _)
    | with_reducible apply State.kvGroup_keep
    | with_reducible apply Keep.foldl_fst
    | split

theorem State.doCombine_keep {s0 s : State} {x1 x2 x3} (h : Keep s0 s) : Keep s0 (State.doCombine s x1 x2 x3) := by
  unfold State.doCombine
  repeat' first
    | with_reducible assumption
    | (dsimp only)
    | (intro _ _)
    | with_reducible apply State.freeAcc_keep
    | with_reducible apply State.modAcc_keep
    | with_reducible apply State.report_keep
    | with_reducible apply Keep.foldl
    | split

theorem State.doEpilogue_keep {s0 s : State} {x1 x2 x3 x4 x5 x6 x7} (h : Keep s0 s) : Keep s0 (State.doEpilogue s x1 x2 x3 x4 x5 x6 x7) := by
  unfold State.doEpilogue
  repeat' first
    | with_reducible assumption
    | with_reducible apply State.padNarrow_keep
    | with_reducible apply State.freeAcc_keep
    | split

theorem State.doRange_keep {s0 s : State} {x1 x2 x3 x4 x5} (h : Keep s0 s) : Keep s0 (State.doRange s x1 x2 x3 x4 x5) := by
  unfold State.doRange
  repeat' first
    | with_reducible assumption
    | with_reducible apply Keep.count
    | with_reducible apply State.vecEvent_keep
    | with_reducible apply State.vecEvents_keep
    | with_reducible apply State.padWrite_keep
    | (simp only [notLimit, R.vecZeroVec] <;> omega)
    | split
    | fail_if_no_progress (with_reducible refine Keep.hidden ?_ rfl rfl)

theorem State.meshArrive_keep {s0 s : State} {x1 x2 x3} (h : Keep s0 s) : Keep s0 (State.meshArrive s x1 x2 x3) := by
  unfold State.meshArrive
  repeat' first
    | with_reducible assumption
    | (dsimp only)
    | with_reducible apply Keep.raise
    | with_reducible apply State.freeAcc_keep
    | with_reducible apply State.allocAcc_keep
    | (simp only [notLimit, R.accStaleEvt, R.accStatus, R.accWaitEvt, R.dspStaleEvt, R.dspStatus] <;> omega)
    | split
    | (with_reducible refine pair_l ‹State.allocAcc _ _ _ = _› ?_)
    | fail_if_no_progress (with_reducible refine Keep.hidden ?_ rfl rfl)

theorem State.removeInst_keep {s0 s : State} {x1} (h : Keep s0 s) : Keep s0 (State.removeInst s x1) := by
  unfold State.removeInst
  repeat' first
    | with_reducible assumption
    | fail_if_no_progress (with_reducible refine Keep.hidden ?_ rfl rfl)

theorem State.drained_keep {s0 s : State} {x1} (h : Keep s0 s) : Keep s0 (State.drained s x1) := by
  unfold State.drained
  repeat' first
    | with_reducible assumption
    | with_reducible apply Keep.setF
    | (simp only [notLimit, R.dspCxState] <;> omega)
    | split

theorem State.syncInst_keep {s0 s : State} {x1} (h : Keep s0 s) : Keep s0 (State.syncInst s x1) := by
  unfold State.syncInst
  repeat' first
    | with_reducible assumption
    | with_reducible apply Keep.setF
    | with_reducible apply State.drained_keep
    | (simp only [notLimit, R.dspCxInflight, R.dspInst] <;> omega)

theorem State.dropToken_keep {s0 s : State} {x1} (h : Keep s0 s) : Keep s0 (State.dropToken s x1) := by
  unfold State.dropToken
  repeat' first
    | with_reducible assumption
    | split
    | fail_if_no_progress (with_reducible refine Keep.hidden ?_ rfl rfl)

theorem State.dropInputs_keep {s0 s : State} {x1} (h : Keep s0 s) : Keep s0 (State.dropInputs s x1) := by
  unfold State.dropInputs
  repeat' first
    | with_reducible assumption
    | (intro _ _)
    | with_reducible apply State.freeAcc_keep
    | with_reducible apply Keep.foldl
    | fail_if_no_progress (with_reducible refine Keep.hidden ?_ rfl rfl)

theorem State.cancelToken_keep {s0 s : State} {x1} (h : Keep s0 s) : Keep s0 (State.cancelToken s x1) := by
  unfold State.cancelToken
  repeat' first
    | with_reducible assumption
    | with_reducible apply State.removeInst_keep
    | with_reducible apply State.syncInst_keep
    | with_reducible apply State.dropToken_keep
    | with_reducible apply State.dropInputs_keep
    | with_reducible apply Keep.foldl
    | split

theorem State.setToken_keep {s0 s : State} {x1 x2} (h : Keep s0 s) : Keep s0 (State.setToken s x1 x2) := by
  unfold State.setToken
  repeat' first
    | with_reducible assumption
    | fail_if_no_progress (with_reducible refine Keep.hidden ?_ rfl rfl)

theorem State.bindToken_keep {s0 s : State} {x1 x2 x3 x4} (h : Keep s0 s) : Keep s0 (State.bindToken s x1 x2 x3 x4) := by
  unfold State.bindToken
  repeat' first
    | with_reducible assumption
    | with_reducible apply State.setToken_keep
    | fail_if_no_progress (with_reducible refine Keep.hidden ?_ rfl rfl)

theorem State.dropDeps_keep {s0 s : State} {x1} (h : Keep s0 s) : Keep s0 (State.dropDeps s x1) := by
  unfold State.dropDeps
  repeat' first
    | with_reducible assumption
    | split
    | fail_if_no_progress (with_reducible refine Keep.hidden ?_ rfl rfl)

theorem State.finishInst_keep {s0 s : State} {x1} (h : Keep s0 s) : Keep s0 (State.finishInst s x1) := by
  unfold State.finishInst
  repeat' first
    | with_reducible assumption
    | with_reducible apply State.removeInst_keep
    | with_reducible apply State.dropDeps_keep
    | split

theorem State.setInst_keep {s0 s : State} {x1 x2} (h : Keep s0 s) : Keep s0 (State.setInst s x1 x2) := by
  unfold State.setInst
  repeat' first
    | with_reducible assumption
    | fail_if_no_progress (with_reducible refine Keep.hidden ?_ rfl rfl)

theorem State.closeGather_keep {s0 s : State} {x1} (h : Keep s0 s) : Keep s0 (State.closeGather s x1) := by
  unfold State.closeGather
  repeat' first
    | with_reducible assumption
    | (intro _ _ _)
    | with_reducible apply State.setInst_keep
    | with_reducible apply Keep.foldl
    | split
    | fail_if_no_progress (with_reducible refine Keep.hidden ?_ rfl rfl)

theorem State.gatherInst_keep {s0 s : State} {x1 x2 x3 x4} (h : Keep s0 s) : Keep s0 (State.gatherInst s x1 x2 x3 x4) := by
  unfold State.gatherInst
  repeat' first
    | with_reducible assumption
    | (dsimp only)
    | with_reducible apply State.finishInst_keep
    | with_reducible apply State.setInst_keep
    | with_reducible apply State.closeGather_keep
    | split
    | fail_if_no_progress (with_reducible refine Keep.hidden ?_ rfl rfl)

theorem State.makeReady_keep {s0 s : State} {x1 x2 x3 x4} (h : Keep s0 s) : Keep s0 (State.makeReady s x1 x2 x3 x4) := by
  unfold State.makeReady
  repeat' first
    | with_reducible assumption
    | with_reducible apply State.gatherInst_keep
    | with_reducible apply State.finishInst_keep
    | with_reducible apply State.setInst_keep
    | split
    | fail_if_no_progress (with_reducible refine Keep.hidden ?_ rfl rfl)

theorem State.markToken_keep {s0 s : State} {x1} (h : Keep s0 s) : Keep s0 (State.markToken s x1) := by
  unfold State.markToken
  repeat' first
    | with_reducible assumption
    | with_reducible apply State.markCall_keep
    | split
    | fail_if_no_progress (with_reducible refine Keep.hidden ?_ rfl rfl)

theorem State.noCopy_keep {s0 s : State} {x1 x2} (h : Keep s0 s) : Keep s0 (State.noCopy s x1 x2) := by
  unfold State.noCopy
  repeat' first
    | with_reducible assumption
    | with_reducible apply Keep.raise
    | with_reducible apply State.markToken_keep
    | with_reducible apply State.report_keep
    | with_reducible apply State.cancelToken_keep
    | (simp only [notLimit, R.dspNocopyEvt, R.dspStatus] <;> omega)

theorem State.advance_keep {s0 s : State} {x1 x2 x3 x4 x5} (h : Keep s0 s) : Keep s0 (State.advance s x1 x2 x3 x4 x5) := by
  unfold State.advance
  repeat' first
    | with_reducible assumption
    | with_reducible apply State.makeReady_keep
    | with_reducible apply State.noCopy_keep
    | with_reducible apply State.setToken_keep
    | split

theorem State.settleGo_keep {s0 s : State} {x0} (h : Keep s0 s) : Keep s0 (State.settleGo x0 s) := by
  induction x0 generalizing s <;> unfold State.settleGo <;> try dsimp only
  all_goals repeat' first
    | with_reducible apply State.finishInst_keep
    | with_reducible apply State.advance_keep
    | split
    | with_reducible apply_assumption

theorem State.settle_keep {s0 s : State} {x1} (h : Keep s0 s) : Keep s0 (State.settle s x1) := by
  unfold State.settle
  repeat' first
    | with_reducible assumption
    | with_reducible apply State.settleGo_keep
    | with_reducible apply State.syncInst_keep
    | with_reducible apply State.dropToken_keep
    | with_reducible apply Keep.foldl

theorem State.dropLostCopies_keep {s0 s : State} (h : Keep s0 s) : Keep s0 (State.dropLostCopies s) := by
  unfold State.dropLostCopies
  repeat' first
    | with_reducible assumption
    | (intro _ _ _)
    | with_reducible apply State.settle_keep
    | with_reducible apply State.cancelToken_keep
    | with_reducible apply State.markToken_keep
    | with_reducible apply Keep.foldl

theorem State.dropUnreleased_keep {s0 s : State} {x1} (h : Keep s0 s) : Keep s0 (State.dropUnreleased s x1) := by
  unfold State.dropUnreleased
  repeat' first
    | with_reducible assumption
    | with_reducible apply State.removeInst_keep
    | with_reducible apply State.syncInst_keep
    | with_reducible apply State.dropToken_keep
    | with_reducible apply Keep.foldl
    | fail_if_no_progress (with_reducible refine Keep.hidden ?_ rfl rfl)

theorem State.dropSave_keep {s0 s : State} {x1} (h : Keep s0 s) : Keep s0 (State.dropSave s x1) := by
  unfold State.dropSave
  repeat' first
    | with_reducible assumption
    | with_reducible apply Keep.setF
    | with_reducible apply State.setCtx_keep
    | (simp only [notLimit, R.dspCxCtrl] <;> omega)

theorem State.startTeardown_keep {s0 s : State} {x1} (h : Keep s0 s) : Keep s0 (State.startTeardown s x1) := by
  unfold State.startTeardown
  repeat' first
    | with_reducible assumption
    | (intro _ _)
    | with_reducible apply Keep.setF
    | with_reducible apply State.setCtx_keep
    | with_reducible apply State.dropUnreleased_keep
    | with_reducible apply State.dropSave_keep
    | with_reducible apply State.defaultLane_keep
    | with_reducible apply Keep.foldl
    | (simp only [notLimit, R.dspCxCtrl, R.dspCxState] <;> omega)

theorem State.requestTeardown_keep {s0 s : State} {x1} (h : Keep s0 s) : Keep s0 (State.requestTeardown s x1) := by
  unfold State.requestTeardown
  repeat' first
    | with_reducible assumption
    | (dsimp only)
    | with_reducible apply Keep.setF
    | with_reducible apply State.setCtx_keep
    | with_reducible apply State.startTeardown_keep
    | (simp only [notLimit, R.dspCxCtrl] <;> omega)
    | split

theorem State.faultCtx_keep {s0 s : State} {x1} (h : Keep s0 s) : Keep s0 (State.faultCtx s x1) := by
  unfold State.faultCtx
  repeat' first
    | with_reducible assumption
    | with_reducible apply State.requestTeardown_keep
    | split

theorem State.complete_keep {s0 s : State} {x1} (h : Keep s0 s) : Keep s0 (State.complete s x1) := by
  unfold State.complete
  repeat' first
    | with_reducible assumption
    | with_reducible apply State.settle_keep
    | with_reducible apply State.finishInst_keep
    | split

theorem State.endFolios_keep {s0 s : State} {x1} (h : Keep s0 s) : Keep s0 (State.endFolios s x1) := by
  unfold State.endFolios
  repeat' first
    | with_reducible assumption
    | (intro _ _ _)
    | with_reducible apply State.retireFolio_keep
    | with_reducible apply State.releaseFolio_keep
    | with_reducible apply Keep.foldl
    | split
    | fail_if_no_progress (with_reducible refine Keep.hidden ?_ rfl rfl)

theorem State.endTeardown_keep {s0 s : State} {x1} (h : Keep s0 s) : Keep s0 (State.endTeardown s x1) := by
  unfold State.endTeardown
  repeat' first
    | with_reducible assumption
    | (intro _ _)
    | with_reducible apply Keep.setF
    | with_reducible apply Keep.raise
    | with_reducible apply Keep.countF
    | with_reducible apply State.endFolios_keep
    | with_reducible apply State.freeAcc_keep
    | with_reducible apply Keep.foldl
    | (simp only [notLimit, R.dspCxCtrl, R.dspCxInflight, R.dspCxState, R.dspCxTdEvt] <;> omega)

theorem State.instantiate_keep {s0 s : State} {x1 x2 x3 x4 x5} (h : Keep s0 s) : Keep s0 (State.instantiate s x1 x2 x3 x4 x5) := by
  unfold State.instantiate
  repeat' first
    | with_reducible assumption
    | (intro _ _)
    | with_reducible apply Keep.raise
    | with_reducible apply State.report_keep
    | with_reducible apply State.settle_keep
    | with_reducible apply State.finishInst_keep
    | with_reducible apply Keep.foldl
    | (simp only [notLimit, R.dspFullEvt, R.dspStatus] <;> omega)
    | split
    | fail_if_no_progress (with_reducible refine Keep.hidden ?_ rfl rfl)

theorem State.lateCheck_keep {s0 s : State} {x1} (h : Keep s0 s) : Keep s0 (State.lateCheck s x1) := by
  unfold State.lateCheck
  repeat' first
    | with_reducible assumption
    | with_reducible apply Keep.raise
    | with_reducible apply Keep.count
    | (simp only [notLimit, R.dspCxLate, R.dspLateEvt, R.dspStatus] <;> omega)
    | split

theorem State.pumpFetch_keep {s0 s : State} {x1} (h : Keep s0 s) : Keep s0 (State.pumpFetch s x1) := by
  unfold State.pumpFetch
  repeat' first
    | with_reducible assumption
    | with_reducible apply State.newReq_keep
    | with_reducible apply Keep.foldl
    | fail_if_no_progress (with_reducible refine Keep.hidden ?_ rfl rfl)

theorem State.queueMvm_keep {s0 s : State} {x1 x2 x3 x4} (h : Keep s0 s) : Keep s0 (State.queueMvm s x1 x2 x3 x4) := by
  unfold State.queueMvm
  repeat' first
    | with_reducible assumption
    | (intro _ _)
    | with_reducible apply State.setTile_keep
    | with_reducible apply Keep.foldl
    | split

theorem State.releaseInst_keep {s0 s : State} {x1 x2} (h : Keep s0 s) : Keep s0 (State.releaseInst s x1 x2) := by
  unfold State.releaseInst
  repeat' first
    | with_reducible assumption
    | (dsimp only)
    | (intro _ _)
    | with_reducible apply State.lateCheck_keep
    | with_reducible apply State.setInst_keep
    | with_reducible apply State.queueMvm_keep
    | with_reducible apply State.newReq_keep
    | with_reducible apply Keep.foldl
    | split

theorem State.startFetch_keep {s0 s : State} {x1 x2 x3} (h : Keep s0 s) : Keep s0 (State.startFetch s x1 x2 x3) := by
  unfold State.startFetch
  repeat' first
    | with_reducible assumption
    | (intro _ _ _)
    | with_reducible apply State.report_keep
    | with_reducible apply State.pumpFetch_keep
    | with_reducible apply Keep.foldl
    | split
    | fail_if_no_progress (with_reducible refine Keep.hidden ?_ rfl rfl)

theorem State.releaseNext_keep {s0 s : State} {x1 x2} (h : Keep s0 s) : Keep s0 (State.releaseNext s x1 x2) := by
  unfold State.releaseNext
  repeat' first
    | with_reducible assumption
    | (intro _ _ _)
    | with_reducible apply State.releaseInst_keep
    | with_reducible apply State.startFetch_keep
    | with_reducible apply Keep.foldl
    | split

theorem State.clampTrim_keep {s0 s : State} {x1 x2} (h : Keep s0 s) : Keep s0 (State.clampTrim s x1 x2) := by
  unfold State.clampTrim
  repeat' first
    | with_reducible assumption
    | with_reducible apply Keep.raise
    | with_reducible apply State.report_keep
    | (simp only [notLimit, R.calClampEvt, R.calStatus] <;> omega)

theorem State.commit_keep {s0 s : State} {x1 x2} (h : Keep s0 s) : Keep s0 (State.commit s x1 x2) := by
  unfold State.commit
  repeat' first
    | with_reducible assumption
    | with_reducible apply Keep.setF
    | with_reducible apply State.setTile_keep
    | (simp only [notLimit, R.calTileCtrl] <;> omega)
    | split

theorem State.commitWhenFree_keep {s0 s : State} {x1 x2} (h : Keep s0 s) : Keep s0 (State.commitWhenFree s x1 x2) := by
  unfold State.commitWhenFree
  repeat' first
    | with_reducible assumption
    | with_reducible apply State.commit_keep
    | with_reducible apply State.setTile_keep
    | split

theorem State.graftTile_keep {s0 s : State} {x1 x2 x3 x4 x5} (h : Keep s0 s) : Keep s0 (State.graftTile s x1 x2 x3 x4 x5) := by
  unfold State.graftTile
  repeat' first
    | with_reducible assumption
    | with_reducible apply State.setTile_keep
    | with_reducible apply State.clampTrim_keep
    | with_reducible apply State.commitWhenFree_keep
    | split

theorem State.graftGains_keep {s0 s : State} {x1} (h : Keep s0 s) : Keep s0 (State.graftGains s x1) := by
  unfold State.graftGains
  repeat' first
    | with_reducible assumption
    | (intro _ _ _)
    | with_reducible apply State.graftTile_keep
    | with_reducible apply Keep.foldl
    | split
    | fail_if_no_progress (with_reducible refine Keep.hidden ?_ rfl rfl)

theorem State.restartPips_keep {s0 s : State} {x1 x2} (h : Keep s0 s) : Keep s0 (State.restartPips s x1 x2) := by
  unfold State.restartPips
  repeat' first
    | with_reducible assumption
    | with_reducible apply Keep.setF
    | with_reducible apply State.setTile_keep
    | (simp only [notLimit, R.tilPipGain] <;> omega)

theorem State.renewSummary_keep {s0 s : State} (h : Keep s0 s) : Keep s0 (State.renewSummary s) := by
  unfold State.renewSummary
  repeat' first
    | with_reducible assumption
    | with_reducible apply Keep.setF
    | (simp only [notLimit, R.calCounts, R.calSummary, R.calWorst] <;> omega)

theorem State.writeFid_keep {s0 s : State} {x1 x2 x3} (h : Keep s0 s) : Keep s0 (State.writeFid s x1 x2 x3) := by
  unfold State.writeFid
  repeat' first
    | with_reducible assumption
    | with_reducible apply Keep.setF
    | with_reducible apply Keep.raise
    | with_reducible apply State.setTileState_keep
    | with_reducible apply State.renewSummary_keep
    | (simp only [notLimit, R.tilBelowEvt, R.tilFidelity, R.tilStatus] <;> omega)
    | split

theorem State.commitVread_keep {s0 s : State} {x1 x2 x3} (h : Keep s0 s) : Keep s0 (State.commitVread s x1 x2 x3) := by
  unfold State.commitVread
  repeat' first
    | with_reducible assumption
    | with_reducible apply State.report_keep
    | with_reducible apply State.setTile_keep
    | with_reducible apply State.commit_keep
    | split

theorem State.closePips_keep {s0 s : State} {x1 x2} (h : Keep s0 s) : Keep s0 (State.closePips s x1 x2) := by
  unfold State.closePips
  repeat' first
    | with_reducible assumption
    | (dsimp only)
    | with_reducible apply Keep.setF
    | with_reducible apply Keep.raise
    | with_reducible apply State.restartPips_keep
    | with_reducible apply State.setTile_keep
    | with_reducible apply State.commitVread_keep
    | with_reducible apply State.writeFid_keep
    | (simp only [notLimit, R.tilPipGain, R.tilPipfEvt, R.tilStatus] <;> omega)
    | split

theorem State.endGaps_keep {s0 s : State} {x1 x2 x3 x4} (h : Keep s0 s) : Keep s0 (State.endGaps s x1 x2 x3 x4) := by
  unfold State.endGaps
  repeat' first
    | with_reducible assumption
    | (dsimp only)
    | with_reducible apply State.setTile_keep
    | with_reducible apply State.clampTrim_keep
    | with_reducible apply State.commitWhenFree_keep
    | split

theorem State.renewFid_keep {s0 s : State} {x1 x2} (h : Keep s0 s) : Keep s0 (State.renewFid s x1 x2) := by
  unfold State.renewFid
  repeat' first
    | with_reducible assumption
    | with_reducible apply State.writeFid_keep
    | split
    | fail_if_no_progress (with_reducible refine Keep.hidden ?_ rfl rfl)

theorem State.epoch_keep {s0 s : State} {x1 x2} (h : Keep s0 s) : Keep s0 (State.epoch s x1 x2) := by
  unfold State.epoch
  repeat' first
    | with_reducible assumption
    | with_reducible apply Keep.count
    | with_reducible apply Keep.setF
    | with_reducible apply State.setTile_keep
    | with_reducible apply State.restartPips_keep
    | with_reducible apply State.renewFid_keep
    | (simp only [notLimit, R.calEpoch, R.calTileCtrl] <;> omega)
    | split

theorem State.startGaps_keep {s0 s : State} {x1 x2 x3} (h : Keep s0 s) : Keep s0 (State.startGaps s x1 x2 x3) := by
  unfold State.startGaps
  repeat' first
    | with_reducible assumption
    | (dsimp only)
    | with_reducible apply State.setTile_keep
    | split

theorem State.setPTile_keep {s0 s : State} {x1 x2} (h : Keep s0 s) : Keep s0 (State.setPTile s x1 x2) := by
  unfold State.setPTile
  repeat' first
    | with_reducible assumption
    | with_reducible apply State.setTile_keep

theorem State.writeJournal_keep {s0 s : State} {x1} (h : Keep s0 s) : Keep s0 (State.writeJournal s x1) := by
  unfold State.writeJournal
  repeat' first
    | with_reducible assumption
    | with_reducible apply State.writeRec_keep

theorem State.writeWear_keep {s0 s : State} (h : Keep s0 s) : Keep s0 (State.writeWear s) := by
  unfold State.writeWear
  repeat' first
    | with_reducible assumption
    | with_reducible apply State.writeRec_keep

theorem State.closeJob_keep {s0 s : State} {x1 x2} (h : Keep s0 s) : Keep s0 (State.closeJob s x1 x2) := by
  unfold State.closeJob
  repeat' first
    | with_reducible assumption
    | with_reducible apply State.writeJournal_keep
    | with_reducible apply State.writeWear_keep
    | fail_if_no_progress (with_reducible refine Keep.hidden ?_ rfl rfl)

theorem State.abandonJobs_keep {s0 s : State} {x1} (h : Keep s0 s) : Keep s0 (State.abandonJobs s x1) := by
  unfold State.abandonJobs
  repeat' first
    | with_reducible assumption
    | (intro _ _ _)
    | with_reducible apply State.setPTile_keep
    | with_reducible apply State.report_keep
    | with_reducible apply State.closeJob_keep
    | with_reducible apply Keep.foldl
    | split
    | fail_if_no_progress (with_reducible refine Keep.hidden ?_ rfl rfl)

theorem State.setIssue_keep {s0 s : State} {x1 x2} (h : Keep s0 s) : Keep s0 (State.setIssue s x1 x2) := by
  unfold State.setIssue
  repeat' first
    | with_reducible assumption
    | with_reducible apply Keep.setF
    | (simp only [notLimit, R.tilCtrl] <;> omega)

theorem State.writeCache_keep {s0 s : State} (h : Keep s0 s) : Keep s0 (State.writeCache s) := by
  unfold State.writeCache
  repeat' first
    | with_reducible assumption
    | with_reducible apply State.enqueue_keep
    | fail_if_no_progress (with_reducible refine Keep.hidden ?_ rfl rfl)

theorem State.stepJob_keep {s0 s : State} {x1 x2 x3} (h : Keep s0 s) : Keep s0 (State.stepJob s x1 x2 x3) := by
  unfold State.stepJob
  repeat' first
    | with_reducible assumption
    | fail_if_no_progress (with_reducible refine Keep.hidden ?_ rfl rfl)

theorem State.standFor_keep {s0 s : State} {x1 x2} (h : Keep s0 s) : Keep s0 (State.standFor s x1 x2) := by
  unfold State.standFor
  repeat' first
    | with_reducible assumption
    | with_reducible apply Keep.setF
    | with_reducible apply State.setTileState_keep
    | (simp only [notLimit, R.tilState] <;> omega)
    | fail_if_no_progress (with_reducible refine Keep.hidden ?_ rfl rfl)

theorem State.openJob_keep {s0 s : State} {x1 x2} (h : Keep s0 s) : Keep s0 (State.openJob s x1 x2) := by
  unfold State.openJob
  repeat' first
    | with_reducible assumption
    | with_reducible apply State.writeJournal_keep
    | fail_if_no_progress (with_reducible refine Keep.hidden ?_ rfl rfl)

theorem State.startStandIns_keep {s0 s : State} (h : Keep s0 s) : Keep s0 (State.startStandIns s) := by
  unfold State.startStandIns
  repeat' first
    | with_reducible assumption
    | (intro _ _ _)
    | with_reducible apply State.openJob_keep
    | with_reducible apply State.report_keep
    | with_reducible apply Keep.foldl
    | split

theorem State.toSpare_keep {s0 s : State} {x1 x2} (h : Keep s0 s) : Keep s0 (State.toSpare s x1 x2) := by
  unfold State.toSpare
  repeat' first
    | with_reducible assumption
    | with_reducible apply Keep.setF
    | with_reducible apply State.setPTile_keep
    | with_reducible apply State.setTileState_keep
    | with_reducible apply State.setIssue_keep
    | (simp only [notLimit, R.tilState] <;> omega)

theorem State.afterSwitch_keep {s0 s : State} {x1 x2 x3 x4} (h : Keep s0 s) : Keep s0 (State.afterSwitch s x1 x2 x3 x4) := by
  unfold State.afterSwitch
  repeat' first
    | with_reducible assumption
    | (dsimp only)
    | with_reducible apply State.writeJournal_keep
    | with_reducible apply State.stepJob_keep
    | with_reducible apply State.standFor_keep
    | with_reducible apply State.startStandIns_keep
    | with_reducible apply State.closeJob_keep
    | with_reducible apply State.toSpare_keep
    | with_reducible apply State.setTileState_keep
    | split
    | fail_if_no_progress (with_reducible refine Keep.hidden ?_ rfl rfl)

theorem State.dissolve_keep {s0 s : State} (h : Keep s0 s) : Keep s0 (State.dissolve s) := by
  unfold State.dissolve
  repeat' first
    | with_reducible assumption
    | (intro _ _ _)
    | with_reducible apply State.toSpare_keep
    | with_reducible apply Keep.foldl
    | split
    | fail_if_no_progress (with_reducible refine Keep.hidden ?_ rfl rfl)

theorem State.openModel_keep {s0 s : State} {x1} (h : Keep s0 s) : Keep s0 (State.openModel s x1) := by
  unfold State.openModel
  repeat' first
    | with_reducible assumption
    | (dsimp only)
    | with_reducible apply State.dissolve_keep
    | with_reducible apply State.abandonJobs_keep
    | with_reducible apply State.openJob_keep
    | split
    | fail_if_no_progress (with_reducible refine Keep.hidden ?_ rfl rfl)

theorem State.retireTile_keep {s0 s : State} {x1 x2} (h : Keep s0 s) : Keep s0 (State.retireTile s x1 x2) := by
  unfold State.retireTile
  repeat' first
    | with_reducible assumption
    | with_reducible apply State.setPTile_keep
    | with_reducible apply State.setTileState_keep
    | with_reducible apply State.setIssue_keep
    | with_reducible apply State.report_keep

theorem State.startProg_keep {s0 s : State} {x1} (h : Keep s0 s) : Keep s0 (State.startProg s x1) := by
  unfold State.startProg
  repeat' first
    | with_reducible assumption
    | with_reducible apply State.setPTile_keep

theorem State.reliefFailed_keep {s0 s : State} {x1 x2} (h : Keep s0 s) : Keep s0 (State.reliefFailed s x1 x2) := by
  unfold State.reliefFailed
  repeat' first
    | with_reducible assumption
    | (dsimp only)
    | with_reducible apply State.startProg_keep
    | with_reducible apply State.setPTile_keep
    | with_reducible apply State.report_keep
    | with_reducible apply State.toSpare_keep
    | with_reducible apply State.startStandIns_keep
    | with_reducible apply State.closeJob_keep
    | split

theorem State.dropFor_keep {s0 s : State} {x1 x2 x3} (h : Keep s0 s) : Keep s0 ((State.dropFor s x1 x2 x3).1) := by
  induction x1 generalizing s x2 x3 <;> unfold State.dropFor <;> try dsimp only
  all_goals repeat' first
    | split
    | fail_if_no_progress (with_reducible refine Keep.hidden ?_ rfl rfl)
    | with_reducible apply_assumption

theorem State.repairCore_keep {s0 s : State} {x1} (h : Keep s0 s) : Keep s0 (State.repairCore s x1) := by
  unfold State.repairCore
  repeat' first
    | with_reducible assumption
    | (dsimp only)
    | with_reducible apply State.dropFor_keep
    | with_reducible apply State.report_keep
    | with_reducible apply State.dropLostCopies_keep
    | with_reducible apply State.openJob_keep
    | split

theorem State.modelCheck_keep {s0 s : State} {x1} (h : Keep s0 s) : Keep s0 (State.modelCheck s x1) := by
  unfold State.modelCheck
  repeat' first
    | with_reducible assumption
    | (dsimp only)
    | with_reducible apply State.closeJob_keep
    | with_reducible apply State.startStandIns_keep
    | with_reducible apply State.writeCache_keep
    | with_reducible apply State.writeRec_keep
    | with_reducible apply State.report_keep
    | split

theorem State.progFailed_keep {s0 s : State} {x1 x2 x3} (h : Keep s0 s) : Keep s0 (State.progFailed s x1 x2 x3) := by
  unfold State.progFailed
  repeat' first
    | with_reducible assumption
    | (dsimp only)
    | with_reducible apply State.startStandIns_keep
    | with_reducible apply State.closeJob_keep
    | with_reducible apply State.retireTile_keep
    | with_reducible apply State.reliefFailed_keep
    | with_reducible apply State.toSpare_keep
    | with_reducible apply State.setPTile_keep
    | with_reducible apply State.stepJob_keep
    | with_reducible apply State.repairCore_keep
    | with_reducible apply State.modelCheck_keep
    | split

theorem State.modelErr_keep {s0 s : State} {x1 x2} (h : Keep s0 s) : Keep s0 (State.modelErr s x1 x2) := by
  unfold State.modelErr
  repeat' first
    | with_reducible assumption
    | split
    | fail_if_no_progress (with_reducible refine Keep.hidden ?_ rfl rfl)

theorem State.batchDone_keep {s0 s : State} {x1 x2} (h : Keep s0 s) : Keep s0 (State.batchDone s x1 x2) := by
  unfold State.batchDone
  repeat' first
    | with_reducible assumption
    | (dsimp only)
    | with_reducible apply State.setPTile_keep
    | with_reducible apply State.report_keep
    | with_reducible apply State.setTileState_keep
    | with_reducible apply State.progFailed_keep
    | with_reducible apply State.modelErr_keep
    | split
    | fail_if_no_progress (with_reducible refine Keep.hidden ?_ rfl rfl)

theorem State.beginWrite_keep {s0 s : State} {x1 x2} (h : Keep s0 s) : Keep s0 (State.beginWrite s x1 x2) := by
  unfold State.beginWrite
  repeat' first
    | with_reducible assumption
    | with_reducible apply Keep.setF
    | with_reducible apply State.setTileState_keep
    | with_reducible apply State.setIssue_keep
    | with_reducible apply State.setTile_keep
    | (simp only [notLimit, R.calTileCtrl, R.tilCtrl] <;> omega)
    | split

theorem State.wantSwitch_keep {s0 s : State} {x1 x2} (h : Keep s0 s) : Keep s0 (State.wantSwitch s x1 x2) := by
  unfold State.wantSwitch
  repeat' first
    | with_reducible assumption
    | fail_if_no_progress (with_reducible refine Keep.hidden ?_ rfl rfl)

theorem State.jobCalibrated_keep {s0 s : State} {x1 x2 x3} (h : Keep s0 s) : Keep s0 (State.jobCalibrated s x1 x2 x3) := by
  unfold State.jobCalibrated
  repeat' first
    | with_reducible assumption
    | with_reducible apply State.wantSwitch_keep
    | with_reducible apply State.stepJob_keep
    | with_reducible apply State.reliefFailed_keep
    | with_reducible apply State.startStandIns_keep
    | with_reducible apply State.closeJob_keep
    | with_reducible apply State.retireTile_keep
    | with_reducible apply State.setPTile_keep
    | with_reducible apply State.modelCheck_keep
    | split

theorem State.resumeProgs_keep {s0 s : State} (h : Keep s0 s) : Keep s0 (State.resumeProgs s) := by
  unfold State.resumeProgs
  repeat' first
    | with_reducible assumption
    | split
    | fail_if_no_progress (with_reducible refine Keep.hidden ?_ rfl rfl)

theorem State.setPlace_keep {s0 s : State} {x1 x2} (h : Keep s0 s) : Keep s0 (State.setPlace s x1 x2) := by
  unfold State.setPlace
  repeat' first
    | with_reducible assumption
    | fail_if_no_progress (with_reducible refine Keep.hidden ?_ rfl rfl)

theorem State.takeOver_keep {s0 s : State} {x1 x2 x3} (h : Keep s0 s) : Keep s0 (State.takeOver s x1 x2 x3) := by
  unfold State.takeOver
  repeat' first
    | with_reducible assumption
    | with_reducible apply Keep.setF
    | with_reducible apply State.setPTile_keep
    | with_reducible apply State.setIssue_keep
    | with_reducible apply State.setPlace_keep
    | with_reducible apply State.syncStep_keep
    | (simp only [notLimit, R.tilRange] <;> omega)

theorem State.doSwitch_keep {s0 s : State} {x1} (h : Keep s0 s) : Keep s0 (State.doSwitch s x1) := by
  unfold State.doSwitch
  repeat' first
    | with_reducible assumption
    | (dsimp only)
    | with_reducible apply State.takeOver_keep
    | with_reducible apply State.afterSwitch_keep
    | split
    | fail_if_no_progress (with_reducible refine Keep.hidden ?_ rfl rfl)

theorem State.journalWritten_keep {s0 s : State} {x1} (h : Keep s0 s) : Keep s0 (State.journalWritten s x1) := by
  unfold State.journalWritten
  repeat' first
    | with_reducible assumption
    | (dsimp only)
    | (intro _ _ _)
    | with_reducible apply State.startProg_keep
    | with_reducible apply State.stepJob_keep
    | with_reducible apply Keep.foldl
    | split

theorem State.pumpAdmit_keep {s0 s : State} (h : Keep s0 s) : Keep s0 (State.pumpAdmit s) := by
  unfold State.pumpAdmit
  repeat' first
    | with_reducible assumption
    | with_reducible apply State.beginWrite_keep
    | with_reducible apply State.setPTile_keep
    | split

theorem State.refreshStart_keep {s0 s : State} (h : Keep s0 s) : Keep s0 (State.refreshStart s) := by
  unfold State.refreshStart
  repeat' first
    | with_reducible assumption
    | (dsimp only)
    | (intro _ _ _)
    | with_reducible apply State.report_keep
    | with_reducible apply State.openJob_keep
    | with_reducible apply State.setPTile_keep
    | with_reducible apply Keep.foldl
    | split

theorem State.settle2_keep {s0 s : State} {x1} (h : Keep s0 s) : Keep s0 (State.settle2 s x1) := by
  unfold State.settle2
  repeat' first
    | with_reducible assumption
    | (dsimp only)
    | with_reducible apply State.setPTile_keep
    | with_reducible apply State.pumpAdmit_keep
    | split

end Sys2Proof.Machine
end

