-- ==== Sys2Proof/Laws/KeepPower.lean ====
section
/-! SUPPORT. `Keep` for the ports, the monitor and power: every function of these modules keeps what `Keep` names. -/

set_option linter.all false

namespace Sys2Proof.Machine

theorem State.setPortState_keep {s0 s : State} {x1 x2} (h : Keep s0 s) : Keep s0 (State.setPortState s x1 x2) := by
  unfold State.setPortState
  repeat' first
    | with_reducible assumption
    | with_reducible apply Keep.setF
    | with_reducible apply State.setPort_keep
    | (simp only [notLimit, R.prtState] <;> omega)

theorem State.enterTrain_keep {s0 s : State} {x1} (h : Keep s0 s) : Keep s0 (State.enterTrain s x1) := by
  unfold State.enterTrain
  repeat' first
    | with_reducible assumption
    | with_reducible apply Keep.setF
    | with_reducible apply Keep.setReg
    | with_reducible apply State.setPortState_keep
    | with_reducible apply State.setPort_keep
    | (simp only [notLimit, R.prtCtrl, R.prtPartnerFw, R.prtState] <;> omega)

theorem State.detachEffects_keep {s0 s : State} {x1} (h : Keep s0 s) : Keep s0 (State.detachEffects s x1) := by
  unfold State.detachEffects
  repeat' first
    | with_reducible assumption
    | (intro _ _ _)
    | with_reducible apply Keep.raise
    | with_reducible apply State.defaultLane_keep
    | with_reducible apply State.setFireQ_keep
    | with_reducible apply Keep.foldl
    | (simp only [notLimit, R.prtStatus, R.prtTxlEvt] <;> omega)
    | split

theorem State.detach_keep {s0 s : State} {x1 x2 x3} (h : Keep s0 s) : Keep s0 (State.detach s x1 x2 x3) := by
  unfold State.detach
  repeat' first
    | with_reducible assumption
    | with_reducible apply Keep.raise
    | with_reducible apply State.report_keep
    | with_reducible apply State.enterTrain_keep
    | with_reducible apply State.setPortState_keep
    | with_reducible apply State.detachEffects_keep
    | (simp only [notLimit, R.prtDetEvt, R.prtStatus] <;> omega)
    | split

theorem State.disablePort_keep {s0 s : State} {x1} (h : Keep s0 s) : Keep s0 (State.disablePort s x1) := by
  unfold State.disablePort
  repeat' first
    | with_reducible assumption
    | with_reducible apply Keep.setF
    | with_reducible apply State.putFrame_keep
    | with_reducible apply State.detach_keep
    | with_reducible apply State.setPortState_keep
    | with_reducible apply State.enterTrain_keep
    | (simp only [notLimit, R.prtCtrl] <;> omega)
    | split

theorem State.attach_keep {s0 s : State} {x1} (h : Keep s0 s) : Keep s0 (State.attach s x1) := by
  unfold State.attach
  repeat' first
    | with_reducible assumption
    | with_reducible apply Keep.setF
    | with_reducible apply Keep.countF
    | with_reducible apply Keep.setNat
    | with_reducible apply State.setPortState_keep
    | with_reducible apply State.setPort_keep
    | (simp only [notLimit, R.prtPartnerFw, R.prtState] <;> omega)

theorem State.cvWrite_keep {s0 s : State} {x1 x2 x3} (h : Keep s0 s) : Keep s0 (State.cvWrite s x1 x2 x3) := by
  unfold State.cvWrite
  repeat' first
    | with_reducible assumption
    | (dsimp only)
    | with_reducible apply Keep.raise
    | with_reducible apply State.setPort_keep
    | (simp only [notLimit, R.prtCvSel, R.prtCvbEvt, R.prtStatus] <;> omega)
    | split

theorem State.sendAccession_keep {s0 s : State} {x1} (h : Keep s0 s) : Keep s0 (State.sendAccession s x1) := by
  unfold State.sendAccession
  repeat' first
    | with_reducible assumption
    | with_reducible apply State.putFrame_keep
    | with_reducible apply State.setPort_keep

theorem State.tryAttach_keep {s0 s : State} {x1} (h : Keep s0 s) : Keep s0 (State.tryAttach s x1) := by
  unfold State.tryAttach
  repeat' first
    | with_reducible assumption
    | with_reducible apply State.attach_keep
    | split

theorem State.refuse_keep {s0 s : State} {x1 x2} (h : Keep s0 s) : Keep s0 (State.refuse s x1 x2) := by
  unfold State.refuse
  repeat' first
    | with_reducible assumption
    | with_reducible apply Keep.raise
    | with_reducible apply State.setPortState_keep
    | with_reducible apply State.report_keep
    | (simp only [notLimit, R.prtRefEvt, R.prtStatus] <;> omega)

theorem State.gotRecord_keep {s0 s : State} {x1 x2} (h : Keep s0 s) : Keep s0 (State.gotRecord s x1 x2) := by
  unfold State.gotRecord
  repeat' first
    | with_reducible assumption
    | (dsimp only)
    | with_reducible apply State.putFrame_keep
    | with_reducible apply State.report_keep
    | with_reducible apply State.setPort_keep
    | with_reducible apply State.tryAttach_keep
    | with_reducible apply State.refuse_keep
    | split

theorem State.enterDiscover_keep {s0 s : State} {x1} (h : Keep s0 s) : Keep s0 (State.enterDiscover s x1) := by
  unfold State.enterDiscover
  repeat' first
    | with_reducible assumption
    | (dsimp only)
    | with_reducible apply State.setPortState_keep
    | with_reducible apply State.setPort_keep
    | with_reducible apply State.sendAccession_keep
    | with_reducible apply State.gotRecord_keep
    | split

theorem State.sendDetach_keep {s0 s : State} {x1 x2 x3} (h : Keep s0 s) : Keep s0 (State.sendDetach s x1 x2 x3) := by
  unfold State.sendDetach
  repeat' first
    | with_reducible assumption
    | with_reducible apply State.detach_keep
    | with_reducible apply State.putFrame_keep
    | split

theorem State.rxFrame_keep {s0 s : State} {x1 x2} (h : Keep s0 s) : Keep s0 ((State.rxFrame s x1 x2).1) := by
  unfold State.rxFrame
  repeat' first
    | with_reducible assumption
    | (dsimp only)
    | with_reducible apply Keep.count
    | with_reducible apply Keep.raise
    | with_reducible apply State.setPort_keep
    | (simp only [notLimit, R.prtCvEvt, R.prtHdrEvt, R.prtRxMsgs, R.prtSeqEvt, R.prtStampEvt, R.prtStatus] <;> omega)
    | split

theorem State.rxAttached_keep {s0 s : State} {x1 x2} (h : Keep s0 s) : Keep s0 ((State.rxAttached s x1 x2).1) := by
  unfold State.rxAttached
  repeat' first
    | with_reducible assumption
    | with_reducible apply State.rxFrame_keep
    | split

theorem State.setConv_keep {s0 s : State} {x1 x2} (h : Keep s0 s) : Keep s0 (State.setConv s x1 x2) := by
  unfold State.setConv
  repeat' first
    | with_reducible assumption
    | split
    | fail_if_no_progress (with_reducible refine Keep.hidden ?_ rfl rfl)

theorem State.accumulate_keep {s0 s : State} {x1 x2 x3} (h : Keep s0 s) : Keep s0 (State.accumulate s x1 x2 x3) := by
  unfold State.accumulate
  repeat' first
    | with_reducible assumption
    | with_reducible apply Keep.raise
    | with_reducible apply State.setConv_keep
    | (simp only [notLimit, R.monOvraEvt, R.monOvrbEvt, R.monStatus] <;> omega)
    | split

theorem State.compareXchk_keep {s0 s : State} (h : Keep s0 s) : Keep s0 (State.compareXchk s) := by
  unfold State.compareXchk
  repeat' first
    | with_reducible assumption
    | (dsimp only)
    | with_reducible apply Keep.setF
    | with_reducible apply Keep.raise
    | with_reducible apply State.report_keep
    | (simp only [notLimit, R.monStatus, R.monXchkEvt, R.monXchkLast, R.monXchkThr] <;> omega)
    | split
    | fail_if_no_progress (with_reducible refine Keep.hidden ?_ rfl rfl)

theorem State.convBOff_keep {s0 s : State} (h : Keep s0 s) : Keep s0 (State.convBOff s) := by
  unfold State.convBOff
  repeat' first
    | with_reducible assumption
    | with_reducible apply State.compareXchk_keep
    | fail_if_no_progress (with_reducible refine Keep.hidden ?_ rfl rfl)

theorem State.setConvState_keep {s0 s : State} {x1 x2 x3} (h : Keep s0 s) : Keep s0 (State.setConvState s x1 x2 x3) := by
  unfold State.setConvState
  repeat' first
    | with_reducible assumption
    | with_reducible apply Keep.setF
    | (simp only [notLimit, R.monCvState] <;> omega)

theorem State.startEntry_keep {s0 s : State} {x1 x2 x3} (h : Keep s0 s) : Keep s0 (State.startEntry s x1 x2 x3) := by
  unfold State.startEntry
  repeat' first
    | with_reducible assumption
    | (dsimp only)
    | with_reducible apply Keep.setF
    | with_reducible apply State.setConvState_keep
    | with_reducible apply State.setConv_keep
    | (simp only [notLimit, R.monCvCtrl, R.monCvState, R.monSeq] <;> omega)
    | split

theorem State.nextEntry_keep {s0 s : State} {x1} (h : Keep s0 s) : Keep s0 (State.nextEntry s x1) := by
  unfold State.nextEntry
  repeat' first
    | with_reducible assumption
    | with_reducible apply State.startEntry_keep

theorem State.afterResult_keep {s0 s : State} {x1} (h : Keep s0 s) : Keep s0 (State.afterResult s x1) := by
  unfold State.afterResult
  repeat' first
    | with_reducible assumption
    | (dsimp only)
    | with_reducible apply Keep.setF
    | with_reducible apply State.setConvState_keep
    | with_reducible apply State.nextEntry_keep
    | (simp only [notLimit, R.monCvState] <;> omega)
    | split

theorem State.userFactor_keep {s0 s : State} {x1 x2} (h : Keep s0 s) : Keep s0 (State.userFactor s x1 x2) := by
  unfold State.userFactor
  repeat' first
    | with_reducible assumption
    | with_reducible apply Keep.setNat
    | (simp only [notLimit, R.monCvGainUser, R.monCvOfsUser] <;> omega)
    | split

theorem State.userFactors_keep {s0 s : State} {x1} (h : Keep s0 s) : Keep s0 (State.userFactors s x1) := by
  unfold State.userFactors
  repeat' first
    | with_reducible assumption
    | with_reducible apply State.userFactor_keep

theorem State.putAside_keep {s0 s : State} {x1 x2 x3} (h : Keep s0 s) : Keep s0 (State.putAside s x1 x2 x3) := by
  unfold State.putAside
  repeat' first
    | with_reducible assumption
    | with_reducible apply State.setConv_keep
    | with_reducible apply State.setConvState_keep
    | split

theorem State.goSelfcal_keep {s0 s : State} {x1} (h : Keep s0 s) : Keep s0 (State.goSelfcal s x1) := by
  unfold State.goSelfcal
  repeat' first
    | with_reducible assumption
    | with_reducible apply State.putAside_keep

theorem State.selfcalReq_keep {s0 s : State} {x1} (h : Keep s0 s) : Keep s0 (State.selfcalReq s x1) := by
  unfold State.selfcalReq
  repeat' first
    | with_reducible assumption
    | (dsimp only)
    | with_reducible apply Keep.setF
    | with_reducible apply State.goSelfcal_keep
    | (simp only [notLimit, R.monCvCmd] <;> omega)
    | split

theorem State.facFactor_keep {s0 s : State} {x1 x2} (h : Keep s0 s) : Keep s0 (State.facFactor s x1 x2) := by
  unfold State.facFactor
  repeat' first
    | with_reducible assumption
    | with_reducible apply Keep.setNat
    | (simp only [notLimit, R.monCvGainFac, R.monCvOfsFac] <;> omega)
    | split

theorem State.convCtrl_keep {s0 s : State} {x1 x2} (h : Keep s0 s) : Keep s0 (State.convCtrl s x1 x2) := by
  unfold State.convCtrl
  repeat' first
    | with_reducible assumption
    | (dsimp only)
    | (intro _ _ _)
    | with_reducible apply Keep.setF
    | with_reducible apply State.report_keep
    | with_reducible apply State.setConv_keep
    | with_reducible apply State.setConvState_keep
    | with_reducible apply Keep.foldl
    | (simp only [notLimit, R.monCvCtrl] <;> omega)
    | split

theorem State.convTrigger_keep {s0 s : State} {x1} (h : Keep s0 s) : Keep s0 (State.convTrigger s x1) := by
  unfold State.convTrigger
  repeat' first
    | with_reducible assumption
    | with_reducible apply Keep.raise
    | with_reducible apply State.startEntry_keep
    | with_reducible apply State.setConvState_keep
    | (simp only [notLimit, R.monCvChan, R.monStatus, R.monToaEvt, R.monTobEvt] <;> omega)
    | split

theorem State.resumeConv_keep {s0 s : State} {x1} (h : Keep s0 s) : Keep s0 (State.resumeConv s x1) := by
  unfold State.resumeConv
  repeat' first
    | with_reducible assumption
    | (dsimp only)
    | with_reducible apply State.setConv_keep
    | with_reducible apply State.setConvState_keep
    | split

theorem State.goUrgent_keep {s0 s : State} {x1} (h : Keep s0 s) : Keep s0 (State.goUrgent s x1) := by
  unfold State.goUrgent
  repeat' first
    | with_reducible assumption
    | with_reducible apply State.putAside_keep

theorem State.startXchk_keep {s0 s : State} (h : Keep s0 s) : Keep s0 (State.startXchk s) := by
  unfold State.startXchk
  repeat' first
    | with_reducible assumption
    | (dsimp only)
    | with_reducible apply State.putAside_keep
    | split
    | fail_if_no_progress (with_reducible refine Keep.hidden ?_ rfl rfl)

theorem State.pollXchk_keep {s0 s : State} (h : Keep s0 s) : Keep s0 (State.pollXchk s) := by
  unfold State.pollXchk
  repeat' first
    | with_reducible assumption
    | with_reducible apply State.startXchk_keep
    | split

theorem State.endTaken_keep {s0 s : State} {x1} (h : Keep s0 s) : Keep s0 (State.endTaken s x1) := by
  unfold State.endTaken
  repeat' first
    | with_reducible assumption
    | (dsimp only)
    | with_reducible apply State.resumeConv_keep
    | with_reducible apply State.goUrgent_keep
    | with_reducible apply State.goSelfcal_keep
    | with_reducible apply State.pollXchk_keep
    | split

theorem State.deliverResult_keep {s0 s : State} {x1 x2 x3} (h : Keep s0 s) : Keep s0 (State.deliverResult s x1 x2 x3) := by
  unfold State.deliverResult
  repeat' first
    | with_reducible assumption
    | (dsimp only)
    | with_reducible apply Keep.setF
    | with_reducible apply State.accumulate_keep
    | with_reducible apply State.afterResult_keep
    | with_reducible apply State.endTaken_keep
    | with_reducible apply State.compareXchk_keep
    | (simp only [notLimit, R.monCvCmd, R.monCvState] <;> omega)
    | split
    | fail_if_no_progress (with_reducible refine Keep.hidden ?_ rfl rfl)

theorem State.monRecal_keep {s0 s : State} (h : Keep s0 s) : Keep s0 (State.monRecal s) := by
  unfold State.monRecal
  repeat' first
    | with_reducible assumption
    | (intro _ _ _)
    | with_reducible apply State.selfcalReq_keep
    | with_reducible apply Keep.foldl
    | split

theorem State.crossCheckDue_keep {s0 s : State} (h : Keep s0 s) : Keep s0 (State.crossCheckDue s) := by
  unfold State.crossCheckDue
  repeat' first
    | with_reducible assumption
    | (dsimp only)
    | with_reducible apply State.startXchk_keep
    | split
    | fail_if_no_progress (with_reducible refine Keep.hidden ?_ rfl rfl)

theorem State.delayEnd_keep {s0 s : State} {x1} (h : Keep s0 s) : Keep s0 (State.delayEnd s x1) := by
  unfold State.delayEnd
  repeat' first
    | with_reducible assumption
    | (dsimp only)
    | with_reducible apply State.setConvState_keep
    | with_reducible apply State.setConv_keep
    | split

theorem State.urgentReq_keep {s0 s : State} {x1} (h : Keep s0 s) : Keep s0 (State.urgentReq s x1) := by
  unfold State.urgentReq
  repeat' first
    | with_reducible assumption
    | (dsimp only)
    | with_reducible apply Keep.setF
    | with_reducible apply State.goUrgent_keep
    | (simp only [notLimit, R.monCvCmd] <;> omega)
    | split

theorem State.snapshot_keep {s0 s : State} {x1 x2} (h : Keep s0 s) : Keep s0 (State.snapshot s x1 x2) := by
  unfold State.snapshot
  repeat' first
    | with_reducible assumption
    | (dsimp only)
    | with_reducible apply Keep.setF
    | with_reducible apply Keep.setNat
    | with_reducible apply State.setConv_keep
    | (simp only [notLimit, R.monSnapCount, R.monSnapMax, R.monSnapMin, R.monSnapSel, R.monSnapSumHi, R.monSnapSumLo] <;> omega)
    | split

theorem State.selfcalEnd_keep {s0 s : State} {x1 x2 x3} (h : Keep s0 s) : Keep s0 (State.selfcalEnd s x1 x2 x3) := by
  unfold State.selfcalEnd
  repeat' first
    | with_reducible assumption
    | with_reducible apply Keep.setF
    | with_reducible apply Keep.raise
    | with_reducible apply Keep.setNat
    | with_reducible apply State.report_keep
    | with_reducible apply State.endTaken_keep
    | (simp only [notLimit, R.monCalfEvt, R.monCvCmd, R.monCvGainSelf, R.monCvOfsSelf, R.monStatus] <;> omega)
    | split
    | fail_if_no_progress (with_reducible refine Keep.hidden ?_ rfl rfl)

theorem State.abandonBoot_keep {s0 s : State} (h : Keep s0 s) : Keep s0 (State.abandonBoot s) := by
  unfold State.abandonBoot
  repeat' first
    | with_reducible assumption
    | fail_if_no_progress (with_reducible refine Keep.hidden ?_ rfl rfl)

theorem State.setDomReq_keep {s0 s : State} {x1 x2} (h : Keep s0 s) : Keep s0 (State.setDomReq s x1 x2) := by
  unfold State.setDomReq
  repeat' first
    | with_reducible assumption
    | with_reducible apply Keep.setNat
    | (simp only [notLimit, R.pwrDomReq] <;> omega)

theorem State.syncPwr_keep {s0 s : State} (h : Keep s0 s) : Keep s0 (State.syncPwr s) := by
  unfold State.syncPwr
  repeat' first
    | with_reducible assumption
    | with_reducible apply Keep.setF
    | (simp only [notLimit, R.pwrState] <;> omega)

theorem State.setDomOn_keep {s0 s : State} {x1 x2} (h : Keep s0 s) : Keep s0 (State.setDomOn s x1 x2) := by
  unfold State.setDomOn
  repeat' first
    | with_reducible assumption
    | with_reducible apply Keep.setNat
    | (simp only [notLimit, R.pwrDomOn] <;> omega)

theorem State.tilesOff_keep {s0 s : State} {x1 x2} (h : Keep s0 s) : Keep s0 (State.tilesOff s x1 x2) := by
  unfold State.tilesOff
  repeat' first
    | with_reducible assumption
    | (intro _ _ _)
    | with_reducible apply State.setIssue_keep
    | with_reducible apply State.setTileState_keep
    | with_reducible apply Keep.foldl
    | fail_if_no_progress (with_reducible refine Keep.hidden ?_ rfl rfl)

theorem State.sramOff_keep {s0 s : State} {x1} (h : Keep s0 s) : Keep s0 (State.sramOff s x1) := by
  unfold State.sramOff
  repeat' first
    | with_reducible assumption
    | fail_if_no_progress (with_reducible refine Keep.hidden ?_ rfl rfl)

theorem State.dispatcherOff_keep {s0 s : State} (h : Keep s0 s) : Keep s0 (State.dispatcherOff s) := by
  unfold State.dispatcherOff
  repeat' first
    | with_reducible assumption
    | fail_if_no_progress (with_reducible refine Keep.hidden ?_ rfl rfl)

theorem State.domOff_keep {s0 s : State} {x1} (h : Keep s0 s) : Keep s0 (State.domOff s x1) := by
  unfold State.domOff
  repeat' first
    | with_reducible assumption
    | with_reducible apply State.setDomOn_keep
    | with_reducible apply State.tilesOff_keep
    | with_reducible apply State.sramOff_keep
    | with_reducible apply State.detach_keep
    | with_reducible apply State.setPortState_keep
    | with_reducible apply State.enterTrain_keep
    | with_reducible apply State.convBOff_keep
    | with_reducible apply State.losePower_keep
    | with_reducible apply State.dispatcherOff_keep
    | split
    | fail_if_no_progress (with_reducible refine Keep.hidden ?_ rfl rfl)

theorem State.gateNow_keep {s0 s : State} {x1} (h : Keep s0 s) : Keep s0 (State.gateNow s x1) := by
  unfold State.gateNow
  repeat' first
    | with_reducible assumption
    | with_reducible apply State.syncPwr_keep
    | with_reducible apply State.domOff_keep
    | fail_if_no_progress (with_reducible refine Keep.hidden ?_ rfl rfl)

theorem State.gateAll_keep {s0 s : State} {x1} (h : Keep s0 s) : Keep s0 (State.gateAll s x1) := by
  unfold State.gateAll
  repeat' first
    | with_reducible assumption
    | (dsimp only)
    | (intro _ _ _)
    | with_reducible apply State.setDomReq_keep
    | with_reducible apply State.gateNow_keep
    | with_reducible apply Keep.foldl
    | split

theorem State.setPwrState_keep {s0 s : State} {x1} (h : Keep s0 s) : Keep s0 (State.setPwrState s x1) := by
  unfold State.setPwrState
  repeat' first
    | with_reducible assumption
    | with_reducible apply Keep.setF
    | (simp only [notLimit, R.pwrState] <;> omega)

theorem State.stacksLost_keep {s0 s : State} (h : Keep s0 s) : Keep s0 (State.stacksLost s) := by
  unfold State.stacksLost
  repeat' first
    | with_reducible assumption
    | with_reducible apply Keep.setF
    | (simp only [notLimit, R.stkCtrl] <;> omega)
    | fail_if_no_progress (with_reducible refine Keep.hidden ?_ rfl rfl)

theorem State.releaseFault_keep {s0 s : State} (h : Keep s0 s) : Keep s0 (State.releaseFault s) := by
  unfold State.releaseFault
  repeat' first
    | with_reducible assumption
    | with_reducible apply State.emit_keep
    | split
    | fail_if_no_progress (with_reducible refine Keep.hidden ?_ rfl rfl)

theorem State.applyLevel_keep {s0 s : State} (h : Keep s0 s) : Keep s0 (State.applyLevel s) := by
  unfold State.applyLevel
  repeat' first
    | with_reducible assumption
    | (dsimp only)
    | with_reducible apply Keep.setF
    | with_reducible apply Keep.raise
    | (simp only [notLimit, R.thmL2Evt, R.thmLevel, R.thmStatus, R.thmThrEvt] <;> omega)
    | split

theorem State.assertFault_keep {s0 s : State} (h : Keep s0 s) : Keep s0 (State.assertFault s) := by
  unfold State.assertFault
  repeat' first
    | with_reducible assumption
    | with_reducible apply State.emit_keep
    | split
    | fail_if_no_progress (with_reducible refine Keep.hidden ?_ rfl rfl)

theorem State.startRamp_keep {s0 s : State} {x1} (h : Keep s0 s) : Keep s0 (State.startRamp s x1) := by
  unfold State.startRamp
  repeat' first
    | with_reducible assumption
    | with_reducible apply State.syncPwr_keep
    | fail_if_no_progress (with_reducible refine Keep.hidden ?_ rfl rfl)

theorem State.endDrr_keep {s0 s : State} (h : Keep s0 s) : Keep s0 (State.endDrr s) := by
  unfold State.endDrr
  repeat' first
    | with_reducible assumption
    | with_reducible apply Keep.raise
    | with_reducible apply State.releaseFault_keep
    | with_reducible apply State.report_keep
    | (simp only [notLimit, R.fltHdrrEvt, R.fltHostStatus] <;> omega)
    | split
    | fail_if_no_progress (with_reducible refine Keep.hidden ?_ rfl rfl)

theorem State.bootDone_keep {s0 s : State} {x1} (h : Keep s0 s) : Keep s0 (State.bootDone s x1) := by
  unfold State.bootDone
  repeat' first
    | with_reducible assumption
    | with_reducible apply Keep.setF
    | with_reducible apply State.endDrr_keep
    | (simp only [notLimit, R.idBoot] <;> omega)
    | fail_if_no_progress (with_reducible refine Keep.hidden ?_ rfl rfl)

theorem State.lineReady_keep {s0 s : State} (h : Keep s0 s) : Keep s0 (State.lineReady s) := by
  unfold State.lineReady
  repeat' first
    | with_reducible assumption
    | with_reducible apply State.bootDone_keep
    | with_reducible apply State.writeCache_keep
    | split
    | fail_if_no_progress (with_reducible refine Keep.hidden ?_ rfl rfl)

theorem State.setThermal_keep {s0 s : State} {x1} (h : Keep s0 s) : Keep s0 (State.setThermal s x1) := by
  unfold State.setThermal
  repeat' first
    | with_reducible assumption
    | (dsimp only)
    | with_reducible apply State.applyLevel_keep
    | with_reducible apply State.report_keep
    | split
    | fail_if_no_progress (with_reducible refine Keep.hidden ?_ rfl rfl)

theorem State.makeStep_keep {s0 s : State} {x1} (h : Keep s0 s) : Keep s0 (State.makeStep s x1) := by
  unfold State.makeStep
  repeat' first
    | with_reducible assumption
    | (dsimp only)
    | with_reducible apply Keep.setF
    | with_reducible apply State.startRamp_keep
    | with_reducible apply State.gateNow_keep
    | with_reducible apply State.lineReady_keep
    | with_reducible apply State.setThermal_keep
    | with_reducible apply State.applyLevel_keep
    | (simp only [notLimit, R.dspCtrl, R.thmLevel] <;> omega)
    | split

theorem State.tryReq_keep {s0 s : State} (h : Keep s0 s) : Keep s0 (State.tryReq s) := by
  unfold State.tryReq
  repeat' first
    | with_reducible assumption
    | with_reducible apply State.emit_keep
    | split
    | fail_if_no_progress (with_reducible refine Keep.hidden ?_ rfl rfl)

theorem State.planStep_keep {s0 s : State} {x1} (h : Keep s0 s) : Keep s0 (State.planStep s x1) := by
  unfold State.planStep
  repeat' first
    | with_reducible assumption
    | with_reducible apply State.tryReq_keep
    | split
    | fail_if_no_progress (with_reducible refine Keep.hidden ?_ rfl rfl)

theorem State.doStep_keep {s0 s : State} {x1} (h : Keep s0 s) : Keep s0 (State.doStep s x1) := by
  unfold State.doStep
  repeat' first
    | with_reducible assumption
    | with_reducible apply State.planStep_keep
    | with_reducible apply State.makeStep_keep
    | split


theorem State.tilesOn_keep {s0 s : State} {x1} (h : Keep s0 s) : Keep s0 (State.tilesOn s x1) := by
  unfold State.tilesOn
  repeat' first
    | with_reducible assumption
    | (intro _ _ _)
    | with_reducible apply Keep.setF
    | with_reducible apply Keep.foldl
    | (simp only [notLimit, R.tilCtrl, R.tilState, R.tilSummary, R.tilThresh] <;> omega)

theorem State.domWake_keep {s0 s : State} {x1} (h : Keep s0 s) : Keep s0 (State.domWake s x1) := by
  unfold State.domWake
  repeat' first
    | with_reducible assumption
    | with_reducible apply State.setDomOn_keep
    | with_reducible apply Keep.resetDomRegs
    | with_reducible apply State.tilesOn_keep
    | split

theorem State.rampEnd_keep {s0 s : State} {x1} (h : Keep s0 s) : Keep s0 (State.rampEnd s x1) := by
  unfold State.rampEnd
  repeat' first
    | with_reducible assumption
    | (dsimp only)
    | with_reducible apply State.syncPwr_keep
    | with_reducible apply State.domWake_keep
    | with_reducible apply State.gateNow_keep
    | split
    | fail_if_no_progress (with_reducible refine Keep.hidden ?_ rfl rfl)

theorem State.wakeReq_keep {s0 s : State} {x1} (h : Keep s0 s) : Keep s0 (State.wakeReq s x1) := by
  unfold State.wakeReq
  repeat' first
    | with_reducible assumption
    | (dsimp only)
    | with_reducible apply State.setDomReq_keep
    | with_reducible apply State.syncPwr_keep
    | split
    | fail_if_no_progress (with_reducible refine Keep.hidden ?_ rfl rfl)

theorem State.orderlyStop_keep {s0 s : State} {x1} (h : Keep s0 s) : Keep s0 (State.orderlyStop s x1) := by
  unfold State.orderlyStop
  repeat' first
    | with_reducible assumption
    | with_reducible apply Keep.setF
    | with_reducible apply Keep.raise
    | with_reducible apply State.assertFault_keep
    | with_reducible apply State.abandonBoot_keep
    | with_reducible apply State.applyLevel_keep
    | with_reducible apply State.report_keep
    | (simp only [notLimit, R.thmLevel, R.thmStatus, R.thmStopEvt] <;> omega)
    | split
    | fail_if_no_progress (with_reducible refine Keep.hidden ?_ rfl rfl)

theorem State.sense_keep {s0 s : State} {x1 x2} (h : Keep s0 s) : Keep s0 (State.sense s x1 x2) := by
  unfold State.sense
  repeat' first
    | with_reducible assumption
    | (dsimp only)
    | with_reducible apply Keep.setF
    | with_reducible apply Keep.raise
    | with_reducible apply State.report_keep
    | (simp only [notLimit, R.thmSenfEvt, R.thmStatus, R.thmTemp] <;> omega)
    | split
    | fail_if_no_progress (with_reducible refine Keep.hidden ?_ rfl rfl)

theorem State.throttle_keep {s0 s : State} {x1} (h : Keep s0 s) : Keep s0 (State.throttle s x1) := by
  unfold State.throttle
  repeat' first
    | with_reducible assumption
    | with_reducible apply State.setThermal_keep
    | split
    | fail_if_no_progress (with_reducible refine Keep.hidden ?_ rfl rfl)

theorem State.slewCheck_keep {s0 s : State} (h : Keep s0 s) : Keep s0 (State.slewCheck s) := by
  unfold State.slewCheck
  repeat' first
    | with_reducible assumption
    | split
    | fail_if_no_progress (with_reducible refine Keep.hidden ?_ rfl rfl)

theorem State.warnTemp_keep {s0 s : State} (h : Keep s0 s) : Keep s0 (State.warnTemp s) := by
  unfold State.warnTemp
  repeat' first
    | with_reducible assumption
    | with_reducible apply State.report_keep
    | with_reducible apply State.resumeProgs_keep
    | split
    | fail_if_no_progress (with_reducible refine Keep.hidden ?_ rfl rfl)

theorem State.convertTemps_keep {s0 s : State} {x1} (h : Keep s0 s) : Keep s0 (State.convertTemps s x1) := by
  unfold State.convertTemps
  repeat' first
    | with_reducible assumption
    | (intro _ _)
    | with_reducible apply Keep.setF
    | with_reducible apply State.sense_keep
    | with_reducible apply State.throttle_keep
    | with_reducible apply State.orderlyStop_keep
    | with_reducible apply State.monRecal_keep
    | with_reducible apply State.slewCheck_keep
    | with_reducible apply State.warnTemp_keep
    | with_reducible apply Keep.foldl
    | (simp only [notLimit, R.thmMax] <;> omega)
    | split

theorem State.gateReq_keep {s0 s : State} {x1} (h : Keep s0 s) : Keep s0 (State.gateReq s x1) := by
  unfold State.gateReq
  repeat' first
    | with_reducible assumption
    | (dsimp only)
    | with_reducible apply State.setDomReq_keep
    | with_reducible apply State.syncPwr_keep
    | with_reducible apply State.planStep_keep
    | with_reducible apply State.gateNow_keep
    | split
    | fail_if_no_progress (with_reducible refine Keep.hidden ?_ rfl rfl)

theorem State.hardTrip_keep {s0 s : State} {x1 x2} (h : Keep s0 s) : Keep s0 (State.hardTrip s x1 x2) := by
  unfold State.hardTrip
  repeat' first
    | with_reducible assumption
    | with_reducible apply Keep.setF
    | with_reducible apply State.assertFault_keep
    | with_reducible apply State.emit_keep
    | with_reducible apply State.abandonBoot_keep
    | with_reducible apply State.enterSafe_keep
    | with_reducible apply State.stacksLost_keep
    | with_reducible apply State.gateAll_keep
    | with_reducible apply State.setPwrState_keep
    | (simp only [notLimit, R.thmLevel, R.thmTripCause] <;> omega)
    | fail_if_no_progress (with_reducible refine Keep.hidden ?_ rfl rfl)

theorem State.makeSteps_keep {s0 s : State} (h : Keep s0 s) : Keep s0 (State.makeSteps s) := by
  unfold State.makeSteps
  repeat' first
    | with_reducible assumption
    | with_reducible apply State.makeStep_keep
    | with_reducible apply Keep.foldl
    | fail_if_no_progress (with_reducible refine Keep.hidden ?_ rfl rfl)

theorem State.loadAck_keep {s0 s : State} (h : Keep s0 s) : Keep s0 (State.loadAck s) := by
  unfold State.loadAck
  repeat' first
    | with_reducible assumption
    | (dsimp only)
    | with_reducible apply State.makeSteps_keep
    | split
    | fail_if_no_progress (with_reducible refine Keep.hidden ?_ rfl rfl)

theorem State.loadNack_keep {s0 s : State} (h : Keep s0 s) : Keep s0 (State.loadNack s) := by
  unfold State.loadNack
  repeat' first
    | with_reducible assumption
    | with_reducible apply State.tryReq_keep
    | fail_if_no_progress (with_reducible refine Keep.hidden ?_ rfl rfl)

theorem State.loadReqEnd_keep {s0 s : State} (h : Keep s0 s) : Keep s0 (State.loadReqEnd s) := by
  unfold State.loadReqEnd
  repeat' first
    | with_reducible assumption
    | with_reducible apply State.tryReq_keep
    | with_reducible apply State.emit_keep
    | split
    | fail_if_no_progress (with_reducible refine Keep.hidden ?_ rfl rfl)

theorem State.loadTimeout_keep {s0 s : State} (h : Keep s0 s) : Keep s0 (State.loadTimeout s) := by
  unfold State.loadTimeout
  repeat' first
    | with_reducible assumption
    | with_reducible apply Keep.raise
    | with_reducible apply State.makeSteps_keep
    | with_reducible apply State.report_keep
    | (simp only [notLimit, R.pwrLoadstep, R.pwrNoackEvt, R.pwrStatus] <;> omega)
    | split
    | fail_if_no_progress (with_reducible refine Keep.hidden ?_ rfl rfl)

theorem State.powerEnd_keep {s0 s : State} (h : Keep s0 s) : Keep s0 (State.powerEnd s) := by
  unfold State.powerEnd
  repeat' first
    | with_reducible assumption
    | with_reducible apply State.doStep_keep
    | with_reducible apply State.makeStep_keep
    | split

theorem State.powerMean_keep {s0 s : State} {x1} (h : Keep s0 s) : Keep s0 (State.powerMean s x1) := by
  unfold State.powerMean
  repeat' first
    | with_reducible assumption
    | (dsimp only)
    | with_reducible apply Keep.setF
    | with_reducible apply Keep.raise
    | with_reducible apply State.applyLevel_keep
    | with_reducible apply State.report_keep
    | (simp only [notLimit, R.pwrEst, R.pwrLimit, R.pwrPlimEvt, R.pwrStatus, R.thmLevel] <;> omega)
    | split
    | fail_if_no_progress (with_reducible refine Keep.hidden ?_ rfl rfl)

theorem State.rampFail_keep {s0 s : State} {x1} (h : Keep s0 s) : Keep s0 ((State.rampFail s x1).1) := by
  unfold State.rampFail
  repeat' first
    | with_reducible assumption
    | with_reducible apply Keep.raise
    | with_reducible apply State.syncPwr_keep
    | with_reducible apply State.domOff_keep
    | with_reducible apply State.report_keep
    | (simp only [notLimit, R.pwrDomfEvt, R.pwrStatus] <;> omega)
    | split

theorem State.slewBack_keep {s0 s : State} (h : Keep s0 s) : Keep s0 (State.slewBack s) := by
  unfold State.slewBack
  repeat' first
    | with_reducible assumption
    | split
    | fail_if_no_progress (with_reducible refine Keep.hidden ?_ rfl rfl)

theorem State.throttleDown_keep {s0 s : State} (h : Keep s0 s) : Keep s0 (State.throttleDown s) := by
  unfold State.throttleDown
  repeat' first
    | with_reducible assumption
    | with_reducible apply State.setThermal_keep
    | with_reducible apply State.makeStep_keep
    | with_reducible apply State.doStep_keep
    | split

theorem State.throttleUp_keep {s0 s : State} (h : Keep s0 s) : Keep s0 (State.throttleUp s) := by
  unfold State.throttleUp
  repeat' first
    | with_reducible assumption
    | with_reducible apply State.setThermal_keep
    | split

theorem State.wakeStart_keep {s0 s : State} (h : Keep s0 s) : Keep s0 (State.wakeStart s) := by
  unfold State.wakeStart
  repeat' first
    | with_reducible assumption
    | (dsimp only)
    | with_reducible apply Keep.raise
    | with_reducible apply State.planStep_keep
    | with_reducible apply State.startRamp_keep
    | (simp only [notLimit, R.pwrInrEvt, R.pwrInrushBudget, R.pwrStatus] <;> omega)
    | split

end Sys2Proof.Machine
end

