-- ==== Sys2Proof/Laws/KeepCores.lean ====
section
/-! SUPPORT. `Keep` for the commands of the tiles, the recovery ladder, the store, the fabric, the dispatcher and the Stacks: every function of these modules keeps what `Keep` names. -/

set_option linter.all false

namespace Sys2Proof.Machine

theorem State.epochMaxOver_keep {s0 s : State} {x1 x2} (h : Keep s0 s) : Keep s0 (State.epochMaxOver s x1 x2) := by
  unfold State.epochMaxOver
  repeat' first
    | with_reducible assumption
    | (dsimp only)
    | with_reducible apply State.commit_keep
    | with_reducible apply State.setTile_keep
    | split

theorem State.epochMinOver_keep {s0 s : State} {x1 x2} (h : Keep s0 s) : Keep s0 (State.epochMinOver s x1 x2) := by
  unfold State.epochMinOver
  repeat' first
    | with_reducible assumption
    | (dsimp only)
    | with_reducible apply State.commitVread_keep
    | with_reducible apply State.setTile_keep
    | with_reducible apply State.commit_keep
    | split

theorem State.testStart_keep {s0 s : State} {x1 x2} (h : Keep s0 s) : Keep s0 (State.testStart s x1 x2) := by
  unfold State.testStart
  repeat' first
    | with_reducible assumption
    | (dsimp only)
    | with_reducible apply Keep.setF
    | with_reducible apply State.report_keep
    | (simp only [notLimit, R.tilCtrl, R.tilTestCtrl] <;> omega)
    | split

theorem State.shadowWrite_keep {s0 s : State} {x1 x2} (h : Keep s0 s) : Keep s0 (State.shadowWrite s x1 x2) := by
  unfold State.shadowWrite
  repeat' first
    | with_reducible assumption
    | (dsimp only)
    | with_reducible apply Keep.raise
    | with_reducible apply State.setTile_keep
    | (simp only [notLimit, R.calBankEvt, R.calShbEvt, R.calStatus, R.calTrimSel] <;> omega)
    | split

theorem State.tilCtrlWrite_keep {s0 s : State} {x1 x2 x3} (h : Keep s0 s) : Keep s0 (State.tilCtrlWrite s x1 x2 x3) := by
  unfold State.tilCtrlWrite
  repeat' first
    | with_reducible assumption
    | with_reducible apply Keep.setF
    | with_reducible apply Keep.raise
    | with_reducible apply State.report_keep
    | with_reducible apply State.syncStep_keep
    | (simp only [notLimit, R.tilCfgEvt, R.tilCtrl, R.tilStatus] <;> omega)
    | split

theorem State.feedForward_keep {s0 s : State} {x1} (h : Keep s0 s) : Keep s0 (State.feedForward s x1) := by
  unfold State.feedForward
  repeat' first
    | with_reducible assumption
    | (intro _ _ _)
    | with_reducible apply State.commitVread_keep
    | with_reducible apply Keep.foldl
    | split

theorem State.stepRise_keep {s0 s : State} {x1 x2} (h : Keep s0 s) : Keep s0 (State.stepRise s x1 x2) := by
  unfold State.stepRise
  repeat' first
    | with_reducible assumption
    | (dsimp only)
    | with_reducible apply Keep.setF
    | with_reducible apply State.syncStep_keep
    | (simp only [notLimit, R.tilRange] <;> omega)
    | split

theorem State.testDone_keep {s0 s : State} {x1 x2} (h : Keep s0 s) : Keep s0 (State.testDone s x1 x2) := by
  unfold State.testDone
  repeat' first
    | with_reducible assumption
    | (dsimp only)
    | with_reducible apply Keep.setNat
    | with_reducible apply Keep.setF
    | (simp only [notLimit, R.tilTestCount, R.tilTestCtrl, R.tilTestSsqHi, R.tilTestSsqLo, R.tilTestSum] <;> omega)
    | split

theorem State.baseSet_keep {s0 s : State} {x1 x2} (h : Keep s0 s) : Keep s0 ((State.baseSet s x1 x2).2) := by
  unfold State.baseSet
  repeat' first
    | with_reducible assumption
    | (dsimp only)
    | split
    | fail_if_no_progress (with_reducible refine Keep.hidden ?_ rfl rfl)

theorem State.calibBad_keep {s0 s : State} {x1 x2 x3} (h : Keep s0 s) : Keep s0 (State.calibBad s x1 x2 x3) := by
  unfold State.calibBad
  repeat' first
    | with_reducible assumption
    | (dsimp only)
    | with_reducible apply State.report_keep
    | with_reducible apply State.progFailed_keep
    | with_reducible apply State.modelErr_keep
    | with_reducible apply State.setTileState_keep
    | with_reducible apply State.startStandIns_keep
    | with_reducible apply State.retireTile_keep
    | split

theorem State.calibDone_keep {s0 s : State} {x1 x2 x3} (h : Keep s0 s) : Keep s0 (State.calibDone s x1 x2 x3) := by
  unfold State.calibDone
  repeat' first
    | (extract_lets)
    | with_reducible assumption
    | with_reducible apply Keep.count
    | with_reducible apply Keep.setF
    | with_reducible apply State.baseSet_keep
    | with_reducible apply State.setTile_keep
    | with_reducible apply State.restartPips_keep
    | with_reducible apply State.syncStep_keep
    | with_reducible apply State.setTileState_keep
    | with_reducible apply State.writeFid_keep
    | with_reducible apply State.report_keep
    | with_reducible apply State.clampTrim_keep
    | with_reducible apply State.setIssue_keep
    | with_reducible apply State.jobCalibrated_keep
    | split
    | (with_reducible refine pair_r ‹State.baseSet _ _ _ = _› ?_)
    | with_reducible apply Keep.ite'
    | (intro _)
    | (show notLimit (R.calEpoch ..); simp only [notLimit, R.calEpoch]; omega)
    | (show notLimit (R.calTileInfo ..); simp only [notLimit, R.calTileInfo]; omega)
    | (show notLimit (R.tilRange ..); simp only [notLimit, R.tilRange]; omega)

theorem State.tileCalibrated_keep {s0 s : State} {x1 x2 x3} (h : Keep s0 s) : Keep s0 (State.tileCalibrated s x1 x2 x3) := by
  unfold State.tileCalibrated
  repeat' first
    | with_reducible assumption
    | (dsimp only)
    | with_reducible apply State.calibBad_keep
    | with_reducible apply State.calibDone_keep
    | split

theorem State.setCoreState_keep {s0 s : State} {x1 x2} (h : Keep s0 s) : Keep s0 (State.setCoreState s x1 x2) := by
  unfold State.setCoreState
  repeat' first
    | with_reducible assumption
    | with_reducible apply Keep.setF
    | (simp only [notLimit, R.fltCoreState] <;> omega)

theorem State.setLadder_keep {s0 s : State} {x1 x2} (h : Keep s0 s) : Keep s0 (State.setLadder s x1 x2) := by
  unfold State.setLadder
  repeat' first
    | with_reducible assumption
    | fail_if_no_progress (with_reducible refine Keep.hidden ?_ rfl rfl)

theorem State.dropLadders_keep {s0 s : State} (h : Keep s0 s) : Keep s0 (State.dropLadders s) := by
  unfold State.dropLadders
  repeat' first
    | with_reducible assumption
    | (intro _ _ _)
    | with_reducible apply State.setCoreState_keep
    | with_reducible apply State.setLadder_keep
    | with_reducible apply Keep.foldl
    | split

theorem State.formEntries_keep {s0 s : State} (h : Keep s0 s) : Keep s0 (State.formEntries s) := by
  unfold State.formEntries
  repeat' first
    | with_reducible assumption
    | (intro _ _)
    | with_reducible apply State.addEntry_keep
    | with_reducible apply Keep.foldl
    | fail_if_no_progress (with_reducible refine Keep.hidden ?_ rfl rfl)

theorem State.takeDump_keep {s0 s : State} {x1 x2 x3} (h : Keep s0 s) : Keep s0 ((State.takeDump s x1 x2 x3).1) := by
  unfold State.takeDump
  repeat' first
    | with_reducible assumption
    | fail_if_no_progress (with_reducible refine Keep.hidden ?_ rfl rfl)

theorem State.loseTokens_keep {s0 s : State} {x1} (h : Keep s0 s) : Keep s0 (State.loseTokens s x1) := by
  unfold State.loseTokens
  repeat' first
    | with_reducible assumption
    | (intro _ _ _)
    | with_reducible apply State.settle_keep
    | with_reducible apply State.cancelToken_keep
    | with_reducible apply State.markToken_keep
    | with_reducible apply Keep.foldl

theorem State.fenceWork_keep {s0 s : State} {x1 x2} (h : Keep s0 s) : Keep s0 (State.fenceWork s x1 x2) := by
  unfold State.fenceWork
  repeat' first
    | with_reducible assumption
    | with_reducible apply State.loseTokens_keep
    | split
    | fail_if_no_progress (with_reducible refine Keep.hidden ?_ rfl rfl)

theorem State.modSlot_keep {s0 s : State} {x1 x2} (h : Keep s0 s) : Keep s0 (State.modSlot s x1 x2) := by
  unfold State.modSlot
  repeat' first
    | with_reducible assumption
    | fail_if_no_progress (with_reducible refine Keep.hidden ?_ rfl rfl)

theorem State.climbSlots_keep {s0 s : State} {x1 x2 x3} (h : Keep s0 s) : Keep s0 (State.climbSlots s x1 x2 x3) := by
  unfold State.climbSlots
  repeat' first
    | with_reducible assumption
    | (intro _ _)
    | with_reducible apply State.modSlot_keep
    | with_reducible apply Keep.foldl

theorem State.fenceTiles_keep {s0 s : State} {x1} (h : Keep s0 s) : Keep s0 (State.fenceTiles s x1) := by
  unfold State.fenceTiles
  repeat' first
    | with_reducible assumption
    | (intro _ _)
    | with_reducible apply State.dropLostCopies_keep
    | with_reducible apply State.setTileState_keep
    | with_reducible apply Keep.foldl

theorem State.rung3_keep {s0 s : State} {x1 x2} (h : Keep s0 s) : Keep s0 (State.rung3 s x1 x2) := by
  unfold State.rung3
  repeat' first
    | with_reducible assumption
    | with_reducible apply Keep.raise
    | with_reducible apply State.setCoreState_keep
    | with_reducible apply State.climbSlots_keep
    | with_reducible apply State.report_keep
    | with_reducible apply State.fenceTiles_keep
    | with_reducible apply State.loseTokens_keep
    | with_reducible apply State.setLadder_keep
    | with_reducible apply State.setDomReq_keep
    | with_reducible apply State.abandonJobs_keep
    | with_reducible apply State.repairCore_keep
    | (simp only [notLimit, R.fltCfenEvt, R.fltHfenEvt, R.fltHostStatus, R.fltStatus] <;> omega)
    | split

theorem State.dropRuns_keep {s0 s : State} {x1} (h : Keep s0 s) : Keep s0 (State.dropRuns s x1) := by
  unfold State.dropRuns
  repeat' first
    | with_reducible assumption
    | (intro _ _)
    | with_reducible apply State.countOut_keep
    | with_reducible apply Keep.foldl
    | fail_if_no_progress (with_reducible refine Keep.hidden ?_ rfl rfl)

theorem State.rung2_keep {s0 s : State} {x1} (h : Keep s0 s) : Keep s0 (State.rung2 s x1) := by
  unfold State.rung2
  repeat' first
    | with_reducible assumption
    | (dsimp only)
    | with_reducible apply Keep.raise
    | with_reducible apply State.rung3_keep
    | with_reducible apply State.setCoreState_keep
    | with_reducible apply State.climbSlots_keep
    | with_reducible apply State.report_keep
    | with_reducible apply State.fenceTiles_keep
    | with_reducible apply State.loseTokens_keep
    | with_reducible apply State.dropRuns_keep
    | with_reducible apply State.setLadder_keep
    | with_reducible apply State.gateNow_keep
    | (simp only [notLimit, R.fltCycEvt, R.fltStatus] <;> omega)
    | split

theorem State.rung1_keep {s0 s : State} {x1 x2 x3 x4 x5} (h : Keep s0 s) : Keep s0 (State.rung1 s x1 x2 x3 x4 x5) := by
  unfold State.rung1
  repeat' first
    | with_reducible assumption
    | (dsimp only)
    | with_reducible apply Keep.raise
    | with_reducible apply State.takeDump_keep
    | with_reducible apply State.setLadder_keep
    | with_reducible apply State.setCoreState_keep
    | with_reducible apply State.report_keep
    | with_reducible apply State.fenceWork_keep
    | with_reducible apply State.rung2_keep
    | (simp only [notLimit, R.fltEngEvt, R.fltStatus] <;> omega)
    | split

theorem State.timeOut_keep {s0 s : State} {x1 x2 x3} (h : Keep s0 s) : Keep s0 (State.timeOut s x1 x2 x3) := by
  unfold State.timeOut
  repeat' first
    | with_reducible assumption
    | with_reducible apply Keep.count
    | with_reducible apply Keep.raise
    | with_reducible apply State.markToken_keep
    | with_reducible apply State.settle_keep
    | with_reducible apply State.cancelToken_keep
    | with_reducible apply State.report_keep
    | with_reducible apply State.rung1_keep
    | (simp only [notLimit, R.dspCxTimeouts, R.dspStatus, R.dspTmoEvt] <;> omega)
    | split

theorem State.syncClosed_keep {s0 s : State} (h : Keep s0 s) : Keep s0 (State.syncClosed s) := by
  unfold State.syncClosed
  repeat' first
    | with_reducible assumption
    | with_reducible apply Keep.setF
    | (simp only [notLimit, R.fltRecCtrl] <;> omega)

theorem State.putClosed_keep {s0 s : State} {x1} (h : Keep s0 s) : Keep s0 (State.putClosed s x1) := by
  unfold State.putClosed
  repeat' first
    | with_reducible assumption
    | (dsimp only)
    | with_reducible apply State.syncClosed_keep
    | with_reducible apply State.addEntry_keep
    | split
    | fail_if_no_progress (with_reducible refine Keep.hidden ?_ rfl rfl)

theorem State.closeRecord_keep {s0 s : State} (h : Keep s0 s) : Keep s0 (State.closeRecord s) := by
  unfold State.closeRecord
  repeat' first
    | with_reducible assumption
    | (dsimp only)
    | with_reducible apply State.putClosed_keep
    | with_reducible apply State.syncOpen_keep
    | split
    | fail_if_no_progress (with_reducible refine Keep.hidden ?_ rfl rfl)

theorem State.startReset_keep {s0 s : State} {x1 x2} (h : Keep s0 s) : Keep s0 (State.startReset s x1 x2) := by
  unfold State.startReset
  repeat' first
    | with_reducible assumption
    | with_reducible apply State.setLadder_keep

theorem State.copySample_keep {s0 s : State} {x1 x2} (h : Keep s0 s) : Keep s0 (State.copySample s x1 x2) := by
  unfold State.copySample
  repeat' first
    | with_reducible assumption
    | with_reducible apply Keep.raise
    | with_reducible apply State.modSlot_keep
    | (simp only [notLimit, R.fltHdmpEvt, R.fltHostStatus] <;> omega)
    | fail_if_no_progress (with_reducible refine Keep.hidden ?_ rfl rfl)

theorem State.copyEnd_keep {s0 s : State} {x1 x2} (h : Keep s0 s) : Keep s0 (State.copyEnd s x1 x2) := by
  unfold State.copyEnd
  repeat' first
    | with_reducible assumption
    | with_reducible apply State.startReset_keep
    | with_reducible apply State.copySample_keep
    | split

theorem State.copyTimeout_keep {s0 s : State} {x1 x2} (h : Keep s0 s) : Keep s0 (State.copyTimeout s x1 x2) := by
  unfold State.copyTimeout
  repeat' first
    | with_reducible assumption
    | with_reducible apply State.startReset_keep
    | with_reducible apply State.modSlot_keep
    | split

theorem State.ctxFaulted_keep {s0 s : State} {x1} (h : Keep s0 s) : Keep s0 (State.ctxFaulted s x1) := by
  unfold State.ctxFaulted
  repeat' first
    | with_reducible assumption
    | (intro _ _)
    | with_reducible apply Keep.setF
    | with_reducible apply Keep.raise
    | with_reducible apply State.report_keep
    | with_reducible apply State.rung1_keep
    | with_reducible apply Keep.foldl
    | (simp only [notLimit, R.dspCxCtrl, R.dspCxState, R.dspStatus, R.dspTdfEvt] <;> omega)

theorem State.dropReqs_keep {s0 s : State} {x1} (h : Keep s0 s) : Keep s0 (State.dropReqs s x1) := by
  unfold State.dropReqs
  repeat' first
    | with_reducible assumption
    | (intro _ _)
    | with_reducible apply State.countOut_keep
    | with_reducible apply Keep.foldl
    | fail_if_no_progress (with_reducible refine Keep.hidden ?_ rfl rfl)

theorem State.faultSummary_keep {s0 s : State} {x1} (h : Keep s0 s) : Keep s0 (State.faultSummary s x1) := by
  unfold State.faultSummary
  repeat' first
    | with_reducible assumption
    | with_reducible apply State.enqueue_keep
    | fail_if_no_progress (with_reducible refine Keep.hidden ?_ rfl rfl)

theorem State.popRecord_keep {s0 s : State} (h : Keep s0 s) : Keep s0 (State.popRecord s) := by
  unfold State.popRecord
  repeat' first
    | with_reducible assumption
    | with_reducible apply State.syncClosed_keep
    | fail_if_no_progress (with_reducible refine Keep.hidden ?_ rfl rfl)

theorem State.fenceDone_keep {s0 s : State} {x1} (h : Keep s0 s) : Keep s0 (State.fenceDone s x1) := by
  unfold State.fenceDone
  repeat' first
    | with_reducible assumption
    | with_reducible apply State.setLadder_keep
    | with_reducible apply State.dropReqs_keep
    | with_reducible apply State.dropRuns_keep
    | with_reducible apply State.gateNow_keep
    | split

theorem State.resetDone_keep {s0 s : State} {x1 x2} (h : Keep s0 s) : Keep s0 (State.resetDone s x1 x2) := by
  unfold State.resetDone
  repeat' first
    | with_reducible assumption
    | (dsimp only)
    | with_reducible apply State.setLadder_keep
    | with_reducible apply State.setCoreState_keep
    | with_reducible apply State.report_keep
    | split

theorem State.resetTimeout_keep {s0 s : State} {x1 x2} (h : Keep s0 s) : Keep s0 (State.resetTimeout s x1 x2) := by
  unfold State.resetTimeout
  repeat' first
    | with_reducible assumption
    | with_reducible apply State.rung2_keep
    | with_reducible apply State.report_keep
    | split

theorem State.returnCore_keep {s0 s : State} {x1 x2} (h : Keep s0 s) : Keep s0 (State.returnCore s x1 x2) := by
  unfold State.returnCore
  repeat' first
    | with_reducible assumption
    | (intro _ _)
    | with_reducible apply State.setTileState_keep
    | with_reducible apply State.setCoreState_keep
    | with_reducible apply State.setLadder_keep
    | with_reducible apply State.report_keep
    | with_reducible apply State.rung3_keep
    | with_reducible apply Keep.foldl
    | split

theorem State.stopDrain_keep {s0 s : State} (h : Keep s0 s) : Keep s0 (State.stopDrain s) := by
  unfold State.stopDrain
  repeat' first
    | with_reducible assumption
    | with_reducible apply State.loseTokens_keep
    | with_reducible apply State.faultSummary_keep
    | with_reducible apply State.enterSafe_keep
    | split
    | fail_if_no_progress (with_reducible refine Keep.hidden ?_ rfl rfl)

theorem State.stopEnd_keep {s0 s : State} (h : Keep s0 s) : Keep s0 (State.stopEnd s) := by
  unfold State.stopEnd
  repeat' first
    | with_reducible assumption
    | with_reducible apply State.dropLadders_keep
    | with_reducible apply State.gateAll_keep
    | with_reducible apply State.setPwrState_keep
    | with_reducible apply State.stacksLost_keep
    | split
    | fail_if_no_progress (with_reducible refine Keep.hidden ?_ rfl rfl)

theorem State.taskLate_keep {s0 s : State} {x1} (h : Keep s0 s) : Keep s0 (State.taskLate s x1) := by
  unfold State.taskLate
  repeat' first
    | with_reducible assumption
    | with_reducible apply State.timeOut_keep
    | split

theorem State.wakeCore_keep {s0 s : State} {x1} (h : Keep s0 s) : Keep s0 (State.wakeCore s x1) := by
  unfold State.wakeCore
  repeat' first
    | with_reducible assumption
    | (dsimp only)
    | with_reducible apply State.wakeReq_keep
    | with_reducible apply State.setLadder_keep
    | split

theorem State.applyGraft_keep {s0 s : State} {x1 x2} (h : Keep s0 s) : Keep s0 (State.applyGraft s x1 x2) := by
  unfold State.applyGraft
  repeat' first
    | with_reducible assumption
    | with_reducible apply State.graftGains_keep
    | with_reducible apply State.userFactors_keep
    | split
    | fail_if_no_progress (with_reducible refine Keep.hidden ?_ rfl rfl)

theorem State.countNow_keep {s0 s : State} {x1} (h : Keep s0 s) : Keep s0 (State.countNow s x1) := by
  unfold State.countNow
  repeat' first
    | with_reducible assumption
    | with_reducible apply State.incCounter_keep
    | split
    | fail_if_no_progress (with_reducible refine Keep.hidden ?_ rfl rfl)

theorem State.syncFloors_keep {s0 s : State} (h : Keep s0 s) : Keep s0 (State.syncFloors s) := by
  unfold State.syncFloors
  repeat' first
    | with_reducible assumption
    | with_reducible apply Keep.setF
    | (simp only [notLimit, R.idSvnFloor] <;> omega)

theorem State.counterIncrement_keep {s0 s : State} {x1} (h : Keep s0 s) : Keep s0 (State.counterIncrement s x1) := by
  unfold State.counterIncrement
  repeat' first
    | with_reducible assumption
    | with_reducible apply State.incCounter_keep
    | with_reducible apply State.syncFloors_keep
    | split
    | fail_if_no_progress (with_reducible refine Keep.hidden ?_ rfl rfl)

theorem State.longFail_keep {s0 s : State} {x1} (h : Keep s0 s) : Keep s0 (State.longFail s x1) := by
  unfold State.longFail
  repeat' first
    | with_reducible assumption
    | fail_if_no_progress (with_reducible refine Keep.hidden ?_ rfl rfl)

theorem State.weakSeen_keep {s0 s : State} {x1 x2} (h : Keep s0 s) : Keep s0 (State.weakSeen s x1 x2) := by
  unfold State.weakSeen
  repeat' first
    | with_reducible assumption
    | with_reducible apply Keep.raise
    | with_reducible apply State.report_keep
    | (simp only [notLimit, R.pstStatus, R.pstWeakEvt] <;> omega)

theorem State.scrubRec_keep {s0 s : State} {x1 x2} (h : Keep s0 s) : Keep s0 (State.scrubRec s x1 x2) := by
  unfold State.scrubRec
  repeat' first
    | with_reducible assumption
    | with_reducible apply State.weakSeen_keep
    | with_reducible apply State.writeRec_keep
    | split

theorem State.scrubPage_keep {s0 s : State} {x1 x2} (h : Keep s0 s) : Keep s0 (State.scrubPage s x1 x2) := by
  unfold State.scrubPage
  repeat' first
    | with_reducible assumption
    | (dsimp only)
    | with_reducible apply State.scrubRec_keep
    | with_reducible apply State.weakSeen_keep
    | with_reducible apply State.enqueue_keep
    | split

theorem State.marginRead_keep {s0 s : State} {x1} (h : Keep s0 s) : Keep s0 (State.marginRead s x1) := by
  unfold State.marginRead
  repeat' first
    | with_reducible assumption
    | (dsimp only)
    | with_reducible apply Keep.setF
    | with_reducible apply State.scrubPage_keep
    | (simp only [notLimit, R.pstScrub] <;> omega)
    | split

theorem State.writeDone_keep {s0 s : State} {x1} (h : Keep s0 s) : Keep s0 (State.writeDone s x1) := by
  unfold State.writeDone
  repeat' first
    | with_reducible assumption
    | with_reducible apply Keep.raise
    | with_reducible apply State.journalWritten_keep
    | with_reducible apply State.loadHold_keep
    | with_reducible apply State.applyGraft_keep
    | (simp only [notLimit, R.fltHfltEvt, R.fltHostStatus] <;> omega)
    | split

theorem State.pageWriteEnd_keep {s0 s : State} {x1} (h : Keep s0 s) : Keep s0 (State.pageWriteEnd s x1) := by
  unfold State.pageWriteEnd
  repeat' first
    | with_reducible assumption
    | with_reducible apply State.endWrite_keep
    | with_reducible apply State.writeDone_keep
    | with_reducible apply State.longFail_keep
    | split
    | (with_reducible refine pair_l ‹State.endWrite _ _ = _› ?_)

theorem State.setMember_keep {s0 s : State} {x1 x2} (h : Keep s0 s) : Keep s0 (State.setMember s x1 x2) := by
  unfold State.setMember
  repeat' first
    | with_reducible assumption
    | with_reducible apply Keep.setF
    | (simp only [notLimit, R.prtFab] <;> omega)
    | fail_if_no_progress (with_reducible refine Keep.hidden ?_ rfl rfl)

theorem State.setActing_keep {s0 s : State} {x1} (h : Keep s0 s) : Keep s0 (State.setActing s x1) := by
  unfold State.setActing
  repeat' first
    | with_reducible assumption
    | with_reducible apply Keep.setF
    | (simp only [notLimit, R.prtFab] <;> omega)
    | fail_if_no_progress (with_reducible refine Keep.hidden ?_ rfl rfl)

theorem State.applyNotice_keep {s0 s : State} {x1 x2 x3 x4 x5} (h : Keep s0 s) : Keep s0 (State.applyNotice s x1 x2 x3 x4 x5) := by
  unfold State.applyNotice
  repeat' first
    | with_reducible assumption
    | (dsimp only)
    | with_reducible apply Keep.setNat
    | with_reducible apply Keep.raise
    | with_reducible apply State.setMember_keep
    | with_reducible apply State.setActing_keep
    | (simp only [notLimit, R.fltHostStatus, R.fltHperEvt, R.prtFabSeq] <;> omega)
    | split

theorem State.nextHbSeq_keep {s0 s : State} (h : Keep s0 s) : Keep s0 ((State.nextHbSeq s).2) := by
  unfold State.nextHbSeq
  repeat' first
    | with_reducible assumption
    | fail_if_no_progress (with_reducible refine Keep.hidden ?_ rfl rfl)

theorem State.castPeer_keep {s0 s : State} {x1 x2} (h : Keep s0 s) : Keep s0 (State.castPeer s x1 x2) := by
  unfold State.castPeer
  repeat' first
    | with_reducible assumption
    | with_reducible apply State.sendFrame_keep

theorem State.castHeartbeat_keep {s0 s : State} (h : Keep s0 s) : Keep s0 (State.castHeartbeat s) := by
  unfold State.castHeartbeat
  repeat' first
    | with_reducible assumption
    | with_reducible apply State.nextHbSeq_keep
    | with_reducible apply State.castPeer_keep
    | split

theorem State.notice_keep {s0 s : State} {x1 x2} (h : Keep s0 s) : Keep s0 (State.notice s x1 x2) := by
  unfold State.notice
  repeat' first
    | with_reducible assumption
    | with_reducible apply Keep.setNat
    | with_reducible apply State.nextHbSeq_keep
    | with_reducible apply State.castPeer_keep
    | (simp only [notLimit, R.prtFabSeq] <;> omega)

theorem State.fmBack_keep {s0 s : State} (h : Keep s0 s) : Keep s0 (State.fmBack s) := by
  unfold State.fmBack
  repeat' first
    | with_reducible assumption
    | (dsimp only)
    | with_reducible apply State.setActing_keep
    | with_reducible apply State.notice_keep
    | split

theorem State.sendPeer_keep {s0 s : State} {x1 x2 x3 x4 x5} (h : Keep s0 s) : Keep s0 (State.sendPeer s x1 x2 x3 x4 x5) := by
  unfold State.sendPeer
  repeat' first
    | with_reducible assumption
    | with_reducible apply State.sendFrame_keep

theorem State.gotAccept_keep {s0 s : State} {x1 x2} (h : Keep s0 s) : Keep s0 (State.gotAccept s x1 x2) := by
  unfold State.gotAccept
  repeat' first
    | with_reducible assumption
    | (intro _ _)
    | with_reducible apply State.sendPeer_keep
    | with_reducible apply Keep.foldl
    | split
    | fail_if_no_progress (with_reducible refine Keep.hidden ?_ rfl rfl)

theorem State.gotAck_keep {s0 s : State} {x1 x2} (h : Keep s0 s) : Keep s0 (State.gotAck s x1 x2) := by
  unfold State.gotAck
  repeat' first
    | with_reducible assumption
    | with_reducible apply State.releaseFolio_keep
    | split
    | fail_if_no_progress (with_reducible refine Keep.hidden ?_ rfl rfl)

theorem State.gotData_keep {s0 s : State} {x1 x2 x3 x4 x5} (h : Keep s0 s) : Keep s0 (State.gotData s x1 x2 x3 x4 x5) := by
  unfold State.gotData
  repeat' first
    | with_reducible assumption
    | split
    | fail_if_no_progress (with_reducible refine Keep.hidden ?_ rfl rfl)

theorem State.installFolio_keep {s0 s : State} {x1 x2 x3 x4} (h : Keep s0 s) : Keep s0 (State.installFolio s x1 x2 x3 x4) := by
  unfold State.installFolio
  repeat' first
    | with_reducible assumption
    | with_reducible apply State.setFolio_keep
    | with_reducible apply State.folioWrite_keep
    | with_reducible apply State.closeFolio_keep
    | with_reducible apply State.sendPeer_keep
    | fail_if_no_progress (with_reducible refine Keep.hidden ?_ rfl rfl)

theorem State.xferBad_keep {s0 s : State} {x1} (h : Keep s0 s) : Keep s0 (State.xferBad s x1) := by
  unfold State.xferBad
  repeat' first
    | with_reducible assumption
    | with_reducible apply Keep.raise
    | with_reducible apply State.releaseFolio_keep
    | with_reducible apply State.report_keep
    | (simp only [notLimit, R.stkStatus, R.stkXferEvt] <;> omega)
    | fail_if_no_progress (with_reducible refine Keep.hidden ?_ rfl rfl)

theorem State.gotDone_keep {s0 s : State} {x1 x2 x3 x4 x5} (h : Keep s0 s) : Keep s0 (State.gotDone s x1 x2 x3 x4 x5) := by
  unfold State.gotDone
  repeat' first
    | with_reducible assumption
    | (dsimp only)
    | with_reducible apply State.installFolio_keep
    | with_reducible apply State.xferBad_keep
    | split
    | fail_if_no_progress (with_reducible refine Keep.hidden ?_ rfl rfl)

theorem State.gotHeartbeat_keep {s0 s : State} {x1 x2 x3 x4} (h : Keep s0 s) : Keep s0 (State.gotHeartbeat s x1 x2 x3 x4) := by
  unfold State.gotHeartbeat
  repeat' first
    | with_reducible assumption
    | (dsimp only)
    | with_reducible apply State.setMember_keep
    | with_reducible apply State.notice_keep
    | split

theorem State.gotOffer_keep {s0 s : State} {x1 x2 x3 x4} (h : Keep s0 s) : Keep s0 (State.gotOffer s x1 x2 x3 x4) := by
  unfold State.gotOffer
  repeat' first
    | with_reducible assumption
    | with_reducible apply State.sendPeer_keep
    | with_reducible apply State.admitFolio_keep
    | with_reducible apply State.extend_keep
    | with_reducible apply State.releaseFolio_keep
    | with_reducible apply State.setFolio_keep
    | split
    | (with_reducible refine pair_l ‹State.admitFolio _ _ = _› ?_)
    | (with_reducible refine pair_l ‹State.extend _ _ _ = _› ?_)
    | fail_if_no_progress (with_reducible refine Keep.hidden ?_ rfl rfl)
    | with_reducible apply Keep.ite'
    | (intro _)

theorem State.xferBack_keep {s0 s : State} {x1 x2} (h : Keep s0 s) : Keep s0 (State.xferBack s x1 x2) := by
  unfold State.xferBack
  repeat' first
    | with_reducible assumption
    | with_reducible apply Keep.raise
    | with_reducible apply State.setFolio_keep
    | with_reducible apply State.report_keep
    | (simp only [notLimit, R.stkStatus, R.stkXferEvt] <;> omega)
    | split
    | fail_if_no_progress (with_reducible refine Keep.hidden ?_ rfl rfl)

theorem State.gotRefuse_keep {s0 s : State} {x1 x2} (h : Keep s0 s) : Keep s0 (State.gotRefuse s x1 x2) := by
  unfold State.gotRefuse
  repeat' first
    | with_reducible assumption
    | with_reducible apply State.xferBack_keep
    | split

theorem State.handOver_keep {s0 s : State} {x1 x2} (h : Keep s0 s) : Keep s0 (State.handOver s x1 x2) := by
  unfold State.handOver
  repeat' first
    | with_reducible assumption
    | with_reducible apply State.setFolio_keep
    | with_reducible apply State.sendPeer_keep
    | split
    | fail_if_no_progress (with_reducible refine Keep.hidden ?_ rfl rfl)

theorem State.sendHeartbeats_keep {s0 s : State} (h : Keep s0 s) : Keep s0 (State.sendHeartbeats s) := by
  unfold State.sendHeartbeats
  repeat' first
    | with_reducible assumption
    | (intro _ _ _)
    | with_reducible apply State.nextHbSeq_keep
    | with_reducible apply State.sendPeer_keep
    | with_reducible apply Keep.foldl

theorem State.missed_keep {s0 s : State} {x1} (h : Keep s0 s) : Keep s0 (State.missed s x1) := by
  unfold State.missed
  repeat' first
    | with_reducible assumption
    | (dsimp only)
    | with_reducible apply State.notice_keep
    | with_reducible apply State.setMember_keep
    | with_reducible apply State.setActing_keep
    | with_reducible apply State.report_keep
    | split

theorem State.peerRx_keep {s0 s : State} {x1 x2} (h : Keep s0 s) : Keep s0 ((State.peerRx s x1 x2).1) := by
  unfold State.peerRx
  repeat' first
    | with_reducible assumption
    | (dsimp only)
    | with_reducible apply State.rxAttached_keep
    | with_reducible apply State.report_keep
    | with_reducible apply State.sendFrame_keep
    | split
    | (with_reducible refine pair_l ‹State.rxAttached _ _ _ = _› ?_)
    | fail_if_no_progress (with_reducible refine Keep.hidden ?_ rfl rfl)

theorem State.xferLate_keep {s0 s : State} {x1} (h : Keep s0 s) : Keep s0 (State.xferLate s x1) := by
  unfold State.xferLate
  repeat' first
    | with_reducible assumption
    | with_reducible apply State.xferBack_keep
    | with_reducible apply State.xferBad_keep
    | split

theorem State.refuseObject_keep {s0 s : State} {x1 x2 x3 x4 x5} (h : Keep s0 s) : Keep s0 (State.refuseObject s x1 x2 x3 x4 x5) := by
  unfold State.refuseObject
  repeat' first
    | with_reducible assumption
    | with_reducible apply State.cancelToken_keep
    | with_reducible apply State.defaultRefused_keep

theorem State.slotRefused_keep {s0 s : State} {x1} (h : Keep s0 s) : Keep s0 (State.slotRefused s x1) := by
  unfold State.slotRefused
  repeat' first
    | with_reducible assumption
    | with_reducible apply Keep.raise
    | with_reducible apply State.report_keep
    | (simp only [notLimit, R.lckSlotfEvt, R.lckStatus] <;> omega)

theorem State.placeToken_keep {s0 s : State} {x1 x2} (h : Keep s0 s) : Keep s0 (State.placeToken s x1 x2) := by
  unfold State.placeToken
  repeat' first
    | with_reducible assumption
    | with_reducible apply State.nextPosition_keep
    | with_reducible apply State.bindToken_keep
    | with_reducible apply State.cancelToken_keep
    | split
    | (with_reducible refine pair_l ‹State.nextPosition _ _ = _› ?_)

theorem State.admitObject_keep {s0 s : State} {x1 x2 x3 x4 x5} (h : Keep s0 s) : Keep s0 (State.admitObject s x1 x2 x3 x4 x5) := by
  unfold State.admitObject
  repeat' first
    | with_reducible assumption
    | with_reducible apply State.refuseObject_keep
    | with_reducible apply State.slotRefused_keep
    | with_reducible apply State.takeSlot_keep
    | with_reducible apply State.admitFolio_keep
    | with_reducible apply State.freeSlot_keep
    | with_reducible apply State.setSlot_keep
    | with_reducible apply State.placeToken_keep
    | split
    | (with_reducible refine pair_r ‹State.takeSlot _ _ = _› ?_)
    | (with_reducible refine pair_l ‹State.admitFolio _ _ = _› ?_)
    | fail_if_no_progress (with_reducible refine Keep.hidden ?_ rfl rfl)
    | with_reducible apply Keep.ite'
    | (intro _)

theorem State.attendRow_keep {s0 s : State} {x1 x2 x3 x4 x5 x6} (h : Keep s0 s) : Keep s0 (State.attendRow s x1 x2 x3 x4 x5 x6) := by
  unfold State.attendRow
  repeat' first
    | with_reducible assumption
    | (dsimp only)
    | with_reducible apply State.padNarrow_keep
    | split

theorem State.commitCall_keep {s0 s : State} {x1 x2 x3} (h : Keep s0 s) : Keep s0 (State.commitCall s x1 x2 x3) := by
  unfold State.commitCall
  repeat' first
    | with_reducible assumption
    | (dsimp only)
    | (intro _ _)
    | with_reducible apply State.discardModel_keep
    | with_reducible apply State.commitDecide_keep
    | with_reducible apply Keep.foldl
    | split

theorem State.staleDone_keep {s0 s : State} {x1 x2} (h : Keep s0 s) : Keep s0 (State.staleDone s x1 x2) := by
  unfold State.staleDone
  repeat' first
    | with_reducible assumption
    | with_reducible apply Keep.raise
    | with_reducible apply State.settle_keep
    | with_reducible apply State.removeInst_keep
    | (simp only [notLimit, R.dspStaleEvt, R.dspStatus] <;> omega)

theorem State.decideDone_keep {s0 s : State} {x1 x2 x3} (h : Keep s0 s) : Keep s0 (State.decideDone s x1 x2 x3) := by
  unfold State.decideDone
  repeat' first
    | with_reducible assumption
    | with_reducible apply State.staleDone_keep
    | with_reducible apply State.commitCall_keep
    | with_reducible apply State.report_keep
    | with_reducible apply State.complete_keep
    | split

theorem State.deferredTeardown_keep {s0 s : State} {x1} (h : Keep s0 s) : Keep s0 (State.deferredTeardown s x1) := by
  unfold State.deferredTeardown
  repeat' first
    | with_reducible assumption
    | (dsimp only)
    | with_reducible apply State.startTeardown_keep
    | with_reducible apply State.setCtx_keep
    | split

theorem State.doAppend_keep {s0 s : State} {x1 x2 x3 x4} (h : Keep s0 s) : Keep s0 (State.doAppend s x1 x2 x3 x4) := by
  unfold State.doAppend
  repeat' first
    | with_reducible assumption
    | (intro _ _)
    | with_reducible apply State.kvEntry_keep
    | with_reducible apply State.setFolio_keep
    | with_reducible apply State.folioWrite_keep
    | with_reducible apply State.newReq_keep
    | with_reducible apply Keep.foldl
    | split
    | fail_if_no_progress (with_reducible refine Keep.hidden ?_ rfl rfl)

theorem State.doAttention_keep {s0 s : State} {x1 x2 x3 x4} (h : Keep s0 s) : Keep s0 (State.doAttention s x1 x2 x3 x4) := by
  unfold State.doAttention
  repeat' first
    | with_reducible assumption
    | (intro _ _)
    | with_reducible apply State.attendRow_keep
    | with_reducible apply Keep.foldl
    | split

theorem State.wantTeardown_keep {s0 s : State} {x1} (h : Keep s0 s) : Keep s0 (State.wantTeardown s x1) := by
  unfold State.wantTeardown
  repeat' first
    | with_reducible assumption
    | (dsimp only)
    | with_reducible apply State.report_keep
    | with_reducible apply State.requestTeardown_keep
    | split

theorem State.suspendCtx_keep {s0 s : State} {x1} (h : Keep s0 s) : Keep s0 (State.suspendCtx s x1) := by
  unfold State.suspendCtx
  repeat' first
    | with_reducible assumption
    | with_reducible apply Keep.setF
    | with_reducible apply State.setCtx_keep
    | (simp only [notLimit, R.dspCxCtrl] <;> omega)
    | split

theorem State.restoreEntry_keep {s0 s : State} {x1 x2 x3} (h : Keep s0 s) : Keep s0 ((State.restoreEntry s x1 x2 x3).1) := by
  unfold State.restoreEntry
  repeat' first
    | with_reducible assumption
    | (dsimp only)
    | with_reducible apply Keep.count
    | with_reducible apply State.allocAcc_keep
    | (simp only [notLimit, R.accRestored] <;> omega)
    | split
    | (with_reducible refine pair_l ‹State.allocAcc _ _ _ = _› ?_)

theorem State.restoreCore_keep {s0 s : State} {x1 x2} (h : Keep s0 s) : Keep s0 (State.restoreCore s x1 x2) := by
  unfold State.restoreCore
  repeat' first
    | with_reducible assumption
    | (dsimp only)
    | (intro _ _)
    | with_reducible apply Keep.raise
    | with_reducible apply State.report_keep
    | with_reducible apply State.restoreEntry_keep
    | with_reducible apply Keep.foldl_fst
    | (simp only [notLimit, R.accRstEvt, R.accStaleEvt, R.accStatus] <;> omega)
    | split
    | fail_if_no_progress (with_reducible refine Keep.hidden ?_ rfl rfl)

theorem State.resumeCtx_keep {s0 s : State} {x1} (h : Keep s0 s) : Keep s0 (State.resumeCtx s x1) := by
  unfold State.resumeCtx
  repeat' first
    | with_reducible assumption
    | (intro _ _)
    | with_reducible apply Keep.setF
    | with_reducible apply State.restoreCore_keep
    | with_reducible apply State.settle_keep
    | with_reducible apply State.dropSave_keep
    | with_reducible apply Keep.foldl
    | (simp only [notLimit, R.dspCxState] <;> omega)
    | split

theorem State.gatherOver_keep {s0 s : State} {x1 x2 x3} (h : Keep s0 s) : Keep s0 (State.gatherOver s x1 x2 x3) := by
  unfold State.gatherOver
  repeat' first
    | with_reducible assumption
    | with_reducible apply State.closeGather_keep
    | split

theorem State.setTracked_keep {s0 s : State} {x1 x2} (h : Keep s0 s) : Keep s0 (State.setTracked s x1 x2) := by
  unfold State.setTracked
  repeat' first
    | with_reducible assumption
    | with_reducible apply State.setToken_keep
    | split

theorem State.seeObject_keep {s0 s : State} {x1 x2} (h : Keep s0 s) : Keep s0 (State.seeObject s x1 x2) := by
  unfold State.seeObject
  repeat' first
    | with_reducible assumption
    | (intro _ _ _)
    | with_reducible apply State.setSlot_keep
    | with_reducible apply Keep.foldl
    | split

theorem State.joinObject_keep {s0 s : State} {x1 x2 x3 x4 x5 x6} (h : Keep s0 s) : Keep s0 (State.joinObject s x1 x2 x3 x4 x5 x6) := by
  unfold State.joinObject
  repeat' first
    | with_reducible assumption
    | (dsimp only)
    | with_reducible apply State.refuseObject_keep
    | with_reducible apply State.slotRefused_keep
    | with_reducible apply State.joinFolio_keep
    | with_reducible apply State.takeSlot_keep
    | with_reducible apply State.placeToken_keep
    | with_reducible apply State.admitObject_keep
    | split
    | (with_reducible refine pair_l ‹State.joinFolio _ _ _ = _› ?_)
    | fail_if_no_progress (with_reducible refine Keep.hidden ?_ rfl rfl)

theorem State.track1_keep {s0 s : State} {x1 x2} (h : Keep s0 s) : Keep s0 (State.track1 s x1 x2) := by
  unfold State.track1
  repeat' first
    | with_reducible assumption
    | with_reducible apply State.cancelToken_keep
    | with_reducible apply State.admitObject_keep
    | with_reducible apply State.placeToken_keep
    | with_reducible apply State.seeObject_keep
    | with_reducible apply State.joinObject_keep
    | with_reducible apply State.setTracked_keep
    | with_reducible apply State.closeFolio_keep
    | split

theorem State.opEffect_keep {s0 s : State} {x1 x2 x3 x4} (h : Keep s0 s) : Keep s0 (State.opEffect s x1 x2 x3 x4) := by
  unfold State.opEffect
  repeat' first
    | with_reducible assumption
    | (intro _ _)
    | with_reducible apply State.doRange_keep
    | with_reducible apply State.doCombine_keep
    | with_reducible apply State.doEpilogue_keep
    | with_reducible apply State.padNarrow_keep
    | with_reducible apply State.padWrite_keep
    | with_reducible apply State.doAppend_keep
    | with_reducible apply State.doAttention_keep
    | with_reducible apply State.setTracked_keep
    | with_reducible apply State.track1_keep
    | with_reducible apply State.handOver_keep
    | with_reducible apply Keep.foldl
    | split

theorem State.instanceComplete_keep {s0 s : State} {x1 x2} (h : Keep s0 s) : Keep s0 (State.instanceComplete s x1 x2) := by
  unfold State.instanceComplete
  repeat' first
    | with_reducible assumption
    | with_reducible apply State.staleDone_keep
    | with_reducible apply State.complete_keep
    | with_reducible apply State.opEffect_keep
    | with_reducible apply Keep.foldl
    | split

theorem State.saveCore_keep {s0 s : State} {x1 x2} (h : Keep s0 s) : Keep s0 (State.saveCore s x1 x2) := by
  unfold State.saveCore
  repeat' first
    | with_reducible assumption
    | (intro _ _)
    | with_reducible apply Keep.count
    | with_reducible apply State.setCtx_keep
    | with_reducible apply State.freeAcc_keep
    | with_reducible apply Keep.foldl
    | (simp only [notLimit, R.accSaved] <;> omega)
    | fail_if_no_progress (with_reducible refine Keep.hidden ?_ rfl rfl)

theorem State.saveCtx_keep {s0 s : State} {x1} (h : Keep s0 s) : Keep s0 (State.saveCtx s x1) := by
  unfold State.saveCtx
  repeat' first
    | with_reducible assumption
    | (intro _ _)
    | with_reducible apply Keep.setF
    | with_reducible apply State.saveCore_keep
    | with_reducible apply State.setCtx_keep
    | with_reducible apply Keep.foldl
    | (simp only [notLimit, R.dspCxState] <;> omega)
    | split

theorem State.parseCfg_keep {s0 s : State} {x1} (h : Keep s0 s) : Keep s0 ((State.parseCfg s x1).1) := by
  unfold State.parseCfg
  repeat' first
    | with_reducible assumption
    | (dsimp only)
    | split
    | fail_if_no_progress (with_reducible refine Keep.hidden ?_ rfl rfl)

theorem State.ackAppend_keep {s0 s : State} {x1 x2} (h : Keep s0 s) : Keep s0 (State.ackAppend s x1 x2) := by
  unfold State.ackAppend
  repeat' first
    | with_reducible assumption
    | (dsimp only)
    | with_reducible apply State.setFolio_keep
    | split
    | fail_if_no_progress (with_reducible refine Keep.hidden ?_ rfl rfl)

theorem State.archiveBad_keep {s0 s : State} {x1} (h : Keep s0 s) : Keep s0 (State.archiveBad s x1) := by
  unfold State.archiveBad
  repeat' first
    | with_reducible assumption
    | split
    | fail_if_no_progress (with_reducible refine Keep.hidden ?_ rfl rfl)

theorem State.archiveLoaded_keep {s0 s : State} (h : Keep s0 s) : Keep s0 (State.archiveLoaded s) := by
  unfold State.archiveLoaded
  repeat' first
    | with_reducible assumption
    | (dsimp only)
    | with_reducible apply State.startStandIns_keep
    | with_reducible apply State.openModel_keep
    | split
    | fail_if_no_progress (with_reducible refine Keep.hidden ?_ rfl rfl)

theorem State.bufferFault_keep {s0 s : State} {x1} (h : Keep s0 s) : Keep s0 (State.bufferFault s x1) := by
  unfold State.bufferFault
  repeat' first
    | with_reducible assumption
    | with_reducible apply State.faultCtx_keep
    | with_reducible apply Keep.foldl
    | split

theorem State.bufferLost_keep {s0 s : State} {x1} (h : Keep s0 s) : Keep s0 (State.bufferLost s x1) := by
  unfold State.bufferLost
  repeat' first
    | with_reducible assumption
    | with_reducible apply State.timeOut_keep
    | split

theorem State.dropReq_keep {s0 s : State} {x1 x2} (h : Keep s0 s) : Keep s0 (State.dropReq s x1 x2) := by
  unfold State.dropReq
  repeat' first
    | with_reducible assumption
    | with_reducible apply State.countOut_keep
    | fail_if_no_progress (with_reducible refine Keep.hidden ?_ rfl rfl)

theorem State.forceClose_keep {s0 s : State} {x1} (h : Keep s0 s) : Keep s0 (State.forceClose s x1) := by
  unfold State.forceClose
  repeat' first
    | with_reducible assumption
    | (dsimp only)
    | with_reducible apply State.closeFolio_keep
    | split

theorem State.loadSlot_keep {s0 s : State} {x1 x2 x3 x4} (h : Keep s0 s) : Keep s0 (State.loadSlot s x1 x2 x3 x4) := by
  unfold State.loadSlot
  repeat' first
    | with_reducible assumption
    | (dsimp only)
    | with_reducible apply State.report_keep
    | with_reducible apply State.archiveLoaded_keep
    | with_reducible apply State.archiveBad_keep
    | split
    | fail_if_no_progress (with_reducible refine Keep.hidden ?_ rfl rfl)

theorem State.patrol_keep {s0 s : State} {x1 x2} (h : Keep s0 s) : Keep s0 (State.patrol s x1 x2) := by
  unfold State.patrol
  repeat' first
    | with_reducible assumption
    | with_reducible apply State.ceAt_keep
    | with_reducible apply State.bufferFault_keep
    | with_reducible apply State.ueAt_keep
    | split

theorem State.releaseDue_keep {s0 s : State} {x1} (h : Keep s0 s) : Keep s0 (State.releaseDue s x1) := by
  unfold State.releaseDue
  repeat' first
    | with_reducible assumption
    | with_reducible apply State.releaseFolio_keep
    | split

theorem State.reqEffect_keep {s0 s : State} {x1 x2} (h : Keep s0 s) : Keep s0 (State.reqEffect s x1 x2) := by
  unfold State.reqEffect
  repeat' first
    | with_reducible assumption
    | (dsimp only)
    | with_reducible apply Keep.raise
    | with_reducible apply State.pumpFetch_keep
    | with_reducible apply State.ackAppend_keep
    | with_reducible apply State.bufferLost_keep
    | (simp only [notLimit, R.dspStaleEvt, R.dspStatus] <;> omega)
    | split

theorem State.reqFailed_keep {s0 s : State} {x1} (h : Keep s0 s) : Keep s0 (State.reqFailed s x1) := by
  unfold State.reqFailed
  repeat' first
    | with_reducible assumption
    | with_reducible apply State.reqEffect_keep
    | with_reducible apply State.bufferFault_keep
    | with_reducible apply State.ueAt_keep
    | with_reducible apply State.dropReq_keep
    | split

theorem State.reqLost_keep {s0 s : State} {x1} (h : Keep s0 s) : Keep s0 (State.reqLost s x1) := by
  unfold State.reqLost
  repeat' first
    | with_reducible assumption
    | (dsimp only)
    | with_reducible apply State.reqFailed_keep
    | with_reducible apply Keep.foldl
    | split

theorem State.reqComplete_keep {s0 s : State} {x1 x2} (h : Keep s0 s) : Keep s0 (State.reqComplete s x1 x2) := by
  unfold State.reqComplete
  repeat' first
    | with_reducible assumption
    | with_reducible apply State.reqEffect_keep
    | with_reducible apply State.dropReq_keep
    | with_reducible apply State.ceAt_keep
    | with_reducible apply State.reqLost_keep
    | split

end Sys2Proof.Machine
end

