-- ==== Sys2Proof/Laws/KeepBoot.lean ====
section
/-! SUPPORT. `Keep` for replies, resets, the graft, the ports' commands and the boot: every function of these modules keeps what `Keep` names. -/

set_option linter.all false

namespace Sys2Proof.Machine

theorem State.closeF2_keep {s0 s : State} (h : Keep s0 s) : Keep s0 (State.closeF2 s) := by
  unfold State.closeF2
  repeat' first
    | with_reducible assumption
    | with_reducible apply Keep.setReg
    | with_reducible apply Keep.setF
    | (simp only [notLimit, R.sdmF2Left, R.sdmF2State] <;> omega)
    | fail_if_no_progress (with_reducible refine Keep.hidden ?_ rfl rfl)

theorem State.placeReply_keep {s0 s : State} {x1} (h : Keep s0 s) : Keep s0 (State.placeReply s x1) := by
  unfold State.placeReply
  repeat' first
    | with_reducible assumption
    | with_reducible apply Keep.setF
    | with_reducible apply Keep.raise
    | (simp only [notLimit, R.sdmHostStatus, R.sdmMbCtrl, R.sdmMbState, R.sdmReplyEvt] <;> omega)
    | fail_if_no_progress (with_reducible refine Keep.hidden ?_ rfl rfl)

theorem State.lateReply_keep {s0 s : State} {x1} (h : Keep s0 s) : Keep s0 (State.lateReply s x1) := by
  unfold State.lateReply
  repeat' first
    | with_reducible assumption
    | with_reducible apply State.placeReply_keep
    | split
    | fail_if_no_progress (with_reducible refine Keep.hidden ?_ rfl rfl)

theorem State.finalLong_keep {s0 s : State} {x1} (h : Keep s0 s) : Keep s0 (State.finalLong s x1) := by
  unfold State.finalLong
  repeat' first
    | with_reducible assumption
    | with_reducible apply Keep.setF
    | with_reducible apply State.lateReply_keep
    | (simp only [notLimit, R.sdmMbState] <;> omega)
    | split
    | fail_if_no_progress (with_reducible refine Keep.hidden ?_ rfl rfl)

theorem State.acceptLong_keep {s0 s : State} {x1 x2 x3} (h : Keep s0 s) : Keep s0 (State.acceptLong s x1 x2 x3) := by
  unfold State.acceptLong
  repeat' first
    | with_reducible assumption
    | with_reducible apply Keep.setF
    | with_reducible apply State.placeReply_keep
    | (simp only [notLimit, R.sdmMbState] <;> omega)
    | fail_if_no_progress (with_reducible refine Keep.hidden ?_ rfl rfl)

theorem State.answer_keep {s0 s : State} {x1 x2 x3 x4 x5} (h : Keep s0 s) : Keep s0 (State.answer s x1 x2 x3 x4 x5) := by
  unfold State.answer
  repeat' first
    | with_reducible assumption
    | with_reducible apply State.placeReply_keep

theorem State.discard_keep {s0 s : State} {x1 x2} (h : Keep s0 s) : Keep s0 (State.discard s x1 x2) := by
  unfold State.discard
  repeat' first
    | with_reducible assumption
    | with_reducible apply Keep.setF
    | with_reducible apply Keep.raise
    | (simp only [notLimit, R.sdmDiscardAddr, R.sdmHostStatus, R.sdmWdisEvt] <;> omega)

theorem State.openF2_keep {s0 s : State} {x1 x2 x3} (h : Keep s0 s) : Keep s0 (State.openF2 s x1 x2 x3) := by
  unfold State.openF2
  repeat' first
    | with_reducible assumption
    | with_reducible apply Keep.setF
    | with_reducible apply Keep.setNat
    | (simp only [notLimit, R.sdmF2Left, R.sdmF2State] <;> omega)

theorem State.f2Overrun_keep {s0 s : State} (h : Keep s0 s) : Keep s0 (State.f2Overrun s) := by
  unfold State.f2Overrun
  repeat' first
    | with_reducible assumption
    | with_reducible apply Keep.raise
    | (simp only [notLimit, R.sdmF2ovEvt, R.sdmHostStatus] <;> omega)

theorem State.f2Ready_keep {s0 s : State} (h : Keep s0 s) : Keep s0 (State.f2Ready s) := by
  unfold State.f2Ready
  repeat' first
    | with_reducible assumption
    | with_reducible apply Keep.raise
    | with_reducible apply State.openF2_keep
    | (simp only [notLimit, R.sdmF2rEvt, R.sdmHostStatus] <;> omega)
    | split
    | fail_if_no_progress (with_reducible refine Keep.hidden ?_ rfl rfl)

theorem State.abortMailbox_keep {s0 s : State} {x1} (h : Keep s0 s) : Keep s0 (State.abortMailbox s x1) := by
  unfold State.abortMailbox
  repeat' first
    | with_reducible assumption
    | with_reducible apply State.finalLong_keep
    | with_reducible apply State.closeF2_keep
    | fail_if_no_progress (with_reducible refine Keep.hidden ?_ rfl rfl)

theorem State.portsOff_keep {s0 s : State} (h : Keep s0 s) : Keep s0 (State.portsOff s) := by
  unfold State.portsOff
  repeat' first
    | with_reducible assumption
    | (intro _ _ _)
    | with_reducible apply State.disablePort_keep
    | with_reducible apply Keep.foldl
    | split

theorem State.enterStandby_keep {s0 s : State} (h : Keep s0 s) : Keep s0 (State.enterStandby s) := by
  unfold State.enterStandby
  repeat' first
    | with_reducible assumption
    | with_reducible apply Keep.setF
    | with_reducible apply State.portsOff_keep
    | with_reducible apply State.enterSafe_keep
    | with_reducible apply State.dropLadders_keep
    | with_reducible apply State.gateAll_keep
    | with_reducible apply State.writeCache_keep
    | with_reducible apply State.setPwrState_keep
    | (simp only [notLimit, R.dspCtrl] <;> omega)
    | fail_if_no_progress (with_reducible refine Keep.hidden ?_ rfl rfl)

theorem State.drainLog_keep {s0 s : State} {x0} (h : Keep s0 s) : Keep s0 (State.drainLog x0 s) := by
  induction x0 generalizing s <;> unfold State.drainLog <;> try dsimp only
  all_goals repeat' first
    | with_reducible apply State.flushLog_keep
    | split
    | with_reducible apply_assumption

theorem State.startSleep_keep {s0 s : State} (h : Keep s0 s) : Keep s0 (State.startSleep s) := by
  unfold State.startSleep
  repeat' first
    | with_reducible assumption
    | with_reducible apply Keep.setF
    | with_reducible apply State.portsOff_keep
    | with_reducible apply State.enterSafe_keep
    | with_reducible apply State.writeCache_keep
    | with_reducible apply State.drainLog_keep
    | (simp only [notLimit, R.dspCtrl, R.pwrState] <;> omega)
    | split

theorem State.firmwareLost_keep {s0 s : State} (h : Keep s0 s) : Keep s0 (State.firmwareLost s) := by
  unfold State.firmwareLost
  repeat' first
    | with_reducible assumption
    | with_reducible apply State.dispatcherOff_keep
    | fail_if_no_progress (with_reducible refine Keep.hidden ?_ rfl rfl)

theorem State.enterSleep_keep {s0 s : State} (h : Keep s0 s) : Keep s0 (State.enterSleep s) := by
  unfold State.enterSleep
  repeat' first
    | with_reducible assumption
    | with_reducible apply State.stacksLost_keep
    | with_reducible apply State.dropLadders_keep
    | with_reducible apply State.gateAll_keep
    | with_reducible apply State.firmwareLost_keep
    | with_reducible apply State.setPwrState_keep
    | fail_if_no_progress (with_reducible refine Keep.hidden ?_ rfl rfl)

theorem State.aonReset_keep {s0 s : State} (h : Keep s0 s) : Keep s0 (State.aonReset s) := by
  unfold State.aonReset
  extract_lets s1 s2 s3 s4
  have h4 : Keep s0 s4 := by
    dsimp only [s1, s2, s3, s4]
    repeat' first
      | with_reducible assumption
      | (intro _ _ _)
      | with_reducible apply State.losePower_keep
      | with_reducible apply Keep.foldl
      | with_reducible apply State.tilesOff_keep
      | with_reducible apply State.emit_keep
      | with_reducible apply State.releaseFault_keep
      | split
  clear_value s4
  exact Keep.aon h4 rfl rfl rfl rfl rfl rfl

theorem State.keepCtxs_keep {s0 s : State} {x1} (h : Keep s0 s) : Keep s0 (State.keepCtxs s x1) := by
  unfold State.keepCtxs
  repeat' first
    | with_reducible assumption
    | (intro _ _ _)
    | with_reducible apply Keep.setF
    | with_reducible apply Keep.foldl
    | (simp only [notLimit, R.dspCxState] <;> omega)

theorem State.releasePassed_keep {s0 s : State} (h : Keep s0 s) : Keep s0 (State.releasePassed s) := by
  unfold State.releasePassed
  repeat' first
    | with_reducible assumption
    | (intro _ _)
    | with_reducible apply State.releaseFolio_keep
    | with_reducible apply Keep.foldl

theorem State.wakeAll_keep {s0 s : State} (h : Keep s0 s) : Keep s0 (State.wakeAll s) := by
  unfold State.wakeAll
  repeat' first
    | with_reducible assumption
    | (intro _ _ _)
    | with_reducible apply State.wakeReq_keep
    | with_reducible apply Keep.foldl
    | split

theorem State.readHold_keep {s0 s : State} (h : Keep s0 s) : Keep s0 (State.readHold s) := by
  unfold State.readHold
  repeat' first
    | with_reducible assumption
    | with_reducible apply State.loadHold_keep

theorem State.leaveStandby_keep {s0 s : State} (h : Keep s0 s) : Keep s0 (State.leaveStandby s) := by
  unfold State.leaveStandby
  repeat' first
    | with_reducible assumption
    | with_reducible apply State.wakeAll_keep
    | with_reducible apply State.setPwrState_keep
    | fail_if_no_progress (with_reducible refine Keep.hidden ?_ rfl rfl)

theorem State.drrLimit_keep {s0 s : State} (h : Keep s0 s) : Keep s0 (State.drrLimit s) := by
  unfold State.drrLimit
  repeat' first
    | with_reducible assumption
    | with_reducible apply Keep.setF
    | with_reducible apply Keep.raise
    | with_reducible apply State.assertFault_keep
    | with_reducible apply State.abandonBoot_keep
    | with_reducible apply State.applyLevel_keep
    | with_reducible apply State.report_keep
    | with_reducible apply State.loseTokens_keep
    | with_reducible apply State.faultSummary_keep
    | with_reducible apply State.enterSafe_keep
    | with_reducible apply State.stacksLost_keep
    | with_reducible apply State.dropLadders_keep
    | with_reducible apply State.gateAll_keep
    | with_reducible apply State.setPwrState_keep
    | (simp only [notLimit, R.thmLevel, R.thmStatus, R.thmStopEvt] <;> omega)
    | fail_if_no_progress (with_reducible refine Keep.hidden ?_ rfl rfl)

theorem State.startDrr_keep {s0 s : State} {x1} (h : Keep s0 s) : Keep s0 (State.startDrr s x1) := by
  unfold State.startDrr
  repeat' first
    | with_reducible assumption
    | (dsimp only)
    | (intro _ _)
    | with_reducible apply Keep.setF
    | with_reducible apply Keep.countF
    | with_reducible apply Keep.raise
    | with_reducible apply State.abortMailbox_keep
    | with_reducible apply State.drrLimit_keep
    | with_reducible apply State.assertFault_keep
    | with_reducible apply State.report_keep
    | with_reducible apply State.castHeartbeat_keep
    | with_reducible apply State.enterSafe_keep
    | with_reducible apply State.sendDetach_keep
    | with_reducible apply Keep.foldl
    | (simp only [notLimit, R.fltDrr, R.fltDrrEvt, R.fltStatus, R.pwrState, R.thmLevel] <;> omega)
    | split
    | fail_if_no_progress (with_reducible refine Keep.hidden ?_ rfl rfl)

theorem State.releaseTrip_keep {s0 s : State} (h : Keep s0 s) : Keep s0 (State.releaseTrip s) := by
  unfold State.releaseTrip
  repeat' first
    | with_reducible assumption
    | with_reducible apply State.emit_keep
    | split
    | fail_if_no_progress (with_reducible refine Keep.hidden ?_ rfl rfl)

theorem State.warmRegs_keep {s0 s : State} (h : Keep s0 s) : Keep s0 (State.warmRegs s) := by
  refine Keep.foldl _ (fun s e h => ?_) _ _ h
  split
  · exact h
  · rename_i d hd
    split
    · exact h
    · exact h.setOff (by rw [hd]; exact Option.some_ne_none d)

theorem State.warmStacks_keep {s0 s : State} (h : Keep s0 s) : Keep s0 (State.warmStacks s) := by
  unfold State.warmStacks
  repeat' first
    | with_reducible assumption
    | fail_if_no_progress (with_reducible refine Keep.hidden ?_ rfl rfl)

theorem State.warmReset_keep {s0 s : State} (h : Keep s0 s) : Keep s0 (State.warmReset s) := by
  unfold State.warmReset
  repeat' first
    | with_reducible assumption
    | (dsimp only)
    | (intro _ _ _)
    | with_reducible apply Keep.setF
    | with_reducible apply State.warmRegs_keep
    | with_reducible apply State.warmStacks_keep
    | with_reducible apply State.sramOff_keep
    | with_reducible apply State.tilesOff_keep
    | with_reducible apply State.tilesOn_keep
    | with_reducible apply State.dropLadders_keep
    | with_reducible apply State.firmwareLost_keep
    | with_reducible apply Keep.foldl
    | (simp only [notLimit, R.idBoot] <;> omega)
    | split
    | fail_if_no_progress (with_reducible refine Keep.hidden ?_ rfl rfl)

theorem State.storedGraft_keep {s0 s : State} {x1} (h : Keep s0 s) : Keep s0 ((State.storedGraft s x1).1) := by
  unfold State.storedGraft
  repeat' first
    | with_reducible assumption
    | (dsimp only)
    | with_reducible apply State.readRec_keep
    | with_reducible apply State.report_keep
    | split
    | (with_reducible refine pair_l ‹State.readRec _ _ = _› ?_)

theorem State.enablePort_keep {s0 s : State} {x1} (h : Keep s0 s) : Keep s0 (State.enablePort s x1) := by
  unfold State.enablePort
  repeat' first
    | with_reducible assumption
    | (dsimp only)
    | with_reducible apply Keep.setF
    | with_reducible apply State.enterTrain_keep
    | with_reducible apply State.setPort_keep
    | (simp only [notLimit, R.prtCtrl] <;> omega)
    | split

theorem State.dropStale_keep {s0 s : State} (h : Keep s0 s) : Keep s0 (State.dropStale s) := by
  unfold State.dropStale
  repeat' first
    | with_reducible assumption
    | with_reducible apply Keep.raise
    | (simp only [notLimit, R.dspStaleEvt, R.dspStatus] <;> omega)

theorem State.gotLock_keep {s0 s : State} {x1} (h : Keep s0 s) : Keep s0 (State.gotLock s x1) := by
  unfold State.gotLock
  repeat' first
    | with_reducible assumption
    | with_reducible apply Keep.setF
    | with_reducible apply State.setPortState_keep
    | with_reducible apply State.setPort_keep
    | (simp only [notLimit, R.prtState] <;> omega)
    | split

theorem State.heartbeatDue_keep {s0 s : State} (h : Keep s0 s) : Keep s0 (State.heartbeatDue s) := by
  unfold State.heartbeatDue
  repeat' first
    | with_reducible assumption
    | with_reducible apply State.sendHeartbeats_keep
    | split
    | fail_if_no_progress (with_reducible refine Keep.hidden ?_ rfl rfl)

theorem State.lineOn_keep {s0 s : State} {x1 x2 x3} (h : Keep s0 s) : Keep s0 (State.lineOn s x1 x2 x3) := by
  unfold State.lineOn
  repeat' first
    | with_reducible assumption
    | (dsimp only)
    | (intro _ _ _)
    | with_reducible apply State.instantiate_keep
    | with_reducible apply Keep.foldl
    | split
    | fail_if_no_progress (with_reducible refine Keep.hidden ?_ rfl rfl)

theorem State.lockLost_keep {s0 s : State} {x1 x2} (h : Keep s0 s) : Keep s0 (State.lockLost s x1 x2) := by
  unfold State.lockLost
  repeat' first
    | with_reducible assumption
    | (dsimp only)
    | with_reducible apply Keep.setF
    | with_reducible apply State.detach_keep
    | with_reducible apply State.enterTrain_keep
    | (simp only [notLimit, R.prtState] <;> omega)
    | split

theorem State.rxType_keep {s0 s : State} {x1 x2 x3} (h : Keep s0 s) : Keep s0 ((State.rxType s x1 x2 x3).1) := by
  unfold State.rxType
  repeat' first
    | with_reducible assumption
    | with_reducible apply State.rxFrame_keep
    | split

theorem State.rxAccession_keep {s0 s : State} {x1 x2} (h : Keep s0 s) : Keep s0 (State.rxAccession s x1 x2) := by
  unfold State.rxAccession
  repeat' first
    | with_reducible assumption
    | with_reducible apply State.rxType_keep
    | with_reducible apply State.gotRecord_keep
    | with_reducible apply State.detach_keep
    | with_reducible apply State.setPort_keep
    | split
    | (with_reducible refine pair_l ‹State.rxType _ _ _ _ = _› ?_)

theorem State.rxAck_keep {s0 s : State} {x1 x2} (h : Keep s0 s) : Keep s0 (State.rxAck s x1 x2) := by
  unfold State.rxAck
  repeat' first
    | with_reducible assumption
    | with_reducible apply State.rxType_keep
    | with_reducible apply State.tryAttach_keep
    | with_reducible apply State.setPort_keep
    | with_reducible apply State.refuse_keep
    | split
    | (with_reducible refine pair_l ‹State.rxType _ _ _ _ = _› ?_)

theorem State.rxDetach_keep {s0 s : State} {x1 x2} (h : Keep s0 s) : Keep s0 (State.rxDetach s x1 x2) := by
  unfold State.rxDetach
  repeat' first
    | with_reducible assumption
    | with_reducible apply State.rxType_keep
    | with_reducible apply State.detach_keep
    | split
    | (with_reducible refine pair_l ‹State.rxType _ _ _ _ = _› ?_)

theorem State.rxHead_keep {s0 s : State} {x1 x2} (h : Keep s0 s) : Keep s0 (State.rxHead s x1 x2) := by
  unfold State.rxHead
  repeat' first
    | with_reducible assumption
    | with_reducible apply State.rxType_keep
    | with_reducible apply State.report_keep
    | split
    | (with_reducible refine pair_l ‹State.rxType _ _ _ _ = _› ?_)

theorem State.rxPeer_keep {s0 s : State} {x1 x2 x3} (h : Keep s0 s) : Keep s0 ((State.rxPeer s x1 x2 x3).1) := by
  unfold State.rxPeer
  repeat' first
    | with_reducible assumption
    | with_reducible apply State.peerRx_keep
    | split
    | (with_reducible refine pair_l ‹State.peerRx _ _ _ = _› ?_)

theorem State.rxHeartbeat_keep {s0 s : State} {x1 x2} (h : Keep s0 s) : Keep s0 (State.rxHeartbeat s x1 x2) := by
  unfold State.rxHeartbeat
  repeat' first
    | with_reducible assumption
    | with_reducible apply State.rxPeer_keep
    | with_reducible apply State.gotHeartbeat_keep
    | split
    | (with_reducible refine pair_l ‹State.rxPeer _ _ _ _ = _› ?_)

theorem State.rxLine_keep {s0 s : State} {x1 x2} (h : Keep s0 s) : Keep s0 (State.rxLine s x1 x2) := by
  unfold State.rxLine
  repeat' first
    | with_reducible assumption
    | (dsimp only)
    | (intro _ _)
    | with_reducible apply State.rxType_keep
    | with_reducible apply State.lineOn_keep
    | with_reducible apply Keep.foldl
    | split

theorem State.rxNotice_keep {s0 s : State} {x1 x2} (h : Keep s0 s) : Keep s0 (State.rxNotice s x1 x2) := by
  unfold State.rxNotice
  repeat' first
    | with_reducible assumption
    | with_reducible apply State.rxPeer_keep
    | with_reducible apply State.applyNotice_keep
    | split
    | (with_reducible refine pair_l ‹State.rxPeer _ _ _ _ = _› ?_)

theorem State.rxStatus_keep {s0 s : State} {x1 x2} (h : Keep s0 s) : Keep s0 (State.rxStatus s x1 x2) := by
  unfold State.rxStatus
  repeat' first
    | with_reducible assumption
    | with_reducible apply Keep.raise
    | with_reducible apply State.rxType_keep
    | with_reducible apply State.report_keep
    | (simp only [notLimit, R.actBoardEvt, R.actStatus] <;> omega)
    | split
    | (with_reducible refine pair_l ‹State.rxType _ _ _ _ = _› ?_)

theorem State.trainLate_keep {s0 s : State} {x1} (h : Keep s0 s) : Keep s0 (State.trainLate s x1) := by
  unfold State.trainLate
  repeat' first
    | with_reducible assumption
    | (dsimp only)
    | with_reducible apply State.enterTrain_keep
    | with_reducible apply State.setPort_keep
    | with_reducible apply State.report_keep
    | split

theorem State.startCtx_keep {s0 s : State} {x1} (h : Keep s0 s) : Keep s0 (State.startCtx s x1) := by
  unfold State.startCtx
  repeat' first
    | with_reducible assumption
    | with_reducible apply Keep.setF
    | (simp only [notLimit, R.dspCxState] <;> omega)
    | split

theorem State.startLines_keep {s0 s : State} {x1} (h : Keep s0 s) : Keep s0 (State.startLines s x1) := by
  unfold State.startLines
  repeat' first
    | with_reducible assumption
    | (dsimp only)
    | with_reducible apply Keep.setF
    | with_reducible apply State.startCtx_keep
    | with_reducible apply State.leaveSafe_keep
    | with_reducible apply State.makeStep_keep
    | with_reducible apply State.doStep_keep
    | with_reducible apply Keep.foldl
    | (simp only [notLimit, R.dspCtrl, R.lckCtrl] <;> omega)
    | split

theorem State.autoStart_keep {s0 s : State} (h : Keep s0 s) : Keep s0 (State.autoStart s) := by
  unfold State.autoStart
  repeat' first
    | with_reducible assumption
    | (dsimp only)
    | (intro _ _ _)
    | with_reducible apply State.report_keep
    | with_reducible apply State.startLines_keep
    | with_reducible apply State.bootDone_keep
    | with_reducible apply Keep.foldl
    | split

theorem State.initSubs_keep {s0 s : State} {x1} (h : Keep s0 s) : Keep s0 (State.initSubs s x1) := by
  unfold State.initSubs
  repeat' first
    | with_reducible assumption
    | (intro _ _ _)
    | with_reducible apply Keep.setF
    | with_reducible apply Keep.foldl
    | (simp only [notLimit, R.tilState] <;> omega)

theorem State.initPort_keep {s0 s : State} {x1} (h : Keep s0 s) : Keep s0 (State.initPort s x1) := by
  unfold State.initPort
  repeat' first
    | with_reducible assumption
    | (dsimp only)
    | with_reducible apply Keep.setF
    | with_reducible apply State.enablePort_keep
    | (simp only [notLimit, R.prtCtrl] <;> omega)
    | split

theorem State.initStk_keep {s0 s : State} (h : Keep s0 s) : Keep s0 (State.initStk s) := by
  unfold State.initStk
  repeat' first
    | with_reducible assumption
    | (intro _ _ _)
    | with_reducible apply Keep.setF
    | with_reducible apply Keep.setNat
    | with_reducible apply Keep.foldl
    | (simp only [notLimit, R.stkCtrl, R.stkReserve, R.stkShCfg, R.stkShOpenMax, R.stkShWinHi, R.stkShWinLo] <;> omega)

theorem State.initConvB_keep {s0 s : State} (h : Keep s0 s) : Keep s0 (State.initConvB s) := by
  unfold State.initConvB
  repeat' first
    | with_reducible assumption
    | with_reducible apply State.selfcalReq_keep
    | with_reducible apply State.userFactor_keep
    | with_reducible apply State.facFactor_keep

theorem State.initDsp_keep {s0 s : State} (h : Keep s0 s) : Keep s0 (State.initDsp s) := by
  unfold State.initDsp
  repeat' first
    | with_reducible assumption
    | (intro _ _ _)
    | with_reducible apply Keep.setF
    | with_reducible apply Keep.setNat
    | with_reducible apply Keep.foldl
    | (simp only [notLimit, R.dspBudget, R.dspCxCtrl, R.dspCxSaveHi, R.dspCxSaveLo, R.dspCxState] <;> omega)

theorem State.initFab_keep {s0 s : State} (h : Keep s0 s) : Keep s0 (State.initFab s) := by
  unfold State.initFab
  repeat' first
    | with_reducible assumption
    | with_reducible apply Keep.setF
    | (simp only [notLimit, R.prtFab] <;> omega)

theorem State.fwInit_keep {s0 s : State} {x1} (h : Keep s0 s) : Keep s0 (State.fwInit s x1) := by
  unfold State.fwInit
  repeat' first
    | with_reducible assumption
    | with_reducible apply State.initSubs_keep
    | with_reducible apply State.initPort_keep
    | with_reducible apply State.initStk_keep
    | with_reducible apply State.initConvB_keep
    | with_reducible apply State.initDsp_keep
    | with_reducible apply State.initFab_keep
    | split

theorem State.readCache_keep {s0 s : State} (h : Keep s0 s) : Keep s0 (State.readCache s) := by
  unfold State.readCache
  repeat' first
    | with_reducible assumption
    | (dsimp only)
    | with_reducible apply State.reportTorn_keep
    | with_reducible apply State.report_keep
    | split
    | fail_if_no_progress (with_reducible refine Keep.hidden ?_ rfl rfl)

theorem State.standbyAwake_keep {s0 s : State} (h : Keep s0 s) : Keep s0 (State.standbyAwake s) := by
  unfold State.standbyAwake
  repeat' first
    | with_reducible assumption
    | with_reducible apply State.releasePassed_keep
    | with_reducible apply State.readCache_keep
    | split
    | fail_if_no_progress (with_reducible refine Keep.hidden ?_ rfl rfl)

theorem State.awake_keep {s0 s : State} {x1} (h : Keep s0 s) : Keep s0 (State.awake s x1) := by
  unfold State.awake
  repeat' first
    | with_reducible assumption
    | with_reducible apply State.rampEnd_keep
    | with_reducible apply State.keepCtxs_keep
    | with_reducible apply State.fwInit_keep
    | with_reducible apply State.standbyAwake_keep
    | split

theorem State.setStage_keep {s0 s : State} {x1} (h : Keep s0 s) : Keep s0 (State.setStage s x1) := by
  unfold State.setStage
  repeat' first
    | with_reducible assumption
    | with_reducible apply Keep.setF
    | (simp only [notLimit, R.idBoot] <;> omega)

theorem State.coresStart_keep {s0 s : State} {x1} (h : Keep s0 s) : Keep s0 (State.coresStart s x1) := by
  unfold State.coresStart
  repeat' first
    | with_reducible assumption
    | (dsimp only)
    | with_reducible apply Keep.setF
    | with_reducible apply State.formEntries_keep
    | with_reducible apply State.report_keep
    | with_reducible apply State.countNow_keep
    | (simp only [notLimit, R.idBoot, R.thmTripCause] <;> omega)
    | split
    | fail_if_no_progress (with_reducible refine Keep.hidden ?_ rfl rfl)

theorem State.bootHold_keep {s0 s : State} {x1} (h : Keep s0 s) : Keep s0 (State.bootHold s x1) := by
  unfold State.bootHold
  repeat' first
    | (extract_lets)
    | with_reducible assumption
    | with_reducible apply Keep.setF
    | with_reducible apply State.setStage_keep
    | with_reducible apply State.report_keep
    | with_reducible apply State.stacksLost_keep
    | with_reducible apply State.gateAll_keep
    | with_reducible apply State.endDrr_keep
    | with_reducible apply State.setPwrState_keep
    | fail_if_no_progress (with_reducible refine Keep.hidden ?_ rfl rfl)
    | with_reducible apply Keep.ite'
    | (intro _)
    | (show notLimit (R.idBoot ..); simp only [notLimit, R.idBoot]; omega)

theorem State.enrol_keep {s0 s : State} (h : Keep s0 s) : Keep s0 (State.enrol s) := by
  unfold State.enrol
  split
  · exact h
  · rename_i n
    split
    · exact State.report_keep (h.burn n)
    · exact h

theorem State.readJournal_keep {s0 s : State} (h : Keep s0 s) : Keep s0 (State.readJournal s) := by
  unfold State.readJournal
  repeat' first
    | with_reducible assumption
    | with_reducible apply State.readRec_keep
    | split
    | (with_reducible refine pair_l ‹State.readRec _ _ = _› ?_)
    | fail_if_no_progress (with_reducible refine Keep.hidden ?_ rfl rfl)

theorem State.readWear_keep {s0 s : State} (h : Keep s0 s) : Keep s0 (State.readWear s) := by
  unfold State.readWear
  repeat' first
    | with_reducible assumption
    | (intro _ _)
    | with_reducible apply State.readRec_keep
    | with_reducible apply State.setPTile_keep
    | with_reducible apply Keep.foldl

theorem State.facRec_keep {s0 s : State} {x1} (h : Keep s0 s) : Keep s0 ((State.facRec s x1).1) := by
  unfold State.facRec
  repeat' first
    | with_reducible assumption
    | with_reducible apply State.readRec_keep
    | with_reducible apply State.report_keep
    | split
    | (with_reducible refine pair_l ‹State.readRec _ _ = _› ?_)

theorem State.readUnits_keep {s0 s : State} (h : Keep s0 s) : Keep s0 (State.readUnits s) := by
  unfold State.readUnits
  repeat' first
    | with_reducible assumption
    | with_reducible apply State.facRec_keep
    | with_reducible apply State.storedGraft_keep
    | with_reducible apply State.userFactor_keep
    | with_reducible apply State.facFactor_keep
    | fail_if_no_progress (with_reducible refine Keep.hidden ?_ rfl rfl)

theorem State.syncSafe_keep {s0 s : State} (h : Keep s0 s) : Keep s0 (State.syncSafe s) := by
  unfold State.syncSafe
  repeat' first
    | with_reducible assumption
    | with_reducible apply State.writeRec_keep
    | split

theorem State.initAon_keep {s0 s : State} (h : Keep s0 s) : Keep s0 (State.initAon s) := by
  unfold State.initAon
  repeat' first
    | with_reducible assumption
    | with_reducible apply Keep.setPol
    | with_reducible apply Keep.setF
    | with_reducible apply State.refreshGpio_keep
    | (simp only [notLimit, R.actCtrl, R.actGpioMaxw, R.lckCfg, R.lckCtrl, R.monXchkCfg, R.monXchkThr] <;> omega)

theorem State.identity_keep {s0 s : State} (h : Keep s0 s) : Keep s0 (State.identity s) := by
  unfold State.identity
  repeat' first
    | with_reducible assumption
    | (intro _ _ _)
    | with_reducible apply Keep.setNat
    | with_reducible apply Keep.setF
    | with_reducible apply State.readRec_keep
    | with_reducible apply State.report_keep
    | with_reducible apply State.syncFloors_keep
    | with_reducible apply Keep.foldl
    | (simp only [notLimit, R.idBoot, R.idDeviceId, R.idDie, R.idFcalRev, R.idFwRev, R.idLotHi, R.idLotLo, R.idPart, R.idSvn, R.idTestDate] <;> omega)
    | split
    | fail_if_no_progress (with_reducible refine Keep.hidden ?_ rfl rfl)

theorem State.startUnits_keep {s0 s : State} (h : Keep s0 s) : Keep s0 (State.startUnits s) := by
  unfold State.startUnits
  repeat' first
    | with_reducible assumption
    | (intro _ _ _)
    | with_reducible apply State.readJournal_keep
    | with_reducible apply State.readWear_keep
    | with_reducible apply State.readUnits_keep
    | with_reducible apply State.syncSafe_keep
    | with_reducible apply State.initAon_keep
    | with_reducible apply State.identity_keep
    | with_reducible apply State.selfcalReq_keep
    | with_reducible apply State.wakeAll_keep
    | with_reducible apply State.setStage_keep
    | with_reducible apply State.fwInit_keep
    | with_reducible apply Keep.foldl
    | split


theorem State.bootFw_keep {s0 s : State} {x1} (h : Keep s0 s) : Keep s0 (State.bootFw s x1) := by
  unfold State.bootFw
  repeat' first
    | with_reducible assumption
    | (dsimp only)
    | with_reducible apply State.setStage_keep
    | with_reducible apply State.coresStart_keep
    | with_reducible apply State.bootHold_keep
    | with_reducible apply State.parseCfg_keep
    | with_reducible apply State.enrol_keep
    | with_reducible apply State.startUnits_keep
    | with_reducible apply Keep.writeLocks
    | split
    | (with_reducible refine pair_l ‹State.parseCfg _ _ = _› ?_)

theorem State.domUp_keep {s0 s : State} {x1} (h : Keep s0 s) : Keep s0 (State.domUp s x1) := by
  unfold State.domUp
  repeat' first
    | with_reducible assumption
    | with_reducible apply State.domWake_keep
    | with_reducible apply State.setDomReq_keep
    | split

theorem State.bootRun_keep {s0 s : State} {x1} (h : Keep s0 s) : Keep s0 (State.bootRun s x1) := by
  unfold State.bootRun
  repeat' first
    | with_reducible assumption
    | (dsimp only)
    | with_reducible apply Keep.setF
    | with_reducible apply State.domUp_keep
    | with_reducible apply State.setStage_keep
    | with_reducible apply State.setPwrState_keep
    | with_reducible apply State.bootHold_keep
    | with_reducible apply State.bootFw_keep
    | (simp only [notLimit, R.idBoot] <;> omega)
    | split
    | fail_if_no_progress (with_reducible refine Keep.hidden ?_ rfl rfl)

theorem State.buildFree_keep {s0 s : State} (h : Keep s0 s) : Keep s0 (State.buildFree s) := by
  unfold State.buildFree
  repeat' first
    | with_reducible assumption
    | (intro _ _ _)
    | with_reducible apply Keep.setF
    | with_reducible apply Keep.foldl
    | (simp only [notLimit, R.stkChState, R.stkFree, R.stkFreeLow, R.stkRetired] <;> omega)
    | fail_if_no_progress (with_reducible refine Keep.hidden ?_ rfl rfl)

theorem State.calibrated_keep {s0 s : State} (h : Keep s0 s) : Keep s0 (State.calibrated s) := by
  unfold State.calibrated
  repeat' first
    | with_reducible assumption
    | (dsimp only)
    | with_reducible apply Keep.setF
    | with_reducible apply State.renewSummary_keep
    | with_reducible apply State.autoStart_keep
    | with_reducible apply State.startLines_keep
    | with_reducible apply State.bootDone_keep
    | (simp only [notLimit, R.calSummary, R.idBoot] <;> omega)
    | split
    | fail_if_no_progress (with_reducible refine Keep.hidden ?_ rfl rfl)

theorem State.loadCtxs_keep {s0 s : State} {x1} (h : Keep s0 s) : Keep s0 (State.loadCtxs s x1) := by
  unfold State.loadCtxs
  repeat' first
    | with_reducible assumption
    | (dsimp only)
    | (intro _ _ _)
    | with_reducible apply Keep.setF
    | with_reducible apply State.setCtx_keep
    | with_reducible apply Keep.foldl
    | (simp only [notLimit, R.dspCxState] <;> omega)
    | split

theorem State.takePackage_keep {s0 s : State} {x1} (h : Keep s0 s) : Keep s0 (State.takePackage s x1) := by
  unfold State.takePackage
  repeat' first
    | with_reducible assumption
    | (intro _ _ _)
    | with_reducible apply Keep.setF
    | with_reducible apply State.setPlace_keep
    | with_reducible apply State.loadCtxs_keep
    | with_reducible apply Keep.foldl
    | (simp only [notLimit, R.idBoot] <;> omega)
    | split
    | fail_if_no_progress (with_reducible refine Keep.hidden ?_ rfl rfl)

theorem State.wantModel_keep {s0 s : State} {x1} (h : Keep s0 s) : Keep s0 (State.wantModel s x1) := by
  unfold State.wantModel
  repeat' first
    | with_reducible assumption
    | fail_if_no_progress (with_reducible refine Keep.hidden ?_ rfl rfl)

theorem State.emptyDump_keep {s0 s : State} (h : Keep s0 s) : Keep s0 (State.emptyDump s) := by
  unfold State.emptyDump
  repeat' first
    | with_reducible assumption
    | fail_if_no_progress (with_reducible refine Keep.hidden ?_ rfl rfl)

theorem State.readRetired_keep {s0 s : State} (h : Keep s0 s) : Keep s0 (State.readRetired s) := by
  unfold State.readRetired
  repeat' first
    | with_reducible assumption
    | with_reducible apply State.readRec_keep
    | fail_if_no_progress (with_reducible refine Keep.hidden ?_ rfl rfl)

theorem State.remapListed_keep {s0 s : State} (h : Keep s0 s) : Keep s0 (State.remapListed s) := by
  unfold State.remapListed
  repeat' first
    | with_reducible assumption
    | (intro _ _ _)
    | with_reducible apply State.takePage_keep
    | with_reducible apply Keep.foldl
    | split
    | (with_reducible refine pair_l ‹State.takePage _ _ = _› ?_)
    | fail_if_no_progress (with_reducible refine Keep.hidden ?_ rfl rfl)

theorem State.resumeArchive_keep {s0 s : State} (h : Keep s0 s) : Keep s0 (State.resumeArchive s) := by
  unfold State.resumeArchive
  repeat' first
    | with_reducible assumption
    | split
    | fail_if_no_progress (with_reducible refine Keep.hidden ?_ rfl rfl)

theorem State.resumeJob_keep {s0 s : State} (h : Keep s0 s) : Keep s0 (State.resumeJob s) := by
  unfold State.resumeJob
  repeat' first
    | with_reducible assumption
    | (dsimp only)
    | (intro _ _)
    | with_reducible apply State.setPTile_keep
    | with_reducible apply State.report_keep
    | with_reducible apply State.closeJob_keep
    | with_reducible apply State.startProg_keep
    | with_reducible apply Keep.foldl
    | split
    | fail_if_no_progress (with_reducible refine Keep.hidden ?_ rfl rfl)

theorem State.selectPackage_keep {s0 s : State} (h : Keep s0 s) : Keep s0 (State.selectPackage s) := by
  unfold State.selectPackage
  repeat' first
    | with_reducible assumption
    | (dsimp only)
    | with_reducible apply Keep.setF
    | with_reducible apply State.takePackage_keep
    | with_reducible apply State.report_keep
    | (simp only [notLimit, R.idBoot] <;> omega)
    | split

theorem State.weightsCheck_keep {s0 s : State} (h : Keep s0 s) : Keep s0 (State.weightsCheck s) := by
  unfold State.weightsCheck
  repeat' first
    | with_reducible assumption
    | with_reducible apply State.wantModel_keep
    | with_reducible apply State.report_keep
    | split

theorem State.trained_keep {s0 s : State} {x1} (h : Keep s0 s) : Keep s0 (State.trained s x1) := by
  unfold State.trained
  repeat' first
    | with_reducible assumption
    | with_reducible apply Keep.setF
    | with_reducible apply State.readRetired_keep
    | with_reducible apply State.emptyDump_keep
    | with_reducible apply State.buildFree_keep
    | with_reducible apply State.failChannel_keep
    | with_reducible apply State.remapListed_keep
    | with_reducible apply State.weightsCheck_keep
    | with_reducible apply State.selectPackage_keep
    | with_reducible apply State.resumeArchive_keep
    | with_reducible apply State.resumeJob_keep
    | with_reducible apply State.readCache_keep
    | with_reducible apply State.repairCore_keep
    | with_reducible apply State.bootDone_keep
    | with_reducible apply State.setStage_keep
    | with_reducible apply Keep.foldl
    | split
    | fail_if_no_progress (with_reducible refine Keep.hidden ?_ rfl rfl)
    | with_reducible apply Keep.ite'
    | (intro _)
    | (show notLimit (R.stkCtrl ..); simp only [notLimit, R.stkCtrl]; omega)

theorem State.porst_keep {s0 s : State} {x1} (h : Keep s0 s) : Keep s0 (State.porst s x1) := by
  unfold State.porst
  repeat' first
    | with_reducible assumption
    | with_reducible apply State.releaseTrip_keep
    | with_reducible apply State.aonReset_keep
    | with_reducible apply State.bootRun_keep
    | with_reducible apply State.readHold_keep
    | with_reducible apply State.domUp_keep
    | fail_if_no_progress (with_reducible refine Keep.hidden ?_ rfl rfl)

theorem State.capture_keep {s0 s : State} {x1} (h : Keep s0 s) : Keep s0 (State.capture s x1) := by
  unfold State.capture
  repeat' first
    | with_reducible assumption
    | with_reducible apply State.setEnc_keep
    | split
    | fail_if_no_progress (with_reducible refine Keep.hidden ?_ rfl rfl)

theorem State.countFwd_keep {s0 s : State} {x1} (h : Keep s0 s) : Keep s0 (State.countFwd s x1) := by
  unfold State.countFwd
  repeat' first
    | with_reducible assumption
    | with_reducible apply State.setEnc_keep
    | with_reducible apply State.markReleases_keep
    | fail_if_no_progress (with_reducible refine Keep.hidden ?_ rfl rfl)

theorem State.countRev_keep {s0 s : State} {x1} (h : Keep s0 s) : Keep s0 (State.countRev s x1) := by
  unfold State.countRev
  repeat' first
    | with_reducible assumption
    | (dsimp only)
    | with_reducible apply Keep.raise
    | with_reducible apply State.setEnc_keep
    | (simp only [notLimit, R.lckRevEvt, R.lckStatus] <;> omega)
    | split

theorem State.dacStart_keep {s0 s : State} {x1} (h : Keep s0 s) : Keep s0 (State.dacStart s x1) := by
  unfold State.dacStart
  repeat' first
    | with_reducible assumption
    | with_reducible apply Keep.setF
    | (simp only [notLimit, R.actDacActive] <;> omega)

theorem State.dacRun_keep {s0 s : State} {x1} (h : Keep s0 s) : Keep s0 (State.dacRun s x1) := by
  unfold State.dacRun
  repeat' first
    | with_reducible assumption
    | with_reducible apply Keep.setF
    | with_reducible apply State.dacStart_keep
    | with_reducible apply State.refreshHold_keep
    | with_reducible apply Keep.foldl
    | (simp only [notLimit, R.actDacCtrl] <;> omega)

theorem State.encError_keep {s0 s : State} {x1} (h : Keep s0 s) : Keep s0 (State.encError s x1) := by
  unfold State.encError
  repeat' first
    | with_reducible assumption
    | with_reducible apply Keep.raise
    | with_reducible apply State.report_keep
    | (simp only [notLimit, R.lckE0errEvt, R.lckE1errEvt, R.lckStatus] <;> omega)
    | split

theorem State.encoderCount_keep {s0 s : State} {x1 x2 x3} (h : Keep s0 s) : Keep s0 (State.encoderCount s x1 x2 x3) := by
  unfold State.encoderCount
  repeat' first
    | with_reducible assumption
    | (dsimp only)
    | with_reducible apply State.setEnc_keep
    | with_reducible apply State.encError_keep
    | with_reducible apply State.countFwd_keep
    | with_reducible apply State.countRev_keep
    | split

theorem State.encoderStopped_keep {s0 s : State} {x1} (h : Keep s0 s) : Keep s0 (State.encoderStopped s x1) := by
  unfold State.encoderStopped
  repeat' first
    | with_reducible assumption
    | (dsimp only)
    | with_reducible apply Keep.raise
    | with_reducible apply State.setEnc_keep
    | (simp only [notLimit, R.lckCfg, R.lckStatus, R.lckStopEvt] <;> omega)
    | split

theorem State.fireRelease_keep {s0 s : State} {x1} (h : Keep s0 s) : Keep s0 (State.fireRelease s x1) := by
  unfold State.fireRelease
  repeat' first
    | with_reducible assumption
    | with_reducible apply Keep.raise
    | with_reducible apply State.report_keep
    | with_reducible apply State.setFireQ_keep
    | with_reducible apply State.putFire_keep
    | (simp only [notLimit, R.actDropEvt, R.actStatus] <;> omega)
    | split

theorem State.indexEdge_keep {s0 s : State} {x1} (h : Keep s0 s) : Keep s0 (State.indexEdge s x1) := by
  unfold State.indexEdge
  repeat' first
    | with_reducible assumption
    | with_reducible apply Keep.setNat
    | (simp only [notLimit, R.lckIdx0, R.lckIdx1] <;> omega)
    | split

theorem State.mainsEdge_keep {s0 s : State} {x1} (h : Keep s0 s) : Keep s0 (State.mainsEdge s x1) := by
  unfold State.mainsEdge
  repeat' first
    | with_reducible assumption
    | (dsimp only)
    | with_reducible apply Keep.setF
    | with_reducible apply State.dacStrobe_keep
    | (simp only [notLimit, R.lckCfg, R.lckMains] <;> omega)
    | split
    | fail_if_no_progress (with_reducible refine Keep.hidden ?_ rfl rfl)

theorem State.mainsGone_keep {s0 s : State} (h : Keep s0 s) : Keep s0 (State.mainsGone s) := by
  unfold State.mainsGone
  repeat' first
    | with_reducible assumption
    | with_reducible apply Keep.raise
    | with_reducible apply Keep.setF
    | with_reducible apply State.report_keep
    | (simp only [notLimit, R.lckMains, R.lckMainsEvt, R.lckStatus] <;> omega)
    | split
    | fail_if_no_progress (with_reducible refine Keep.hidden ?_ rfl rfl)

theorem State.pulseEnd_keep {s0 s : State} {x1} (h : Keep s0 s) : Keep s0 (State.pulseEnd s x1) := by
  unfold State.pulseEnd
  repeat' first
    | with_reducible assumption
    | with_reducible apply State.putOuts_keep
    | split

theorem State.scheduledOutput_keep {s0 s : State} {x1} (h : Keep s0 s) : Keep s0 (State.scheduledOutput s x1) := by
  unfold State.scheduledOutput
  repeat' first
    | with_reducible assumption
    | with_reducible apply State.runOuts_keep
    | with_reducible apply State.putOuts_keep
    | split

theorem State.velocityUpdate_keep {s0 s : State} {x1} (h : Keep s0 s) : Keep s0 (State.velocityUpdate s x1) := by
  unfold State.velocityUpdate
  repeat' first
    | with_reducible assumption
    | with_reducible apply Keep.setNat
    | with_reducible apply State.setEnc_keep
    | with_reducible apply velReg_free

theorem State.widthCut_keep {s0 s : State} {x1} (h : Keep s0 s) : Keep s0 (State.widthCut s x1) := by
  unfold State.widthCut
  repeat' first
    | with_reducible assumption
    | (intro _ _ _)
    | with_reducible apply Keep.raise
    | with_reducible apply State.putOuts_keep
    | with_reducible apply Keep.foldl
    | (simp only [notLimit, R.actStatus, R.actWcutEvt] <;> omega)
    | split

theorem State.writeEvent_keep {s0 s : State} {x1} (h : Keep s0 s) : Keep s0 (State.writeEvent s x1) := by
  unfold State.writeEvent
  repeat' first
    | with_reducible assumption
    | with_reducible apply State.armOuts_keep
    | with_reducible apply State.refreshGpio_keep
    | with_reducible apply State.takeSlot_keep
    | split
    | (with_reducible refine pair_l ‹State.armOuts _ _ _ = _› ?_)

end Sys2Proof.Machine
end

