-- ==== Sys2Proof/Laws/KeepHost.lean ====
section
/-! SUPPORT. `Keep` for register writes, the debug port, faults, the mailbox, SDIO and the tick: every function of these modules keeps what `Keep` names. -/

set_option linter.all false

namespace Sys2Proof.Machine

theorem State.writeCore_keep {s0 s : State} {x1 x2} (h : Keep s0 s) : Keep s0 (State.writeCore s x1 x2) := by
  unfold State.writeCore
  repeat' first
    | with_reducible assumption
    | (dsimp only)
    | with_reducible apply Keep.setF
    | with_reducible apply State.testStart_keep
    | with_reducible apply State.shadowWrite_keep
    | with_reducible apply State.tilCtrlWrite_keep
    | with_reducible apply State.commit_keep
    | with_reducible apply Keep.storeWord
    | (simp only [notLimit] <;> omega)
    | split

theorem State.writeDomReq_keep {s0 s : State} {x1 x2} (h : Keep s0 s) : Keep s0 (State.writeDomReq s x1 x2) := by
  unfold State.writeDomReq
  repeat' first
    | with_reducible assumption
    | (intro _ _ _)
    | with_reducible apply State.wakeReq_keep
    | with_reducible apply State.gateReq_keep
    | with_reducible apply Keep.foldl
    | split

theorem State.writeActCtrl_keep {s0 s : State} {x1} (h : Keep s0 s) : Keep s0 (State.writeActCtrl s x1) := by
  unfold State.writeActCtrl
  repeat' first
    | with_reducible assumption
    | with_reducible apply Keep.storeWord
    | with_reducible apply State.enterSafe_keep
    | with_reducible apply State.leaveSafe_keep
    | split

theorem State.writeCxCtrl_keep {s0 s : State} {x1 x2} (h : Keep s0 s) : Keep s0 (State.writeCxCtrl s x1 x2) := by
  unfold State.writeCxCtrl
  repeat' first
    | with_reducible assumption
    | (dsimp only)
    | with_reducible apply Keep.setF
    | with_reducible apply State.suspendCtx_keep
    | with_reducible apply State.resumeCtx_keep
    | with_reducible apply State.wantTeardown_keep
    | (simp only [notLimit, R.dspCxCtrl] <;> omega)
    | split

theorem State.writePrtCtrl_keep {s0 s : State} {x1 x2} (h : Keep s0 s) : Keep s0 (State.writePrtCtrl s x1 x2) := by
  unfold State.writePrtCtrl
  repeat' first
    | with_reducible assumption
    | (dsimp only)
    | with_reducible apply Keep.setReg
    | with_reducible apply State.enablePort_keep
    | with_reducible apply State.disablePort_keep
    | (simp only [notLimit, R.prtCtrl] <;> omega)
    | split

theorem State.writeCvCmd_keep {s0 s : State} {x1 x2} (h : Keep s0 s) : Keep s0 (State.writeCvCmd s x1 x2) := by
  unfold State.writeCvCmd
  repeat' first
    | with_reducible assumption
    | with_reducible apply State.convTrigger_keep
    | with_reducible apply State.urgentReq_keep
    | with_reducible apply State.selfcalReq_keep
    | split

theorem State.writeUnit_keep {s0 s : State} {x1 x2} (h : Keep s0 s) : Keep s0 (State.writeUnit s x1 x2) := by
  unfold State.writeUnit
  extract_lets
  repeat' first
    | with_reducible assumption
    | with_reducible refine Keep.ite' (fun e => ?_) (fun _ => ?_)
    | (subst_vars; with_reducible refine Keep.setLock ?_ (by decide) (by decide))
    | with_reducible apply Keep.storeWord
    | with_reducible apply State.writeDomReq_keep
    | with_reducible apply State.writeActCtrl_keep
    | with_reducible apply State.refreshGpio_keep
    | with_reducible apply State.dacStrobe_keep
    | with_reducible apply State.dacRun_keep
    | with_reducible apply State.doStep_keep
    | with_reducible apply State.writeCxCtrl_keep
    | with_reducible apply State.popRecord_keep
    | with_reducible apply State.writePrtCtrl_keep
    | with_reducible apply State.cvWrite_keep
    | with_reducible apply State.convCtrl_keep
    | with_reducible apply State.writeCvCmd_keep
    | with_reducible apply State.snapshot_keep
    | (subst_vars; with_reducible apply Keep.setF)
    | (simp only [notLimit, R.dspCtrl, R.stkFreeLow] <;> omega)

theorem State.fwWrite_keep {s0 s : State} {x1 x2} (h : Keep s0 s) : Keep s0 (State.fwWrite s x1 x2) := by
  unfold State.fwWrite
  repeat' first
    | with_reducible assumption
    | with_reducible apply State.writeCore_keep
    | with_reducible apply State.writeUnit_keep
    | split

theorem State.debugCert_keep {s0 s : State} {x1} (h : Keep s0 s) : Keep s0 (State.debugCert s x1) := by
  unfold State.debugCert
  repeat' first
    | with_reducible assumption
    | (dsimp only)
    | with_reducible apply Keep.setF
    | with_reducible apply State.report_keep
    | (simp only [notLimit, R.idBoot] <;> omega)
    | split
    | fail_if_no_progress (with_reducible refine Keep.hidden ?_ rfl rfl)

theorem State.setIr_keep {s0 s : State} {x1} (h : Keep s0 s) : Keep s0 (State.setIr s x1) := by
  unfold State.setIr
  repeat' first
    | with_reducible assumption
    | fail_if_no_progress (with_reducible refine Keep.hidden ?_ rfl rfl)

theorem State.fenceHang_keep {s0 s : State} {x1} (h : Keep s0 s) : Keep s0 (State.fenceHang s x1) := by
  unfold State.fenceHang
  repeat' first
    | with_reducible assumption
    | with_reducible apply State.setLadder_keep
    | with_reducible apply State.startDrr_keep
    | with_reducible apply State.report_keep
    | split

theorem State.teardownLate_keep {s0 s : State} {x1} (h : Keep s0 s) : Keep s0 (State.teardownLate s x1) := by
  unfold State.teardownLate
  repeat' first
    | with_reducible assumption
    | (dsimp only)
    | with_reducible apply State.ctxFaulted_keep
    | with_reducible apply State.startDrr_keep
    | split

theorem State.watchdog_keep {s0 s : State} {x1} (h : Keep s0 s) : Keep s0 (State.watchdog s x1) := by
  unfold State.watchdog
  repeat' first
    | with_reducible assumption
    | with_reducible apply State.startDrr_keep
    | with_reducible apply State.report_keep
    | split
    | fail_if_no_progress (with_reducible refine Keep.hidden ?_ rfl rfl)

theorem State.doReboot_keep {s0 s : State} (h : Keep s0 s) : Keep s0 (State.doReboot s) := by
  unfold State.doReboot
  repeat' first
    | with_reducible assumption
    | with_reducible apply State.domUp_keep
    | with_reducible apply State.aonReset_keep
    | with_reducible apply State.bootRun_keep
    | with_reducible apply State.readHold_keep

theorem State.railsOk_keep {s0 s : State} (h : Keep s0 s) : Keep s0 (State.railsOk s) := by
  unfold State.railsOk
  repeat' first
    | with_reducible assumption
    | (dsimp only)
    | with_reducible apply State.doReboot_keep
    | with_reducible apply State.bootRun_keep
    | split
    | fail_if_no_progress (with_reducible refine Keep.hidden ?_ rfl rfl)

theorem State.railResult_keep {s0 s : State} {x1} (h : Keep s0 s) : Keep s0 (State.railResult s x1) := by
  unfold State.railResult
  repeat' first
    | with_reducible assumption
    | with_reducible apply State.putAside_keep
    | with_reducible apply State.railsOk_keep
    | split
    | fail_if_no_progress (with_reducible refine Keep.hidden ?_ rfl rfl)

theorem State.conversion_keep {s0 s : State} {x1 x2 x3} (h : Keep s0 s) : Keep s0 (State.conversion s x1 x2 x3) := by
  unfold State.conversion
  repeat' first
    | with_reducible assumption
    | (dsimp only)
    | with_reducible apply State.deliverResult_keep
    | with_reducible apply State.railResult_keep
    | with_reducible apply State.orderlyStop_keep
    | with_reducible apply State.report_keep
    | split

theorem State.startRails_keep {s0 s : State} {x1 x2} (h : Keep s0 s) : Keep s0 (State.startRails s x1 x2) := by
  unfold State.startRails
  repeat' first
    | with_reducible assumption
    | with_reducible apply State.putAside_keep
    | split
    | fail_if_no_progress (with_reducible refine Keep.hidden ?_ rfl rfl)

theorem State.longStage_keep {s0 s : State} {x1} (h : Keep s0 s) : Keep s0 (State.longStage s x1) := by
  unfold State.longStage
  repeat' first
    | with_reducible assumption
    | fail_if_no_progress (with_reducible refine Keep.hidden ?_ rfl rfl)

theorem State.longErr_keep {s0 s : State} {x1} (h : Keep s0 s) : Keep s0 (State.longErr s x1) := by
  unfold State.longErr
  repeat' first
    | with_reducible assumption
    | fail_if_no_progress (with_reducible refine Keep.hidden ?_ rfl rfl)

theorem State.abortF2_keep {s0 s : State} (h : Keep s0 s) : Keep s0 (State.abortF2 s) := by
  unfold State.abortF2
  repeat' first
    | with_reducible assumption
    | (dsimp only)
    | with_reducible apply State.closeF2_keep
    | with_reducible apply State.longStage_keep
    | with_reducible apply State.longErr_keep
    | split

theorem State.acceptReboot_keep {s0 s : State} {x1} (h : Keep s0 s) : Keep s0 (State.acceptReboot s x1) := by
  unfold State.acceptReboot
  repeat' first
    | with_reducible assumption
    | with_reducible apply State.answer_keep
    | fail_if_no_progress (with_reducible refine Keep.hidden ?_ rfl rfl)

theorem State.advanceStop_keep {s0 s : State} (h : Keep s0 s) : Keep s0 (State.advanceStop s) := by
  unfold State.advanceStop
  repeat' first
    | with_reducible assumption
    | (dsimp only)
    | with_reducible apply State.longStage_keep
    | with_reducible apply State.enterStandby_keep
    | with_reducible apply State.startSleep_keep
    | with_reducible apply State.enterSleep_keep
    | split

theorem State.mbGetStatus_keep {s0 s : State} {x1} (h : Keep s0 s) : Keep s0 (State.mbGetStatus s x1) := by
  unfold State.mbGetStatus
  repeat' first
    | with_reducible assumption
    | with_reducible apply State.answer_keep

theorem State.sendF2_keep {s0 s : State} {x1 x2 x3 x4} (h : Keep s0 s) : Keep s0 (State.sendF2 s x1 x2 x3 x4) := by
  unfold State.sendF2
  repeat' first
    | with_reducible assumption
    | with_reducible apply State.answer_keep
    | split
    | fail_if_no_progress (with_reducible refine Keep.hidden ?_ rfl rfl)

theorem State.mbReadLog_keep {s0 s : State} {x1} (h : Keep s0 s) : Keep s0 (State.mbReadLog s x1) := by
  unfold State.mbReadLog
  repeat' first
    | with_reducible assumption
    | with_reducible apply State.sendF2_keep
    | with_reducible apply State.reportTorn_keep
    | split

theorem State.sendRec_keep {s0 s : State} {x1 x2 x3} (h : Keep s0 s) : Keep s0 (State.sendRec s x1 x2 x3) := by
  unfold State.sendRec
  repeat' first
    | with_reducible assumption
    | (dsimp only)
    | with_reducible apply State.readRec_keep
    | with_reducible apply State.answer_keep
    | with_reducible apply State.sendF2_keep
    | split

theorem State.mbReadCounters_keep {s0 s : State} {x1} (h : Keep s0 s) : Keep s0 (State.mbReadCounters s x1) := by
  unfold State.mbReadCounters
  repeat' first
    | with_reducible assumption
    | with_reducible apply State.answer_keep
    | with_reducible apply State.sendRec_keep
    | split

theorem State.mbAttest_keep {s0 s : State} {x1} (h : Keep s0 s) : Keep s0 (State.mbAttest s x1) := by
  unfold State.mbAttest
  repeat' first
    | with_reducible assumption
    | with_reducible apply State.sendF2_keep
    | with_reducible apply State.answer_keep
    | split

theorem State.mbAccept_keep {s0 s : State} {m : MbCmd} {go : State → State} (h : Keep s0 s)
    (hg : ∀ t, Keep s0 t → Keep s0 (go t)) : Keep s0 (State.mbAccept s m go) := by
  unfold State.mbAccept
  repeat' first
    | with_reducible assumption
    | with_reducible apply State.answer_keep
    | with_reducible apply State.acceptLong_keep
    | with_reducible apply hg
    | split

theorem State.mbLoadPackage_keep {s0 s : State} {x1} (h : Keep s0 s) : Keep s0 (State.mbLoadPackage s x1) := by
  unfold State.mbLoadPackage
  repeat' first
    | with_reducible assumption
    | (dsimp only)
    | (intro _ _)
    | with_reducible apply State.answer_keep
    | with_reducible apply State.mbAccept_keep
    | with_reducible apply State.longErr_keep
    | with_reducible apply State.takePackage_keep
    | with_reducible apply State.setStage_keep
    | split

theorem State.mbProgramModel_keep {s0 s : State} {x1} (h : Keep s0 s) : Keep s0 (State.mbProgramModel s x1) := by
  unfold State.mbProgramModel
  repeat' first
    | with_reducible assumption
    | (dsimp only)
    | (intro _ _)
    | with_reducible apply State.answer_keep
    | with_reducible apply State.mbAccept_keep
    | with_reducible apply State.longErr_keep
    | with_reducible apply State.wantModel_keep
    | split
    | fail_if_no_progress (with_reducible refine Keep.hidden ?_ rfl rfl)

theorem State.mbSetGraft_keep {s0 s : State} {x1} (h : Keep s0 s) : Keep s0 (State.mbSetGraft s x1) := by
  unfold State.mbSetGraft
  repeat' first
    | with_reducible assumption
    | (intro _ _)
    | with_reducible apply State.answer_keep
    | with_reducible apply State.mbAccept_keep
    | with_reducible apply State.longStage_keep
    | with_reducible apply State.longErr_keep
    | with_reducible apply State.openF2_keep
    | split

theorem State.mbStartLine_keep {s0 s : State} {x1} (h : Keep s0 s) : Keep s0 (State.mbStartLine s x1) := by
  unfold State.mbStartLine
  repeat' first
    | with_reducible assumption
    | (dsimp only)
    | (intro _ _)
    | with_reducible apply State.answer_keep
    | with_reducible apply State.mbAccept_keep
    | with_reducible apply State.longErr_keep
    | with_reducible apply State.leaveStandby_keep
    | with_reducible apply State.startLines_keep
    | split

theorem State.mbStopLine_keep {s0 s : State} {x1} (h : Keep s0 s) : Keep s0 (State.mbStopLine s x1) := by
  unfold State.mbStopLine
  repeat' first
    | with_reducible assumption
    | (dsimp only)
    | (intro _ _ _)
    | (intro _ _)
    | with_reducible apply Keep.setF
    | with_reducible apply State.answer_keep
    | with_reducible apply State.mbAccept_keep
    | with_reducible apply State.wantTeardown_keep
    | with_reducible apply State.drained_keep
    | with_reducible apply State.advanceStop_keep
    | with_reducible apply Keep.foldl
    | (simp only [notLimit, R.dspCxState] <;> omega)
    | split

theorem State.mbFenceCore_keep {s0 s : State} {x1} (h : Keep s0 s) : Keep s0 (State.mbFenceCore s x1) := by
  unfold State.mbFenceCore
  repeat' first
    | with_reducible assumption
    | (intro _ _)
    | with_reducible apply State.answer_keep
    | with_reducible apply State.mbAccept_keep
    | with_reducible apply State.rung3_keep
    | split

theorem State.mbFlashWrite_keep {s0 s : State} {x1} (h : Keep s0 s) : Keep s0 (State.mbFlashWrite s x1) := by
  unfold State.mbFlashWrite
  repeat' first
    | with_reducible assumption
    | (dsimp only)
    | (intro _ _)
    | with_reducible apply State.answer_keep
    | with_reducible apply State.mbAccept_keep
    | with_reducible apply State.longStage_keep
    | with_reducible apply State.openF2_keep
    | split

theorem State.mbReboot_keep {s0 s : State} {x1} (h : Keep s0 s) : Keep s0 (State.mbReboot s x1) := by
  unfold State.mbReboot
  repeat' first
    | with_reducible assumption
    | with_reducible apply State.answer_keep
    | with_reducible apply State.acceptReboot_keep
    | split

theorem State.mbRun_keep {s0 s : State} {x1} (h : Keep s0 s) : Keep s0 (State.mbRun s x1) := by
  unfold State.mbRun
  repeat' first
    | with_reducible assumption
    | with_reducible apply State.mbGetStatus_keep
    | with_reducible apply State.mbReadLog_keep
    | with_reducible apply State.mbReadCounters_keep
    | with_reducible apply State.mbAttest_keep
    | with_reducible apply State.mbLoadPackage_keep
    | with_reducible apply State.mbProgramModel_keep
    | with_reducible apply State.mbSetGraft_keep
    | with_reducible apply State.mbStartLine_keep
    | with_reducible apply State.mbStopLine_keep
    | with_reducible apply State.mbFenceCore_keep
    | with_reducible apply State.mbFlashWrite_keep
    | with_reducible apply State.mbReboot_keep
    | split

theorem State.mailbox_keep {s0 s : State} {x1} (h : Keep s0 s) : Keep s0 (State.mailbox s x1) := by
  unfold State.mailbox
  repeat' first
    | with_reducible assumption
    | (dsimp only)
    | with_reducible apply State.answer_keep
    | with_reducible apply State.startRails_keep
    | with_reducible apply State.mbRun_keep
    | split

theorem State.doorbell_keep {s0 s : State} (h : Keep s0 s) : Keep s0 (State.doorbell s) := by
  unfold State.doorbell
  repeat' first
    | with_reducible assumption
    | with_reducible apply State.discard_keep
    | with_reducible apply State.mailbox_keep
    | with_reducible apply State.answer_keep
    | split

theorem State.goReboot_keep {s0 s : State} (h : Keep s0 s) : Keep s0 (State.goReboot s) := by
  unfold State.goReboot
  repeat' first
    | with_reducible assumption
    | (dsimp only)
    | with_reducible apply State.startRails_keep
    | with_reducible apply State.doReboot_keep
    | split
    | fail_if_no_progress (with_reducible refine Keep.hidden ?_ rfl rfl)

theorem State.replyDone_keep {s0 s : State} (h : Keep s0 s) : Keep s0 (State.replyDone s) := by
  unfold State.replyDone
  repeat' first
    | with_reducible assumption
    | (dsimp only)
    | with_reducible apply Keep.setF
    | with_reducible apply State.placeReply_keep
    | with_reducible apply State.goReboot_keep
    | (simp only [notLimit, R.sdmMbState] <;> omega)
    | split
    | fail_if_no_progress (with_reducible refine Keep.hidden ?_ rfl rfl)

theorem State.flashWrite_keep {s0 s : State} {x1 x2} (h : Keep s0 s) : Keep s0 (State.flashWrite s x1 x2) := by
  unfold State.flashWrite
  repeat' first
    | with_reducible assumption
    | (dsimp only)
    | with_reducible apply Keep.setF
    | (simp only [notLimit, R.idBoot] <;> omega)
    | split
    | fail_if_no_progress (with_reducible refine Keep.hidden ?_ rfl rfl)

theorem State.f2Complete_keep {s0 s : State} (h : Keep s0 s) : Keep s0 (State.f2Complete s) := by
  unfold State.f2Complete
  repeat' first
    | with_reducible assumption
    | (dsimp only)
    | with_reducible apply State.closeF2_keep
    | with_reducible apply State.longStage_keep
    | with_reducible apply State.longErr_keep
    | with_reducible apply State.writeRec_keep
    | with_reducible apply State.flashWrite_keep
    | split

theorem State.f2Read_keep {s0 s : State} {x1} (h : Keep s0 s) : Keep s0 (State.f2Read s x1) := by
  unfold State.f2Read
  repeat' first
    | with_reducible assumption
    | (dsimp only)
    | with_reducible apply Keep.setNat
    | with_reducible apply State.emit_keep
    | with_reducible apply State.closeF2_keep
    | with_reducible apply State.f2Overrun_keep
    | (simp only [notLimit, R.sdmF2Left] <;> omega)
    | split
    | fail_if_no_progress (with_reducible refine Keep.hidden ?_ rfl rfl)

theorem State.f2Write_keep {s0 s : State} {x1} (h : Keep s0 s) : Keep s0 (State.f2Write s x1) := by
  unfold State.f2Write
  repeat' first
    | with_reducible assumption
    | (dsimp only)
    | with_reducible apply Keep.setNat
    | with_reducible apply State.f2Complete_keep
    | with_reducible apply State.f2Overrun_keep
    | (simp only [notLimit, R.sdmF2Left] <;> omega)
    | split
    | fail_if_no_progress (with_reducible refine Keep.hidden ?_ rfl rfl)

theorem State.finalReply_keep {s0 s : State} (h : Keep s0 s) : Keep s0 (State.finalReply s) := by
  unfold State.finalReply
  repeat' first
    | with_reducible assumption
    | (dsimp only)
    | with_reducible apply State.advanceStop_keep
    | with_reducible apply State.finalLong_keep
    | split

theorem State.mbRow_keep {s0 s : State} {x1 x2 x3 x4} (h : Keep s0 s) : Keep s0 (State.mbRow s x1 x2 x3 x4) := by
  unfold State.mbRow
  repeat' first
    | with_reducible assumption
    | with_reducible apply State.doorbell_keep
    | split
    | fail_if_no_progress (with_reducible refine Keep.hidden ?_ rfl rfl)

theorem State.rebootLate_keep {s0 s : State} (h : Keep s0 s) : Keep s0 (State.rebootLate s) := by
  unfold State.rebootLate
  repeat' first
    | with_reducible assumption
    | with_reducible apply State.goReboot_keep
    | split

theorem State.dropPartial_keep {s0 s : State} {x1} (h : Keep s0 s) : Keep s0 (State.dropPartial s x1) := by
  unfold State.dropPartial
  repeat' first
    | with_reducible assumption
    | with_reducible apply State.discard_keep
    | split
    | fail_if_no_progress (with_reducible refine Keep.hidden ?_ rfl rfl)

theorem State.f0Write_keep {s0 s : State} {x1 x2} (h : Keep s0 s) : Keep s0 (State.f0Write s x1 x2) := by
  unfold State.f0Write
  repeat' first
    | with_reducible assumption
    | (dsimp only)
    | split
    | fail_if_no_progress (with_reducible refine Keep.hidden ?_ rfl rfl)

theorem State.readEffect_keep {s0 s : State} {x1} (h : Keep s0 s) : Keep s0 (State.readEffect s x1) := by
  unfold State.readEffect
  repeat' first
    | with_reducible assumption
    | with_reducible apply State.capture_keep
    | with_reducible apply State.setEnc_keep
    | split
    | fail_if_no_progress (with_reducible refine Keep.hidden ?_ rfl rfl)

theorem State.latchRead_keep {s0 s : State} {x1} (h : Keep s0 s) : Keep s0 (State.latchRead s x1) := by
  unfold State.latchRead
  repeat' first
    | with_reducible assumption
    | (dsimp only)
    | with_reducible apply State.readEffect_keep
    | split
    | fail_if_no_progress (with_reducible refine Keep.hidden ?_ rfl rfl)

theorem State.f1Read_keep {s0 s : State} {x1} (h : Keep s0 s) : Keep s0 (State.f1Read s x1) := by
  unfold State.f1Read
  repeat' first
    | with_reducible assumption
    | (dsimp only)
    | with_reducible apply State.latchRead_keep
    | split

theorem State.writeMbCtrl_keep {s0 s : State} {x1} (h : Keep s0 s) : Keep s0 (State.writeMbCtrl s x1) := by
  unfold State.writeMbCtrl
  repeat' first
    | with_reducible assumption
    | with_reducible apply State.doorbell_keep
    | with_reducible apply State.replyDone_keep
    | with_reducible apply State.abortF2_keep
    | split

theorem State.hostWrite_keep {s0 s : State} {x1 x2} (h : Keep s0 s) : Keep s0 (State.hostWrite s x1 x2) := by
  unfold State.hostWrite
  repeat' first
    | with_reducible apply Keep.setF
    | with_reducible apply Keep.clearBits
    | with_reducible apply Keep.setReg
    | with_reducible apply State.writeMbCtrl_keep
    | with_reducible apply State.discard_keep
    | with_reducible apply State.fwWrite_keep
    | (simp only [notLimit, R.fltHostIntEn, R.fltHostStatus, R.monSnapSel, R.sdmHostIntEn, R.sdmHostStatus, R.sdmMbCtrl, R.sdmPage] at * <;> omega)
    | split
    | fail_if_no_progress (with_reducible refine Keep.hidden ?_ rfl rfl)

theorem State.f1Write_keep {s0 s : State} {x1 x2} (h : Keep s0 s) : Keep s0 (State.f1Write s x1 x2) := by
  unfold State.f1Write
  repeat' first
    | with_reducible assumption
    | (dsimp only)
    | with_reducible apply State.dropPartial_keep
    | with_reducible apply State.hostWrite_keep
    | split
    | fail_if_no_progress (with_reducible refine Keep.hidden ?_ rfl rfl)

theorem State.f1WriteRun_keep {s0 s : State} {x0 x1 x2} (h : Keep s0 s) : Keep s0 (State.f1WriteRun x0 x1 x2 s) := by
  induction x2 generalizing s x0 x1 <;> unfold State.f1WriteRun <;> try dsimp only
  all_goals repeat' first
    | with_reducible apply State.f1Write_keep
    | with_reducible apply_assumption


theorem State.statusClear_keep {s0 s : State} {x1 x2 x3 x4} (h : Keep s0 s) : Keep s0 (State.statusClear s x1 x2 x3 x4) := by
  unfold State.statusClear
  repeat' first
    | with_reducible assumption
    | (dsimp only)
    | with_reducible apply Keep.clearBits
    | with_reducible apply State.discard_keep
    | with_reducible apply Keep.setStatus
    | with_reducible apply statusAddr_free
    | split

theorem State.dacTick_keep {s0 s : State} (h : Keep s0 s) : Keep s0 (State.dacTick s) := by
  unfold State.dacTick
  repeat' first
    | with_reducible assumption
    | (intro _ _ _)
    | with_reducible apply State.dacStep_keep
    | with_reducible apply State.dacSample_keep
    | with_reducible apply Keep.foldl
    | split

theorem State.dacTicks_keep {s0 s : State} {x0} (h : Keep s0 s) : Keep s0 (State.dacTicks x0 s) := by
  induction x0 generalizing s <;> unfold State.dacTicks <;> try dsimp only
  all_goals repeat' first
    | with_reducible apply State.dacTick_keep
    | with_reducible apply_assumption

theorem State.idleTick_keep {s0 s : State} (h : Keep s0 s) : Keep s0 (State.idleTick s) := by
  unfold State.idleTick
  repeat' first
    | with_reducible assumption
    | fail_if_no_progress (with_reducible refine Keep.hidden ?_ rfl rfl)

/-- A microsecond keeps what every command keeps, but for the time. -/
theorem State.tick_keep (s : State) : Keep { s with timeUs := s.timeUs + 1 } s.tick := by
  unfold State.tick State.idleTick
  exact State.dacTicks_keep (Keep.hidden (Keep.refl _) rfl rfl)

end Sys2Proof.Machine
end

