-- ==== Sys2Proof/Laws/KeepExec.lean ====
section
/-! SUPPORT. `Keep` for each command's meaning, and exec as a whole: every function of these modules keeps what `Keep` names. -/

set_option linter.all false

namespace Sys2Proof.Machine

/-- Every next state that an outcome answers is kept. -/
structure OutKeep (s : State) (o : Out) : Prop where
  keeps : ∀ t, o = .next t → Keep s t

theorem OutKeep.next {s t : State} (h : Keep s t) : OutKeep s (.next t) := ⟨fun u e => by cases e; exact h⟩

theorem execGetStatus_keep {s : State} {tag params f2len} : OutKeep s (execGetStatus tag params f2len s) :=
  .next (State.mbRow_keep (Keep.refl _))

theorem execReadLog_keep {s : State} {tag params f2len} : OutKeep s (execReadLog tag params f2len s) :=
  .next (State.mbRow_keep (Keep.refl _))

theorem execReadCounters_keep {s : State} {tag params f2len} : OutKeep s (execReadCounters tag params f2len s) :=
  .next (State.mbRow_keep (Keep.refl _))

theorem execAttest_keep {s : State} {tag params f2len} : OutKeep s (execAttest tag params f2len s) :=
  .next (State.mbRow_keep (Keep.refl _))

theorem execLoadPackage_keep {s : State} {tag params f2len} : OutKeep s (execLoadPackage tag params f2len s) :=
  .next (State.mbRow_keep (Keep.refl _))

theorem execProgramModel_keep {s : State} {tag params f2len} : OutKeep s (execProgramModel tag params f2len s) :=
  .next (State.mbRow_keep (Keep.refl _))

theorem execSetGraft_keep {s : State} {tag params f2len} : OutKeep s (execSetGraft tag params f2len s) :=
  .next (State.mbRow_keep (Keep.refl _))

theorem execStartLine_keep {s : State} {tag params f2len} : OutKeep s (execStartLine tag params f2len s) :=
  .next (State.mbRow_keep (Keep.refl _))

theorem execStopLine_keep {s : State} {tag params f2len} : OutKeep s (execStopLine tag params f2len s) :=
  .next (State.mbRow_keep (Keep.refl _))

theorem execFenceCore_keep {s : State} {tag params f2len} : OutKeep s (execFenceCore tag params f2len s) :=
  .next (State.mbRow_keep (Keep.refl _))

theorem execFlashWrite_keep {s : State} {tag params f2len} : OutKeep s (execFlashWrite tag params f2len s) :=
  .next (State.mbRow_keep (Keep.refl _))

theorem execReboot_keep {s : State} {tag params f2len} : OutKeep s (execReboot tag params f2len s) :=
  .next (State.mbRow_keep (Keep.refl _))

theorem execReplyDone_keep {s : State} : OutKeep s (execReplyDone s) := by
  unfold execReplyDone
  repeat' first
    | with_reducible apply OutKeep.next
    | with_reducible exact Keep.refl _
    | with_reducible apply State.replyDone_keep
    | split

theorem execRebootTimeout_keep {s : State} : OutKeep s (execRebootTimeout s) :=
  .next (State.rebootLate_keep (Keep.refl _))

theorem execFinalReply_keep {s : State} : OutKeep s (execFinalReply s) :=
  .next (State.finalReply_keep (Keep.refl _))

theorem execF2Abort_keep {s : State} : OutKeep s (execF2Abort s) := by
  unfold execF2Abort
  repeat' first
    | with_reducible apply OutKeep.next
    | with_reducible exact Keep.refl _
    | with_reducible apply State.abortF2_keep
    | split

theorem execF2Transfer_keep {s : State} {op} : OutKeep s (execF2Transfer op s) := by
  unfold execF2Transfer
  repeat' first
    | with_reducible apply OutKeep.next
    | with_reducible exact Keep.refl _
    | with_reducible apply State.f2Write_keep
    | with_reducible apply State.f2Read_keep
    | split

theorem execRegisterWrite_keep {s : State} {w} : OutKeep s (execRegisterWrite w s) := by
  unfold execRegisterWrite
  repeat' first
    | with_reducible apply OutKeep.next
    | with_reducible exact Keep.refl _
    | with_reducible apply State.f1WriteRun_keep
    | with_reducible apply State.fwWrite_keep
    | split

theorem execReadLatchCapture_keep {s : State} {addr} : OutKeep s (execReadLatchCapture addr s) := by
  unfold execReadLatchCapture
  repeat' first
    | with_reducible apply OutKeep.next
    | with_reducible exact Keep.refl _
    | with_reducible apply State.f1Read_keep
    | split

theorem execLoReadCapture_keep {s : State} {r} : OutKeep s (execLoReadCapture r s) :=
  .next (State.capture_keep (Keep.refl _))

theorem execCmd5_keep {s : State} : OutKeep s (execCmd5 s) :=
  .next (State.emit_keep (Keep.refl _))

theorem execCmd11_keep {s : State} : OutKeep s (execCmd11 s) := by
  unfold execCmd11
  repeat' first
    | with_reducible apply OutKeep.next
    | with_reducible exact Keep.refl _
    | dsimp only
    | split
    | fail_if_no_progress (with_reducible refine Keep.hidden ?_ rfl rfl)

theorem execCmd19_keep {s : State} : OutKeep s (execCmd19 s) := by
  unfold execCmd19
  refine .next ?_
  split
  · exact State.emit_keep (Keep.refl _)
  · exact Keep.refl _

theorem execStatusBitClear_keep {s : State} {r mask setNow who} : OutKeep s (execStatusBitClear r mask setNow who s) :=
  .next (State.statusClear_keep (Keep.refl _))

theorem execTilCtrlWrite_keep {s : State} {c t value} : OutKeep s (execTilCtrlWrite c t value s) := by
  unfold execTilCtrlWrite
  repeat' first
    | with_reducible apply OutKeep.next
    | with_reducible exact Keep.refl _
    | with_reducible apply State.tilCtrlWrite_keep
    | split

theorem execTestStart_keep {s : State} {c value} : OutKeep s (execTestStart c value s) := by
  unfold execTestStart
  repeat' first
    | with_reducible apply OutKeep.next
    | with_reducible exact Keep.refl _
    | with_reducible apply State.testStart_keep
    | split

theorem execTestComplete_keep {s : State} {c reps} : OutKeep s (execTestComplete c reps s) :=
  .next (State.testDone_keep (Keep.refl _))

theorem execCommit_keep {s : State} {c t} : OutKeep s (execCommit c t s) := by
  unfold execCommit
  repeat' first
    | with_reducible apply OutKeep.next
    | with_reducible exact Keep.refl _
    | with_reducible apply State.commit_keep
    | split

theorem execShadowWrite_keep {s : State} {c value} : OutKeep s (execShadowWrite c value s) := by
  unfold execShadowWrite
  repeat' first
    | with_reducible apply OutKeep.next
    | with_reducible exact Keep.refl _
    | with_reducible apply State.shadowWrite_keep
    | split

theorem execHwClr_keep {s : State} {c} : OutKeep s (execHwClr c s) := by
  unfold execHwClr
  try dsimp only
  repeat' first
    | with_reducible apply OutKeep.next
    | with_reducible exact Keep.refl _
    | with_reducible assumption
    | (dsimp only)
    | (intro _ _ _)
    | (intro _ _)
    | with_reducible apply Keep.setF
    | with_reducible apply Keep.foldl
    | with_reducible apply Keep.foldl_fst
    | with_reducible apply Keep.foldl_snd
    | (simp only [notLimit, R.accOcc] <;> omega)
    | split

theorem execLwClr_keep {s : State} : OutKeep s (execLwClr s) := by
  unfold execLwClr
  try dsimp only
  repeat' first
    | with_reducible apply OutKeep.next
    | with_reducible exact Keep.refl _
    | with_reducible assumption
    | (dsimp only)
    | (intro _ _ _)
    | (intro _ _)
    | with_reducible apply Keep.setF
    | with_reducible apply Keep.foldl
    | with_reducible apply Keep.foldl_fst
    | with_reducible apply Keep.foldl_snd
    | (simp only [notLimit, R.stkFreeLow] <;> omega)
    | split

theorem execTeardown_keep {s : State} {x} : OutKeep s (execTeardown x s) := by
  unfold execTeardown
  repeat' first
    | with_reducible apply OutKeep.next
    | with_reducible exact Keep.refl _
    | with_reducible apply State.wantTeardown_keep
    | split

theorem execTeardownDeferred_keep {s : State} {x} : OutKeep s (execTeardownDeferred x s) :=
  .next (State.deferredTeardown_keep (Keep.refl _))

theorem execSuspend_keep {s : State} {x} : OutKeep s (execSuspend x s) :=
  .next (State.suspendCtx_keep (Keep.refl _))

theorem execSave_keep {s : State} {x} : OutKeep s (execSave x s) :=
  .next (State.saveCtx_keep (Keep.refl _))

theorem execResume_keep {s : State} {x} : OutKeep s (execResume x s) :=
  .next (State.resumeCtx_keep (Keep.refl _))

theorem execSafe_keep {s : State} : OutKeep s (execSafe s) :=
  .next (State.enterSafe_keep (Keep.refl _))

theorem execRelease_keep {s : State} : OutKeep s (execRelease s) :=
  .next (State.leaveSafe_keep (Keep.refl _))

theorem execLoadStrobe_keep {s : State} : OutKeep s (execLoadStrobe s) :=
  .next (State.dacStrobe_keep (Keep.refl _))

theorem execDacRun_keep {s : State} {run} : OutKeep s (execDacRun run s) :=
  .next (State.dacRun_keep (Keep.refl _))

theorem execSoftTrig_keep {s : State} {x} : OutKeep s (execSoftTrig x s) :=
  .next (State.convTrigger_keep (Keep.refl _))

theorem execUrgent_keep {s : State} {x} : OutKeep s (execUrgent x s) :=
  .next (State.urgentReq_keep (Keep.refl _))

theorem execSelfcal_keep {s : State} {x} : OutKeep s (execSelfcal x s) :=
  .next (State.selfcalReq_keep (Keep.refl _))

theorem execSelfcalDone_keep {s : State} {x zeros refs} : OutKeep s (execSelfcalDone x zeros refs s) :=
  .next (State.selfcalEnd_keep (Keep.refl _))

theorem execSnap_keep {s : State} {set value} : OutKeep s (execSnap set value s) :=
  .next (State.snapshot_keep (Keep.refl _))

theorem execMonCvCtrlWrite_keep {s : State} {x value} : OutKeep s (execMonCvCtrlWrite x value s) :=
  .next (State.convCtrl_keep (Keep.refl _))

theorem execPwrLock_keep {s : State} : OutKeep s (execPwrLock s) := by
  unfold execPwrLock
  try dsimp only
  repeat' first
    | with_reducible apply OutKeep.next
    | with_reducible refine Keep.setLock ?_ (by decide) (by decide)
    | with_reducible exact Keep.refl _
    | with_reducible assumption
    | (dsimp only)
    | (intro _ _ _)
    | (intro _ _)
    | with_reducible apply Keep.setF
    | with_reducible apply Keep.foldl
    | with_reducible apply Keep.foldl_fst
    | with_reducible apply Keep.foldl_snd
    | (simp only [notLimit, R.pwrLock, R.secLock] <;> omega)
    | split

theorem execThmLock_keep {s : State} : OutKeep s (execThmLock s) := by
  unfold execThmLock
  try dsimp only
  repeat' first
    | with_reducible apply OutKeep.next
    | with_reducible refine Keep.setLock ?_ (by decide) (by decide)
    | with_reducible exact Keep.refl _
    | with_reducible assumption
    | (dsimp only)
    | (intro _ _ _)
    | (intro _ _)
    | with_reducible apply Keep.setF
    | with_reducible apply Keep.foldl
    | with_reducible apply Keep.foldl_fst
    | with_reducible apply Keep.foldl_snd
    | (simp only [notLimit, R.secLock, R.thmLock] <;> omega)
    | split

theorem execSecLock_keep {s : State} : OutKeep s (execSecLock s) := by
  unfold execSecLock
  try dsimp only
  repeat' first
    | with_reducible apply OutKeep.next
    | with_reducible refine Keep.setLock ?_ (by decide) (by decide)
    | with_reducible exact Keep.refl _
    | with_reducible assumption
    | (dsimp only)
    | (intro _ _ _)
    | (intro _ _)
    | with_reducible apply Keep.setF
    | with_reducible apply Keep.foldl
    | with_reducible apply Keep.foldl_fst
    | with_reducible apply Keep.foldl_snd
    | (simp only [notLimit, R.secLock] <;> omega)
    | split

theorem execPop_keep {s : State} : OutKeep s (execPop s) :=
  .next (State.popRecord_keep (Keep.refl _))

theorem execDomainWakeRequest_keep {s : State} {d} : OutKeep s (execDomainWakeRequest d s) :=
  .next (State.wakeReq_keep (Keep.refl _))

theorem execDomainGate_keep {s : State} {d} : OutKeep s (execDomainGate d s) :=
  .next (State.gateReq_keep (Keep.refl _))

theorem execDomainWakeStart_keep {s : State} : OutKeep s (execDomainWakeStart s) :=
  .next (State.wakeStart_keep (Keep.refl _))

theorem execDomainAwake_keep {s : State} {d} : OutKeep s (execDomainAwake d s) :=
  .next (State.awake_keep (Keep.refl _))

theorem execDomainWakeFail_keep {s : State} {d} : OutKeep s (execDomainWakeFail d s) := by
  unfold execDomainWakeFail
  repeat' first
    | with_reducible apply OutKeep.next
    | with_reducible exact Keep.refl _
    | dsimp only
    | with_reducible apply State.rampFail_keep
    | with_reducible apply State.rung3_keep
    | with_reducible apply State.standbyAwake_keep
    | split
    | (with_reducible refine pair_l ‹State.rampFail _ _ = _› ?_)
    | fail_if_no_progress (with_reducible refine Keep.hidden ?_ rfl rfl)

theorem execDispEn_keep {s : State} : OutKeep s (execDispEn s) := by
  unfold execDispEn
  repeat' first
    | with_reducible apply OutKeep.next
    | with_reducible exact Keep.refl _
    | with_reducible apply State.doStep_keep
    | split

theorem execLoadStepAck_keep {s : State} : OutKeep s (execLoadStepAck s) :=
  .next (State.loadAck_keep (Keep.refl _))

theorem execLoadStepTimeout_keep {s : State} : OutKeep s (execLoadStepTimeout s) :=
  .next (State.loadTimeout_keep (Keep.refl _))

theorem execLoadStepReqDeassert_keep {s : State} : OutKeep s (execLoadStepReqDeassert s) :=
  .next (State.loadReqEnd_keep (Keep.refl _))

theorem execSlewRecover_keep {s : State} : OutKeep s (execSlewRecover s) :=
  .next (State.slewBack_keep (Keep.refl _))

theorem execCvSlotWrite_keep {s : State} {p value opening} : OutKeep s (execCvSlotWrite p value opening s) :=
  .next (State.cvWrite_keep (Keep.refl _))

theorem execPortEnable_keep {s : State} {p} : OutKeep s (execPortEnable p s) :=
  .next (State.enablePort_keep (Keep.refl _))

theorem execPortDisable_keep {s : State} {p} : OutKeep s (execPortDisable p s) := by
  unfold execPortDisable
  repeat' first
    | with_reducible apply OutKeep.next
    | with_reducible exact Keep.refl _
    | with_reducible apply State.disablePort_keep
    | split

theorem execEventSlotWrite_keep {s : State} {e} : OutKeep s (execEventSlotWrite e s) :=
  .next (State.writeEvent_keep (Keep.refl _))

theorem execEncoderCount_keep {s : State} {e a b} : OutKeep s (execEncoderCount e a b s) :=
  .next (State.encoderCount_keep (Keep.refl _))

theorem execIndexEdge_keep {s : State} {e} : OutKeep s (execIndexEdge e s) :=
  .next (State.indexEdge_keep (Keep.refl _))

theorem execVelocityUpdate_keep {s : State} {e} : OutKeep s (execVelocityUpdate e s) :=
  .next (State.velocityUpdate_keep (Keep.refl _))

theorem execEncoderStopped_keep {s : State} {e} : OutKeep s (execEncoderStopped e s) :=
  .next (State.encoderStopped_keep (Keep.refl _))

theorem execCutoffCrossing_keep {s : State} {slot} : OutKeep s (execCutoffCrossing slot s) :=
  .next (State.registerCutoff_keep (Keep.refl _))

theorem execScheduledOutput_keep {s : State} {slot} : OutKeep s (execScheduledOutput slot s) :=
  .next (State.scheduledOutput_keep (Keep.refl _))

theorem execPulseWidthEnd_keep {s : State} {slot} : OutKeep s (execPulseWidthEnd slot s) :=
  .next (State.pulseEnd_keep (Keep.refl _))

theorem execWidthCut_keep {s : State} {slot} : OutKeep s (execWidthCut slot s) :=
  .next (State.widthCut_keep (Keep.refl _))

theorem execSync_keep {s : State} {e} : OutKeep s (execSync e s) := by
  unfold execSync
  repeat' first
    | with_reducible apply OutKeep.next
    | with_reducible exact Keep.refl _
    | with_reducible apply State.sendSync_keep
    | split

theorem execSyncHeartbeat_keep {s : State} {e} : OutKeep s (execSyncHeartbeat e s) := by
  unfold execSyncHeartbeat
  repeat' first
    | with_reducible apply OutKeep.next
    | with_reducible exact Keep.refl _
    | with_reducible apply State.sendSync_keep
    | split

theorem execMainsEdge_keep {s : State} {period} : OutKeep s (execMainsEdge period s) :=
  .next (State.mainsEdge_keep (Keep.refl _))

theorem execMainsLost_keep {s : State} : OutKeep s (execMainsLost s) :=
  .next (State.mainsGone_keep (Keep.refl _))

theorem execDecide_keep {s : State} {inst isFloat top} : OutKeep s (execDecide inst isFloat top s) :=
  .next (State.decideDone_keep (Keep.refl _))

theorem execFireRateRelease_keep {s : State} {ap} : OutKeep s (execFireRateRelease ap s) :=
  .next (State.fireRelease_keep (Keep.refl _))

theorem execBlockLock_keep {s : State} {p} : OutKeep s (execBlockLock p s) :=
  .next (State.gotLock_keep (Keep.refl _))

theorem execTrainTimeout_keep {s : State} {p} : OutKeep s (execTrainTimeout p s) :=
  .next (State.trainLate_keep (Keep.refl _))

theorem execLanesDeskewed_keep {s : State} {p} : OutKeep s (execLanesDeskewed p s) := by
  unfold execLanesDeskewed
  repeat' first
    | with_reducible apply OutKeep.next
    | with_reducible exact Keep.refl _
    | with_reducible apply State.enterDiscover_keep
    | split

theorem execAlignTimeout_keep {s : State} {p} : OutKeep s (execAlignTimeout p s) := by
  unfold execAlignTimeout
  repeat' first
    | with_reducible apply OutKeep.next
    | with_reducible exact Keep.refl _
    | with_reducible apply State.enterTrain_keep
    | split

theorem execAccession_keep {s : State} {p f} : OutKeep s (execAccession p f s) :=
  .next (State.rxAccession_keep (Keep.refl _))

theorem execAccessionRepeat_keep {s : State} {p} : OutKeep s (execAccessionRepeat p s) := by
  unfold execAccessionRepeat
  repeat' first
    | with_reducible apply OutKeep.next
    | with_reducible exact Keep.refl _
    | with_reducible apply State.sendAccession_keep
    | split

theorem execAccessionAck_keep {s : State} {p f} : OutKeep s (execAccessionAck p f s) :=
  .next (State.rxAck_keep (Keep.refl _))

theorem execDiscoverTimeout_keep {s : State} {p} : OutKeep s (execDiscoverTimeout p s) := by
  unfold execDiscoverTimeout
  repeat' first
    | with_reducible apply OutKeep.next
    | with_reducible exact Keep.refl _
    | with_reducible apply State.enterTrain_keep
    | split

theorem execRefusedTimeout_keep {s : State} {p} : OutKeep s (execRefusedTimeout p s) := by
  unfold execRefusedTimeout
  repeat' first
    | with_reducible apply OutKeep.next
    | with_reducible exact Keep.refl _
    | with_reducible apply State.enterDiscover_keep
    | split

theorem execBlockLockLost_keep {s : State} {p lanesUp} : OutKeep s (execBlockLockLost p lanesUp s) :=
  .next (State.lockLost_keep (Keep.refl _))

theorem execKeepTimeout_keep {s : State} {p} : OutKeep s (execKeepTimeout p s) := by
  unfold execKeepTimeout
  repeat' first
    | with_reducible apply OutKeep.next
    | with_reducible exact Keep.refl _
    | with_reducible apply State.detach_keep
    | split

theorem execDetach_keep {s : State} {p f} : OutKeep s (execDetach p f s) :=
  .next (State.rxDetach_keep (Keep.refl _))

theorem execKeepalive_keep {s : State} {p} : OutKeep s (execKeepalive p s) := by
  unfold execKeepalive
  repeat' first
    | with_reducible apply OutKeep.next
    | with_reducible exact Keep.refl _
    | with_reducible apply State.sendFrame_keep
    | split

theorem execLine_keep {s : State} {p f} : OutKeep s (execLine p f s) :=
  .next (State.rxLine_keep (Keep.refl _))

theorem execHeadStatus_keep {s : State} {p f} : OutKeep s (execHeadStatus p f s) :=
  .next (State.rxHead_keep (Keep.refl _))

theorem execStatus_keep {s : State} {p f} : OutKeep s (execStatus p f s) :=
  .next (State.rxStatus_keep (Keep.refl _))

theorem execFolioOffer_keep {s : State} {p f m} : OutKeep s (execFolioOffer p f m s) := by
  unfold execFolioOffer
  repeat' first
    | with_reducible apply OutKeep.next
    | with_reducible exact Keep.refl _
    | dsimp only
    | with_reducible apply State.rxPeer_keep
    | with_reducible apply State.gotOffer_keep
    | split
    | (with_reducible refine pair_l ‹State.rxPeer _ _ _ _ = _› ?_)
    | fail_if_no_progress (with_reducible refine Keep.hidden ?_ rfl rfl)

theorem execFolioAccept_keep {s : State} {p f newCall} : OutKeep s (execFolioAccept p f newCall s) := by
  unfold execFolioAccept
  repeat' first
    | with_reducible apply OutKeep.next
    | with_reducible exact Keep.refl _
    | dsimp only
    | with_reducible apply State.rxPeer_keep
    | with_reducible apply State.dropStale_keep
    | with_reducible apply State.gotAccept_keep
    | split
    | (with_reducible refine pair_l ‹State.rxPeer _ _ _ _ = _› ?_)
    | fail_if_no_progress (with_reducible refine Keep.hidden ?_ rfl rfl)

theorem execFolioRefuse_keep {s : State} {p f code} : OutKeep s (execFolioRefuse p f code s) := by
  unfold execFolioRefuse
  repeat' first
    | with_reducible apply OutKeep.next
    | with_reducible exact Keep.refl _
    | dsimp only
    | with_reducible apply State.rxPeer_keep
    | with_reducible apply State.dropStale_keep
    | with_reducible apply State.gotRefuse_keep
    | split
    | (with_reducible refine pair_l ‹State.rxPeer _ _ _ _ = _› ?_)
    | fail_if_no_progress (with_reducible refine Keep.hidden ?_ rfl rfl)

theorem execFolioData_keep {s : State} {p f off data} : OutKeep s (execFolioData p f off data s) := by
  unfold execFolioData
  repeat' first
    | with_reducible apply OutKeep.next
    | with_reducible exact Keep.refl _
    | dsimp only
    | with_reducible apply State.rxPeer_keep
    | with_reducible apply State.gotData_keep
    | split
    | (with_reducible refine pair_l ‹State.rxPeer _ _ _ _ = _› ?_)
    | fail_if_no_progress (with_reducible refine Keep.hidden ?_ rfl rfl)

theorem execFolioDone_keep {s : State} {p f count hash} : OutKeep s (execFolioDone p f count hash s) := by
  unfold execFolioDone
  repeat' first
    | with_reducible apply OutKeep.next
    | with_reducible exact Keep.refl _
    | dsimp only
    | with_reducible apply State.rxPeer_keep
    | with_reducible apply State.gotDone_keep
    | split
    | (with_reducible refine pair_l ‹State.rxPeer _ _ _ _ = _› ?_)
    | fail_if_no_progress (with_reducible refine Keep.hidden ?_ rfl rfl)

theorem execFolioAck_keep {s : State} {p f newCall} : OutKeep s (execFolioAck p f newCall s) := by
  unfold execFolioAck
  repeat' first
    | with_reducible apply OutKeep.next
    | with_reducible exact Keep.refl _
    | dsimp only
    | with_reducible apply State.rxPeer_keep
    | with_reducible apply State.dropStale_keep
    | with_reducible apply State.gotAck_keep
    | split
    | (with_reducible refine pair_l ‹State.rxPeer _ _ _ _ = _› ?_)
    | fail_if_no_progress (with_reducible refine Keep.hidden ?_ rfl rfl)

theorem execXferTimeout_keep {s : State} {entry} : OutKeep s (execXferTimeout entry s) :=
  .next (State.xferLate_keep (Keep.refl _))

theorem execHeartbeat_keep {s : State} {p f} : OutKeep s (execHeartbeat p f s) :=
  .next (State.rxHeartbeat_keep (Keep.refl _))

theorem execHeartbeatPeriod_keep {s : State} : OutKeep s (execHeartbeatPeriod s) :=
  .next (State.heartbeatDue_keep (Keep.refl _))

theorem execHbMiss_keep {s : State} {member} : OutKeep s (execHbMiss member s) :=
  .next (State.missed_keep (Keep.refl _))

theorem execFenceNotice_keep {s : State} {p f} : OutKeep s (execFenceNotice p f s) :=
  .next (State.rxNotice_keep (Keep.refl _))

theorem execFmReturn_keep {s : State} : OutKeep s (execFmReturn s) :=
  .next (State.fmBack_keep (Keep.refl _))

theorem execInstanceRelease_keep {s : State} {c e} : OutKeep s (execInstanceRelease c e s) :=
  .next (State.releaseNext_keep (Keep.refl _))

theorem execInstanceComplete_keep {s : State} {inst op} : OutKeep s (execInstanceComplete inst op s) :=
  .next (State.instanceComplete_keep (Keep.refl _))

theorem execGatherWait_keep {s : State} {x stateOp copy} : OutKeep s (execGatherWait x stateOp copy s) :=
  .next (State.gatherOver_keep (Keep.refl _))

theorem execTaskTimeout_keep {s : State} {inst} : OutKeep s (execTaskTimeout inst s) :=
  .next (State.taskLate_keep (Keep.refl _))

theorem execMvmCycleBoundary_keep {s : State} : OutKeep s (execMvmCycleBoundary s) :=
  .next (State.mvmBoundary_keep (Keep.refl _))

theorem execSliceComplete_keep {s : State} {c t cols pips} : OutKeep s (execSliceComplete c t cols pips s) :=
  .next (State.deliver_keep (Keep.refl _))

theorem execStepRise_keep {s : State} {c t} : OutKeep s (execStepRise c t s) :=
  .next (State.stepRise_keep (Keep.refl _))

theorem execPipWindowClose_keep {s : State} {c t} : OutKeep s (execPipWindowClose c t s) := by
  unfold execPipWindowClose
  repeat' first
    | with_reducible apply OutKeep.next
    | with_reducible exact Keep.refl _
    | with_reducible apply State.closePips_keep
    | split

theorem execEpochMinWait_keep {s : State} {c t} : OutKeep s (execEpochMinWait c t s) :=
  .next (State.epochMinOver_keep (Keep.refl _))

theorem execEpochBoundary_keep {s : State} {c t} : OutKeep s (execEpochBoundary c t s) := by
  unfold execEpochBoundary
  repeat' first
    | with_reducible apply OutKeep.next
    | with_reducible exact Keep.refl _
    | with_reducible apply State.epoch_keep
    | split

theorem execForcedGap_keep {s : State} {c t} : OutKeep s (execForcedGap c t s) := by
  unfold execForcedGap
  repeat' first
    | with_reducible apply OutKeep.next
    | with_reducible exact Keep.refl _
    | dsimp only
    | with_reducible apply State.setTile_keep
    | split
    | fail_if_no_progress (with_reducible refine Keep.hidden ?_ rfl rfl)

theorem execFeedForward_keep {s : State} {c} : OutKeep s (execFeedForward c s) :=
  .next (State.feedForward_keep (Keep.refl _))

theorem execCalEpochMax_keep {s : State} {c t} : OutKeep s (execCalEpochMax c t s) :=
  .next (State.epochMaxOver_keep (Keep.refl _))

theorem execOffsetUpdate_keep {s : State} {c t} : OutKeep s (execOffsetUpdate c t s) :=
  .next (State.startGaps_keep (Keep.refl _))

theorem execReferenceSweep_keep {s : State} {c t} : OutKeep s (execReferenceSweep c t s) :=
  .next (State.startGaps_keep (Keep.refl _))

theorem execGainSweep_keep {s : State} {c t} : OutKeep s (execGainSweep c t s) := by
  unfold execGainSweep
  repeat' first
    | with_reducible apply OutKeep.next
    | with_reducible exact Keep.refl _
    | with_reducible apply State.startGaps_keep
    | split

theorem execGapTaskComplete_keep {s : State} {c t trims clamped} : OutKeep s (execGapTaskComplete c t trims clamped s) :=
  .next (State.endGaps_keep (Keep.refl _))

theorem execMeshPartialArrival_keep {s : State} {dst hdr partials} : OutKeep s (execMeshPartialArrival dst hdr partials s) :=
  .next (State.meshArrive_keep (Keep.refl _))

theorem execStacksRequestComplete_keep {s : State} {req r} : OutKeep s (execStacksRequestComplete req r s) :=
  .next (State.reqComplete_keep (Keep.refl _))

theorem execStacksRequestTimeout_keep {s : State} {req} : OutKeep s (execStacksRequestTimeout req s) := by
  unfold execStacksRequestTimeout
  repeat' first
    | with_reducible apply OutKeep.next
    | with_reducible exact Keep.refl _
    | with_reducible apply State.reqLost_keep
    | split

theorem execPatrolScrub_keep {s : State} {page r} : OutKeep s (execPatrolScrub page r s) :=
  .next (State.patrol_keep (Keep.refl _))

theorem execFolioReleaseDue_keep {s : State} {call} : OutKeep s (execFolioReleaseDue call s) :=
  .next (State.releaseDue_keep (Keep.refl _))

theorem execFolioForceClose_keep {s : State} {call} : OutKeep s (execFolioForceClose call s) :=
  .next (State.forceClose_keep (Keep.refl _))

theorem execPageReturn_keep {s : State} : OutKeep s (execPageReturn s) :=
  .next (State.pageReturn_keep (Keep.refl _))

theorem execTeardownComplete_keep {s : State} {x} : OutKeep s (execTeardownComplete x s) := by
  unfold execTeardownComplete
  repeat' first
    | with_reducible apply OutKeep.next
    | with_reducible exact Keep.refl _
    | with_reducible apply State.endTeardown_keep
    | split

theorem execTeardownTimeout_keep {s : State} {x} : OutKeep s (execTeardownTimeout x s) :=
  .next (State.teardownLate_keep (Keep.refl _))

theorem execSampleCopyEnd_keep {s : State} {c e} : OutKeep s (execSampleCopyEnd c e s) :=
  .next (State.copyEnd_keep (Keep.refl _))

theorem execSampleCopyTimeout_keep {s : State} {c e} : OutKeep s (execSampleCopyTimeout c e s) :=
  .next (State.copyTimeout_keep (Keep.refl _))

theorem execEngineResetDone_keep {s : State} {c e} : OutKeep s (execEngineResetDone c e s) :=
  .next (State.resetDone_keep (Keep.refl _))

theorem execEngineResetTimeout_keep {s : State} {c e} : OutKeep s (execEngineResetTimeout c e s) :=
  .next (State.resetTimeout_keep (Keep.refl _))

theorem execCoreWake_keep {s : State} {c} : OutKeep s (execCoreWake c s) :=
  .next (State.wakeCore_keep (Keep.refl _))

theorem execCoreReturn_keep {s : State} {c ok} : OutKeep s (execCoreReturn c ok s) :=
  .next (State.returnCore_keep (Keep.refl _))

theorem execFenceComplete_keep {s : State} {c} : OutKeep s (execFenceComplete c s) :=
  .next (State.fenceDone_keep (Keep.refl _))

theorem execFenceTimeout_keep {s : State} {c} : OutKeep s (execFenceTimeout c s) :=
  .next (State.fenceHang_keep (Keep.refl _))

theorem execWatchdogKick_keep {s : State} {cc} : OutKeep s (execWatchdogKick cc s) := by
  unfold execWatchdogKick
  repeat' first
    | with_reducible apply OutKeep.next
    | with_reducible exact Keep.refl _
    | dsimp only
    | split
    | fail_if_no_progress (with_reducible refine Keep.hidden ?_ rfl rfl)

theorem execWatchdogExpiry_keep {s : State} {cc} : OutKeep s (execWatchdogExpiry cc s) :=
  .next (State.watchdog_keep (Keep.refl _))

theorem execResetN_keep {s : State} : OutKeep s (execResetN s) := by
  unfold execResetN
  repeat' first
    | with_reducible apply OutKeep.next
    | with_reducible exact Keep.refl _
    | with_reducible apply State.startDrr_keep
    | split

theorem execWarmReset_keep {s : State} : OutKeep s (execWarmReset s) := by
  unfold execWarmReset
  repeat' first
    | with_reducible apply OutKeep.next
    | with_reducible exact Keep.refl _
    | with_reducible apply State.warmReset_keep
    | with_reducible apply State.bootRun_keep
    | split

theorem execFaultReport_keep {s : State} {source code reporter detail} : OutKeep s (execFaultReport source code reporter detail s) :=
  .next (State.report_keep (Keep.refl _))

theorem execRecordClose_keep {s : State} : OutKeep s (execRecordClose s) :=
  .next (State.closeRecord_keep (Keep.refl _))

theorem execLogFlushTimeout_keep {s : State} : OutKeep s (execLogFlushTimeout s) := by
  unfold execLogFlushTimeout
  repeat' first
    | with_reducible apply OutKeep.next
    | with_reducible exact Keep.refl _
    | with_reducible apply State.flushLog_keep
    | split

theorem execTemperatureConversion_keep {s : State} {readings} : OutKeep s (execTemperatureConversion readings s) :=
  .next (State.convertTemps_keep (Keep.refl _))

theorem execThrottleEscalate_keep {s : State} : OutKeep s (execThrottleEscalate s) :=
  .next (State.throttleUp_keep (Keep.refl _))

theorem execThrottleLower_keep {s : State} : OutKeep s (execThrottleLower s) :=
  .next (State.throttleDown_keep (Keep.refl _))

theorem execHardTrip_keep {s : State} {sensor reading} : OutKeep s (execHardTrip sensor reading s) := by
  unfold execHardTrip
  repeat' first
    | with_reducible apply OutKeep.next
    | with_reducible exact Keep.refl _
    | with_reducible apply State.hardTrip_keep
    | split

theorem execPowerEstimate_keep {s : State} {mean} : OutKeep s (execPowerEstimate mean s) :=
  .next (State.powerMean_keep (Keep.refl _))

theorem execPowerLimitEnd_keep {s : State} : OutKeep s (execPowerLimitEnd s) :=
  .next (State.powerEnd_keep (Keep.refl _))

theorem execOrderlyStopDrain_keep {s : State} : OutKeep s (execOrderlyStopDrain s) :=
  .next (State.stopDrain_keep (Keep.refl _))

theorem execStopComplete_keep {s : State} : OutKeep s (execStopComplete s) :=
  .next (State.stopEnd_keep (Keep.refl _))

theorem execIdleStandby_keep {s : State} : OutKeep s (execIdleStandby s) := by
  unfold execIdleStandby
  repeat' first
    | with_reducible apply OutKeep.next
    | with_reducible exact Keep.refl _
    | with_reducible apply State.enterStandby_keep
    | split

theorem execRailWaitTimeout_keep {s : State} : OutKeep s (execRailWaitTimeout s) := by
  unfold execRailWaitTimeout
  repeat' first
    | with_reducible apply OutKeep.next
    | with_reducible exact Keep.refl _
    | dsimp only
    | with_reducible apply State.endTaken_keep
    | with_reducible apply State.report_keep
    | with_reducible apply State.lateReply_keep
    | split
    | fail_if_no_progress (with_reducible refine Keep.hidden ?_ rfl rfl)

theorem execMonTrigger_keep {s : State} {pin rising} : OutKeep s (execMonTrigger pin rising s) := by
  unfold execMonTrigger
  try dsimp only
  repeat' first
    | with_reducible apply OutKeep.next
    | with_reducible exact Keep.refl _
    | with_reducible assumption
    | (dsimp only)
    | (intro _ _ _)
    | (intro _ _)
    | with_reducible apply State.convTrigger_keep
    | with_reducible apply Keep.foldl
    | with_reducible apply Keep.foldl_fst
    | with_reducible apply Keep.foldl_snd
    | split

theorem execConversionResult_keep {s : State} {x raw overload} : OutKeep s (execConversionResult x raw overload s) :=
  .next (State.conversion_keep (Keep.refl _))

theorem execSequenceDelay_keep {s : State} {x} : OutKeep s (execSequenceDelay x s) :=
  .next (State.delayEnd_keep (Keep.refl _))

theorem execCrossCheck_keep {s : State} : OutKeep s (execCrossCheck s) :=
  .next (State.crossCheckDue_keep (Keep.refl _))

theorem execTileCalibrated_keep {s : State} {c t r} : OutKeep s (execTileCalibrated c t r s) :=
  .next (State.tileCalibrated_keep (Keep.refl _))

theorem execCalibrationComplete_keep {s : State} : OutKeep s (execCalibrationComplete s) :=
  .next (State.calibrated_keep (Keep.refl _))

theorem execArchiveSlotLoad_keep {s : State} {slot fieldsOk hashOk imageHashOk} : OutKeep s (execArchiveSlotLoad slot fieldsOk hashOk imageHashOk s) :=
  .next (State.loadSlot_keep (Keep.refl _))

theorem execCacheWrite_keep {s : State} : OutKeep s (execCacheWrite s) := by
  unfold execCacheWrite
  repeat' first
    | with_reducible apply OutKeep.next
    | with_reducible exact Keep.refl _
    | with_reducible apply State.complete_keep
    | with_reducible apply State.writeCache_keep
    | split

theorem execRefreshStart_keep {s : State} : OutKeep s (execRefreshStart s) :=
  .next (State.refreshStart_keep (Keep.refl _))

theorem execPumpAdmission_keep {s : State} : OutKeep s (execPumpAdmission s) :=
  .next (State.pumpAdmit_keep (Keep.refl _))

theorem execBatchComplete_keep {s : State} {c t failed} : OutKeep s (execBatchComplete c t failed s) :=
  .next (State.batchDone_keep (Keep.refl _))

theorem execSettleAndReverify_keep {s : State} {c t} : OutKeep s (execSettleAndReverify c t s) :=
  .next (State.settle2_keep (Keep.refl _))

theorem execMappingSwitch_keep {s : State} {c t} : OutKeep s (execMappingSwitch c t s) :=
  .next (State.doSwitch_keep (Keep.refl _))

theorem execPageWriteStart_keep {s : State} : OutKeep s (execPageWriteStart s) := by
  unfold execPageWriteStart
  repeat' first
    | with_reducible apply OutKeep.next
    | with_reducible exact Keep.refl _
    | with_reducible apply State.startWrite_keep
    | split

theorem execPageWriteEnd_keep {s : State} {ok} : OutKeep s (execPageWriteEnd ok s) :=
  .next (State.pageWriteEnd_keep (Keep.refl _))

theorem execCounterIncrement_keep {s : State} {c} : OutKeep s (execCounterIncrement c s) :=
  .next (State.counterIncrement_keep (Keep.refl _))

theorem execPoweredHour_keep {s : State} : OutKeep s (execPoweredHour s) := by
  unfold execPoweredHour
  repeat' first
    | with_reducible apply OutKeep.next
    | with_reducible exact Keep.refl _
    | dsimp only
    | with_reducible apply State.countNow_keep
    | split
    | fail_if_no_progress (with_reducible refine Keep.hidden ?_ rfl rfl)

theorem execMarginRead_keep {s : State} {r} : OutKeep s (execMarginRead r s) :=
  .next (State.marginRead_keep (Keep.refl _))

theorem execPorstN_keep {s : State} {vref} : OutKeep s (execPorstN vref s) := by
  unfold execPorstN
  repeat' first
    | with_reducible apply OutKeep.next
    | with_reducible exact Keep.refl _
    | with_reducible apply State.porst_keep
    | split

theorem execHbmTrainingComplete_keep {s : State} {failed} : OutKeep s (execHbmTrainingComplete failed s) :=
  .next (State.trained_keep (Keep.refl _))

theorem execVddAonLoss_keep {s : State} : OutKeep s (execVddAonLoss s) := by
  unfold execVddAonLoss
  split
  · refine OutKeep.next ?_
    have h : Keep s s.aonReset.releaseTrip := State.releaseTrip_keep (State.aonReset_keep (Keep.refl s))
    have ht : s.aonReset.releaseTrip.timeUs = 0 := by 
      have e : s.aonReset.timeUs = 0 := by unfold State.aonReset; extract_lets; dsimp only
      unfold State.releaseTrip
      split
      · unfold State.emit; exact e
      · exact e
    generalize s.aonReset.releaseTrip = t at *
    exact ⟨h.part, h.pending, .inr ht, fun _ => rfl, .inl ht, h.key⟩
  · exact OutKeep.next (Keep.refl s)

theorem execPowerFailure_keep {s : State} : OutKeep s (execPowerFailure s) := by
  unfold execPowerFailure
  repeat' first
    | with_reducible apply OutKeep.next
    | with_reducible exact Keep.refl _
    | dsimp only
    | with_reducible apply State.aonReset_keep
    | split
    | fail_if_no_progress (with_reducible refine Keep.hidden ?_ rfl rfl)

theorem execTapReset_keep {s : State} : OutKeep s (execTapReset s) :=
  .next (State.setIr_keep (Keep.refl _))

theorem execExtest_keep {s : State} : OutKeep s (execExtest s) :=
  .next (State.setIr_keep (Keep.refl _))

theorem execIdcode_keep {s : State} : OutKeep s (execIdcode s) := by
  unfold execIdcode
  repeat' first
    | with_reducible apply OutKeep.next
    | with_reducible exact Keep.refl _
    | with_reducible apply State.setIr_keep
    | with_reducible apply State.emit_keep
    | split

theorem execSamplePreload_keep {s : State} : OutKeep s (execSamplePreload s) :=
  .next (State.setIr_keep (Keep.refl _))

theorem execDbgChallenge_keep {s : State} : OutKeep s (execDbgChallenge s) := by
  unfold execDbgChallenge
  repeat' first
    | with_reducible apply OutKeep.next
    | with_reducible exact Keep.refl _
    | dsimp only
    | with_reducible apply State.setIr_keep
    | with_reducible apply State.emit_keep
    | split
    | fail_if_no_progress (with_reducible refine Keep.hidden ?_ rfl rfl)

theorem execDbgCert_keep {s : State} {cert} : OutKeep s (execDbgCert cert s) := by
  unfold execDbgCert
  repeat' first
    | with_reducible apply OutKeep.next
    | with_reducible exact Keep.refl _
    | with_reducible apply State.setIr_keep
    | with_reducible apply State.debugCert_keep
    | split

theorem execDbgAccess_keep {s : State} {op} : OutKeep s (execDbgAccess op s) := by
  unfold execDbgAccess
  repeat' first
    | with_reducible apply OutKeep.next
    | with_reducible exact Keep.refl _
    | dsimp only
    | with_reducible apply State.setIr_keep
    | with_reducible apply State.emit_keep
    | with_reducible apply State.fwWrite_keep
    | split
    | fail_if_no_progress (with_reducible refine Keep.hidden ?_ rfl rfl)

theorem execBypass_keep {s : State} : OutKeep s (execBypass s) :=
  .next (State.setIr_keep (Keep.refl _))

theorem execPowerOn_keep {s : State} : OutKeep s (execPowerOn s) := by
  unfold execPowerOn
  repeat' first
    | with_reducible apply OutKeep.next
    | with_reducible exact Keep.refl _
    | dsimp only
    | with_reducible apply State.domUp_keep
    | with_reducible apply State.readHold_keep
    | split
    | fail_if_no_progress (with_reducible refine Keep.hidden ?_ rfl rfl)

theorem execLoadStepAckDeassert_keep {s : State} : OutKeep s (execLoadStepAckDeassert s) :=
  .next (State.loadNack_keep (Keep.refl _))

theorem execCccrWrite_keep {s : State} {addr value} : OutKeep s (execCccrWrite addr value s) :=
  .next (State.f0Write_keep (Keep.refl _))

theorem execF2DataReady_keep {s : State} : OutKeep s (execF2DataReady s) :=
  .next (State.f2Ready_keep (Keep.refl _))

theorem execKeepaliveReceived_keep {s : State} {p f} : OutKeep s (execKeepaliveReceived p f s) := by
  unfold execKeepaliveReceived
  repeat' first
    | with_reducible apply OutKeep.next
    | with_reducible exact Keep.refl _
    | with_reducible apply State.rxType_keep
    | split

theorem exec_keep (c : Instr) (s : State) : OutKeep s (exec c s) := by
  cases c
  case getStatus tag params f2len => exact execGetStatus_keep
  case readLog tag params f2len => exact execReadLog_keep
  case readCounters tag params f2len => exact execReadCounters_keep
  case attest tag params f2len => exact execAttest_keep
  case loadPackage tag params f2len => exact execLoadPackage_keep
  case programModel tag params f2len => exact execProgramModel_keep
  case setGraft tag params f2len => exact execSetGraft_keep
  case startLine tag params f2len => exact execStartLine_keep
  case stopLine tag params f2len => exact execStopLine_keep
  case fenceCore tag params f2len => exact execFenceCore_keep
  case flashWrite tag params f2len => exact execFlashWrite_keep
  case reboot tag params f2len => exact execReboot_keep
  case replyDone => exact execReplyDone_keep
  case rebootTimeout => exact execRebootTimeout_keep
  case finalReply => exact execFinalReply_keep
  case f2Abort => exact execF2Abort_keep
  case f2Transfer op => exact execF2Transfer_keep
  case registerWrite w => exact execRegisterWrite_keep
  case readLatchCapture addr => exact execReadLatchCapture_keep
  case loReadCapture r => exact execLoReadCapture_keep
  case cmd5 => exact execCmd5_keep
  case cmd11 => exact execCmd11_keep
  case cmd19 => exact execCmd19_keep
  case statusBitClear r mask setNow who => exact execStatusBitClear_keep
  case tilCtrlWrite c t value => exact execTilCtrlWrite_keep
  case testStart c value => exact execTestStart_keep
  case testComplete c reps => exact execTestComplete_keep
  case commit c t => exact execCommit_keep
  case shadowWrite c value => exact execShadowWrite_keep
  case hwClr c => exact execHwClr_keep
  case lwClr => exact execLwClr_keep
  case teardown x => exact execTeardown_keep
  case teardownDeferred x => exact execTeardownDeferred_keep
  case suspend x => exact execSuspend_keep
  case save x => exact execSave_keep
  case resume x => exact execResume_keep
  case safe => exact execSafe_keep
  case release => exact execRelease_keep
  case loadStrobe => exact execLoadStrobe_keep
  case dacRun run => exact execDacRun_keep
  case softTrig x => exact execSoftTrig_keep
  case urgent x => exact execUrgent_keep
  case selfcal x => exact execSelfcal_keep
  case selfcalDone x zeros refs => exact execSelfcalDone_keep
  case snap set value => exact execSnap_keep
  case monCvCtrlWrite x value => exact execMonCvCtrlWrite_keep
  case pwrLock => exact execPwrLock_keep
  case thmLock => exact execThmLock_keep
  case secLock => exact execSecLock_keep
  case pop => exact execPop_keep
  case domainWakeRequest d => exact execDomainWakeRequest_keep
  case domainGate d => exact execDomainGate_keep
  case domainWakeStart => exact execDomainWakeStart_keep
  case domainAwake d => exact execDomainAwake_keep
  case domainWakeFail d => exact execDomainWakeFail_keep
  case dispEn => exact execDispEn_keep
  case loadStepAck => exact execLoadStepAck_keep
  case loadStepTimeout => exact execLoadStepTimeout_keep
  case loadStepReqDeassert => exact execLoadStepReqDeassert_keep
  case slewRecover => exact execSlewRecover_keep
  case cvSlotWrite p value opening => exact execCvSlotWrite_keep
  case portEnable p => exact execPortEnable_keep
  case portDisable p => exact execPortDisable_keep
  case eventSlotWrite e => exact execEventSlotWrite_keep
  case encoderCount e a b => exact execEncoderCount_keep
  case indexEdge e => exact execIndexEdge_keep
  case velocityUpdate e => exact execVelocityUpdate_keep
  case encoderStopped e => exact execEncoderStopped_keep
  case cutoffCrossing slot => exact execCutoffCrossing_keep
  case scheduledOutput slot => exact execScheduledOutput_keep
  case pulseWidthEnd slot => exact execPulseWidthEnd_keep
  case widthCut slot => exact execWidthCut_keep
  case sync e => exact execSync_keep
  case syncHeartbeat e => exact execSyncHeartbeat_keep
  case mainsEdge period => exact execMainsEdge_keep
  case mainsLost => exact execMainsLost_keep
  case decide inst isFloat top => exact execDecide_keep
  case fireRateRelease ap => exact execFireRateRelease_keep
  case blockLock p => exact execBlockLock_keep
  case trainTimeout p => exact execTrainTimeout_keep
  case lanesDeskewed p => exact execLanesDeskewed_keep
  case alignTimeout p => exact execAlignTimeout_keep
  case accession p f => exact execAccession_keep
  case accessionRepeat p => exact execAccessionRepeat_keep
  case accessionAck p f => exact execAccessionAck_keep
  case discoverTimeout p => exact execDiscoverTimeout_keep
  case refusedTimeout p => exact execRefusedTimeout_keep
  case blockLockLost p lanesUp => exact execBlockLockLost_keep
  case keepTimeout p => exact execKeepTimeout_keep
  case detach p f => exact execDetach_keep
  case keepalive p => exact execKeepalive_keep
  case line p f => exact execLine_keep
  case headStatus p f => exact execHeadStatus_keep
  case status p f => exact execStatus_keep
  case folioOffer p f m => exact execFolioOffer_keep
  case folioAccept p f newCall => exact execFolioAccept_keep
  case folioRefuse p f code => exact execFolioRefuse_keep
  case folioData p f off data => exact execFolioData_keep
  case folioDone p f count hash => exact execFolioDone_keep
  case folioAck p f newCall => exact execFolioAck_keep
  case xferTimeout entry => exact execXferTimeout_keep
  case heartbeat p f => exact execHeartbeat_keep
  case heartbeatPeriod => exact execHeartbeatPeriod_keep
  case hbMiss member => exact execHbMiss_keep
  case fenceNotice p f => exact execFenceNotice_keep
  case fmReturn => exact execFmReturn_keep
  case instanceRelease c e => exact execInstanceRelease_keep
  case instanceComplete inst op => exact execInstanceComplete_keep
  case gatherWait x stateOp copy => exact execGatherWait_keep
  case taskTimeout inst => exact execTaskTimeout_keep
  case mvmCycleBoundary => exact execMvmCycleBoundary_keep
  case sliceComplete c t cols pips => exact execSliceComplete_keep
  case stepRise c t => exact execStepRise_keep
  case pipWindowClose c t => exact execPipWindowClose_keep
  case epochMinWait c t => exact execEpochMinWait_keep
  case epochBoundary c t => exact execEpochBoundary_keep
  case forcedGap c t => exact execForcedGap_keep
  case feedForward c => exact execFeedForward_keep
  case calEpochMax c t => exact execCalEpochMax_keep
  case offsetUpdate c t => exact execOffsetUpdate_keep
  case referenceSweep c t => exact execReferenceSweep_keep
  case gainSweep c t => exact execGainSweep_keep
  case gapTaskComplete c t trims clamped => exact execGapTaskComplete_keep
  case meshPartialArrival dst hdr partials => exact execMeshPartialArrival_keep
  case stacksRequestComplete req r => exact execStacksRequestComplete_keep
  case stacksRequestTimeout req => exact execStacksRequestTimeout_keep
  case patrolScrub page r => exact execPatrolScrub_keep
  case folioReleaseDue call => exact execFolioReleaseDue_keep
  case folioForceClose call => exact execFolioForceClose_keep
  case pageReturn => exact execPageReturn_keep
  case teardownComplete x => exact execTeardownComplete_keep
  case teardownTimeout x => exact execTeardownTimeout_keep
  case sampleCopyEnd c e => exact execSampleCopyEnd_keep
  case sampleCopyTimeout c e => exact execSampleCopyTimeout_keep
  case engineResetDone c e => exact execEngineResetDone_keep
  case engineResetTimeout c e => exact execEngineResetTimeout_keep
  case coreWake c => exact execCoreWake_keep
  case coreReturn c ok => exact execCoreReturn_keep
  case fenceComplete c => exact execFenceComplete_keep
  case fenceTimeout c => exact execFenceTimeout_keep
  case watchdogKick cc => exact execWatchdogKick_keep
  case watchdogExpiry cc => exact execWatchdogExpiry_keep
  case resetN => exact execResetN_keep
  case warmReset => exact execWarmReset_keep
  case faultReport source code reporter detail => exact execFaultReport_keep
  case recordClose => exact execRecordClose_keep
  case logFlushTimeout => exact execLogFlushTimeout_keep
  case temperatureConversion readings => exact execTemperatureConversion_keep
  case throttleEscalate => exact execThrottleEscalate_keep
  case throttleLower => exact execThrottleLower_keep
  case hardTrip sensor reading => exact execHardTrip_keep
  case powerEstimate mean => exact execPowerEstimate_keep
  case powerLimitEnd => exact execPowerLimitEnd_keep
  case orderlyStopDrain => exact execOrderlyStopDrain_keep
  case stopComplete => exact execStopComplete_keep
  case idleStandby => exact execIdleStandby_keep
  case railWaitTimeout => exact execRailWaitTimeout_keep
  case monTrigger pin rising => exact execMonTrigger_keep
  case conversionResult x raw overload => exact execConversionResult_keep
  case sequenceDelay x => exact execSequenceDelay_keep
  case crossCheck => exact execCrossCheck_keep
  case tileCalibrated c t r => exact execTileCalibrated_keep
  case calibrationComplete => exact execCalibrationComplete_keep
  case archiveSlotLoad slot fieldsOk hashOk imageHashOk => exact execArchiveSlotLoad_keep
  case cacheWrite => exact execCacheWrite_keep
  case refreshStart => exact execRefreshStart_keep
  case pumpAdmission => exact execPumpAdmission_keep
  case batchComplete c t failed => exact execBatchComplete_keep
  case settleAndReverify c t => exact execSettleAndReverify_keep
  case mappingSwitch c t => exact execMappingSwitch_keep
  case pageWriteStart => exact execPageWriteStart_keep
  case pageWriteEnd ok => exact execPageWriteEnd_keep
  case counterIncrement c => exact execCounterIncrement_keep
  case poweredHour => exact execPoweredHour_keep
  case marginRead r => exact execMarginRead_keep
  case porstN vref => exact execPorstN_keep
  case hbmTrainingComplete failed => exact execHbmTrainingComplete_keep
  case vddAonLoss => exact execVddAonLoss_keep
  case powerFailure => exact execPowerFailure_keep
  case tapReset => exact execTapReset_keep
  case extest => exact execExtest_keep
  case idcode => exact execIdcode_keep
  case samplePreload => exact execSamplePreload_keep
  case dbgChallenge => exact execDbgChallenge_keep
  case dbgCert cert => exact execDbgCert_keep
  case dbgAccess op => exact execDbgAccess_keep
  case bypass => exact execBypass_keep
  case powerOn => exact execPowerOn_keep
  case loadStepAckDeassert => exact execLoadStepAckDeassert_keep
  case cccrWrite addr value => exact execCccrWrite_keep
  case f2DataReady => exact execF2DataReady_keep
  case keepaliveReceived p f => exact execKeepaliveReceived_keep

end Sys2Proof.Machine
end

