-- ==== Sys2Proof/Tests/Slice0.lean ====
section
/-! SUPPORT. Tests: WellFormed's smoke, one small test per group of commands with the expected value worked out from the spec,
and for every statement with hypotheses a concrete state that meets them. -/

namespace Sys2Proof.Tests

open Sys2Proof Sys2Proof.Machine

/-! ### Small states -/

/-- Reset, ten thousand seconds on, with VDD_AON up. -/
def base : State := { State.reset with timeUs := 10 ^ 10, sys := { SysUnit.init with aon := true } }
/-- `base` with a domain on. -/
def up (d : Nat) : State := base.setDomOn d true
/-- The card selected with functions 1 and 2 enabled. -/
def card : State := { up 60 with sdm := { SdmUnit.init with f0 := [(2, 6)] } }
/-- A board that has booted, ACTIVE and idle, and admits every command. -/
def opened : State := (card.setPwrState 0).setF R.idBoot F.idBootStage 9
/-- Tile 2 of core 1 in state `st`, with `x` beyond its registers. -/
def tiled (st : Nat) (x : TileRt) : State := ((up 3).setTileState 1 2 st).setTile 1 2 x
/-- Port `p` in state `st`, enabled. -/
def ported (p st : Nat) : State :=
  (((up (52 + p)).setF (R.prtState p) F.prtStateState st).setF (R.prtCtrl p) F.prtCtrlEn 1).setF (R.prtCtrl p) F.prtCtrlStreams 8
/-- `s` with parameter `i` of a configuration record. -/
def withPar (s : State) (type inst i v : Nat) : State :=
  let k := cfgKey type inst
  { s with cfg := s.cfg.put k ((s.cfg.getD k (List.replicate 200 0)).set i v) }
/-- A frame of one piece, with its check value. -/
def frame (type : Nat) (payload : Bytes) (ext : Option PeerExt) : Frame :=
  ⟨⟨BitVec.ofNat 8 type, if ext.isSome then 7 else 3, 2, 0, BitVec.ofNat 16 payload.length, 9, 0, 0⟩, ext, payload, false,
    some (Nat.xor (crcRun 0 (crcInit 0) payload) (crcXor 0))⟩
/-- The answer to a command, or the state before it. -/
def after (c : Instr) (s : State) : State := match exec c s with | .next t => t | .fault _ | .refused _ => s

/-! ### WellFormed refuses -/

def longParams : Bytes := List.replicate 65536 0

theorem wf_mailbox_params : wellFormed (.getStatus 0 longParams 0) = false := by
  simp only [wellFormed, wfMailbox, longParams, List.length_replicate]; decide
theorem wf_mailbox_f2 : wellFormed (.flashWrite 0 [0, 0, 0, 0] (2 ^ 32)) = false := by decide
theorem wf_host_write : wellFormed (.registerWrite (.host 0 false [])) = false := by decide
theorem wf_firmware_write : wellFormed (.registerWrite (.firmware 2 0)) = false := by decide
theorem wf_f2_write : wellFormed (.f2Transfer (.write [])) = false := by decide
theorem wf_f2_read : wellFormed (.f2Transfer (.read 0)) = false := by decide
theorem wf_selfcal : wellFormed (.selfcalDone 0 (List.replicate 8 0) (List.replicate 9 0)) = false := by decide
theorem wf_selfcal_refs : wellFormed (.selfcalDone 0 (List.replicate 9 0) (List.replicate 10 0)) = false := by decide
theorem wf_mains : wellFormed (.mainsEdge (2 ^ 24)) = false := by decide
theorem wf_decide_none : wellFormed (.decide 0 true []) = false := by decide
theorem wf_decide_many : wellFormed (.decide 0 true (List.replicate 17 ⟨0, 0⟩)) = false := by decide
theorem wf_frame_length : wellFormed (.line 0 { frame 0x10 [1] none with payload := [1, 2] }) = false := by decide
theorem wf_frame_ext : wellFormed (.heartbeat 4 { frame 0x70 [1] none with ext := some ⟨0, 0, 0, 0, 0⟩ }) = false := by decide
theorem wf_frame_cv : wellFormed (.line 0 { frame 0x10 [1] none with cv := some (2 ^ 32) }) = false := by decide
theorem wf_frame_cv_last : wellFormed (.line 0 ⟨⟨0x10, 1, 2, 0, 1, 9, 0, 0⟩, none, [1], false, some 0⟩) = false := by decide
theorem wf_offer_hash : wellFormed (.folioOffer 4 (frame 0x60 [1] (some ⟨0, 0, 0, 0, 0⟩)) ⟨0, [1], 0, 0, 0⟩) = false := by decide
theorem wf_data_length : wellFormed (.folioData 4 (frame 0x63 [1] (some ⟨0, 0, 0, 0, 0⟩)) 0 (List.replicate 2049 0)) = false := by
  simp only [wellFormed, List.length_replicate]; decide
theorem wf_done_hash : wellFormed (.folioDone 4 (frame 0x64 [1] (some ⟨0, 0, 0, 0, 0⟩)) 0 [1]) = false := by decide
theorem wf_ranging : wellFormed (.instanceComplete 0 (.ranging [] true 0)) = false := by decide
theorem wf_combine : wellFormed (.instanceComplete 0 (.combine [])) = false := by decide
theorem wf_epilogue : wellFormed (.instanceComplete 0 (.epilogue none false [] 0)) = false := by decide
theorem wf_row_empty : wellFormed (.instanceComplete 0 (.rowWise .softmax [] 0)) = false := by decide
theorem wf_layer_norm : wellFormed (.instanceComplete 0 (.rowWise (.layerNorm [0] [] 0) [0] 0)) = false := by decide
theorem wf_rms_norm : wellFormed (.instanceComplete 0 (.rowWise (.rmsNorm [] 0) [0] 0)) = false := by decide
theorem wf_topk_count : wellFormed (.instanceComplete 0 (.topK .fp32 [0] 17 0)) = false := by decide
theorem wf_topk_format : wellFormed (.instanceComplete 0 (.topK .mx4 [0] 1 0)) = false := by decide
theorem wf_rotate_block : wellFormed (.instanceComplete 0 (.rotate 32 (List.replicate 32 0) 0)) = false := by decide
theorem wf_rotate_length : wellFormed (.instanceComplete 0 (.rotate 64 [0] 0)) = false := by decide
theorem wf_append : wellFormed (.instanceComplete 0 (.append [(0, [0], [0])])) = false := by decide
theorem wf_attention : wellFormed (.instanceComplete 0 (.attention [⟨0, 0, 0, [0], 0⟩])) = false := by decide
theorem wf_code : wellFormed (.sliceComplete 0 0 [⟨0, 256, false⟩] []) = false := by decide
theorem wf_trim_value : wellFormed (.gapTaskComplete 0 0 [⟨3, false, 256⟩] false) = false := by decide
theorem wf_trim_gain : wellFormed (.gapTaskComplete 0 0 [⟨528, true, 1⟩] false) = false := by decide
theorem wf_mesh : wellFormed (.meshPartialArrival 0 0 (List.replicate 513 0)) = false := by
  simp only [wellFormed, List.length_replicate]; decide
theorem wf_readings : wellFormed (.temperatureConversion [0]) = false := by decide
theorem wf_accepts : wellFormed (.line 0 (frame 0x10 [1, 2] none)) = true := by decide

/-! ### Small tests -/

/-- R4: words lie little-endian. -/
theorem test_le_bytes : leBytes 4 0x11223344 = [0x44, 0x33, 0x22, 0x11] := by decide
/-- R7: `P` at or after `Q` is a matter of the wrapped difference. -/
theorem test_pos_wraps : Pos.atOrAfter 2 (BitVec.ofNat 48 (2 ^ 48 - 3)) = true := by decide
/-- R17: event counters stop at the top. -/
theorem test_counter_saturates : satInc 0xFFFFFFFE 5 = 0xFFFFFFFF := by decide
/-- R8: CRC-32C of the nine ASCII digits, the check value of the polynomial. -/
theorem test_crc32c : crc32c [0x31, 0x32, 0x33, 0x34, 0x35, 0x36, 0x37, 0x38, 0x39] = 0xE3069283 := by decide +kernel
/-- The table gives no command bits. -/
theorem test_no_words : decodeTableWord 32 0 = none ∧ State.reset.withFetchWord 32 0 = State.reset := by decide
/-- R297: 00 to 10 is one count forward. -/
theorem test_encoder_counts : ((after (.encoderCount 0 true false) (base.setF R.lckCtrl F.lckCtrlEnc0En 1)).enc 0).pos = 1 := by decide
/-- R299: 00 to 11 is an error and no count. -/
theorem test_encoder_error : (after (.encoderCount 0 true true) (base.setF R.lckCtrl F.lckCtrlEnc0En 1)).isSet R.lckStatus
    F.lckStatusEnc0Err = true := by decide
/-- R453: SEC_LOCK.pwr follows PWR_LOCK. -/
theorem test_pwr_lock : (after .pwrLock base).isSet R.secLock F.secLockPwr = true := by decide
/-- R14: a locked limit takes no write. -/
theorem test_locked_limit : (after (.registerWrite (.firmware (BitVec.ofNat 24 R.actLimits) 7)) (base.setF R.secLock F.secLockAct 1)).reg
    R.actLimits = base.reg R.actLimits := by decide
/-- R451: IDCODE. -/
theorem test_idcode : (after .idcode base).wire = [.tap [0x47, 0x0B, 0x64, 0x11]] := by decide
/-- R514: the CCCR keeps only the two function enables. -/
theorem test_io_enable : (after (.cccrWrite 2 0xFF) base).sdm.f0 = [(2, 6)] := by decide
/-- R15: a hole takes nothing. -/
theorem test_hole : after (.registerWrite (.firmware 0x003000 7)) base = base := by decide
/-- R317: a pulse of 10 µs is not yet over after 9. -/
theorem test_pulse_stands :
    let s := base.setSlot 7 ⟨0, none, [⟨.gpio 3, 0, none, 100, false, some (10 ^ 10 - 9), false⟩]⟩
    after (.pulseWidthEnd 7) s = s := by decide +kernel
/-- R60: the 256th quiet input raises the step. -/
theorem test_step_rise : (after (.stepRise 1 2) ((base.setF (R.tilRange 1 2) F.tilRangeQuiet 256).setF (R.tilRange 1 2)
    F.tilRangeStep 2)).getF (R.tilRange 1 2) F.tilRangeStep = 3 := by decide
/-- R194: the high-water mark restarts at the entries in use. -/
theorem test_hw_clr : (after (.hwClr 1) ((base.setF (R.accOcc 1) F.accOccInUse 5).setF (R.accOcc 1) F.accOccHighWater 9)).getF
    (R.accOcc 1) F.accOccHighWater = 5 := by decide
/-- R115, R139: a second commit has no effect. -/
theorem test_commit_pending : let s := (tiled 2 TileRt.init).setF (R.calTileCtrl 1 2) F.calTileCtrlCommit 1
    after (.commit 1 2) s = s := by decide
/-- R380: a wake asks for the domain. -/
theorem test_wake : (after (.domainWakeRequest 62) base).pwr.queue = [62] := by decide
/-- R386: an acknowledgement without a request is held. -/
theorem test_ack : (after .loadStepAck base).pwr.ack = true := by decide
/-- R394: 118 °C is a trip. -/
theorem test_trip : (after (.hardTrip 7 (118 * 64)) base).thm.tripN = true := by decide
/-- R415: a report of a known source counts. -/
theorem test_report_counts : ((after (.faultReport 7 8 3 99) (after (.faultReport 7 8 3 99) base)).flt.openRecs.map (·.count)) = [2] := by
  decide
/-- R257, R399: scrub that corrects nothing changes nothing. -/
theorem test_scrub_clean : after (.patrolScrub 7 .ok) base = base := by decide
/-- R426: VDD_AON wakes the parameter store. -/
theorem test_power_on : (after .powerOn State.reset).domOn 64 = true := by decide

/-! ### Witnesses: a state that meets the hypotheses of each clause, in the order of the obligations -/

theorem wit_empty_queue : base.pending = [] := by decide
theorem wit_front_command : ({ base with pending := [.sync 0, .idcode] } : State).pending = .sync 0 :: [.idcode] ∧
    step { base with pending := [.sync 0, .idcode] } = exec (.sync 0) { base with pending := [.idcode] } := ⟨rfl, rfl⟩
theorem wit_canonical_step : base.canonical = true ∧ step base = .next base.tick := ⟨by decide, rfl⟩
theorem wit_locked_step : (base.setF R.secLock F.secLockAct 1).isSet R.secLock F.secLockAct = true ∧
    step { base.setF R.secLock F.secLockAct 1 with pending := [.idcode] }
      = .next (after .idcode (base.setF R.secLock F.secLockAct 1)) := ⟨by decide, rfl⟩
theorem wit_host_window : card.fnReady 1 = true ∧ card.sdm.wbuf = none ∧
    (card.setF R.sdmPage F.sdmPagePage 5).getF R.sdmPage F.sdmPagePage = 5 := by decide
theorem wit_read_latch : card.fnReady 1 = true ∧ card.f1Addr 0x11 % 4 ≠ 0 ∧
    ({ card with sdm := { card.sdm with latch := some (0x10, 0) } } : State).latched 0x10 = true := by decide
theorem wit_status_clear : base.regOn (statusAddr .lck) = true ∧ 3 < (statusBits .lck).2 ∧ card.fnReady 1 = true ∧
    hostClears .sdmHost = true ∧ card.regOn (statusAddr .sdmHost) = true := by decide
theorem wit_tuning : let s : State := { card with sdm := { card.sdm with v18 := true, f0 := [(0x13, 6)] } }
    s.sdm.v18 = true ∧ s.sdm.f0.getD 0x13 0 = 6 := by decide
theorem wit_extest : base.isSet R.actCtrl F.actCtrlSafeState = true ∧ (∀ x, x < 64 → base.ctxState x ≠ 2) ∧
    (base.setF R.actCtrl F.actCtrlSafeState 0).isSet R.actCtrl F.actCtrlSafeState = false ∧ bit base.sys.scope 3 = false := by decide
theorem wit_debug : let s : State := { (up 61).setDomOn 67 true with sys := { base.sys with scope := 5 } }
    s.domOn 61 = true ∧ s.domOn 67 = true ∧ bit s.sys.scope 0 = true ∧ bit s.sys.scope 2 = true ∧ bit s.sys.scope 1 = false := by decide
theorem wit_free : card.fnReady 1 = true ∧ card.mbState ≠ 2 := by decide
theorem wit_open : opened.deviceOpen ∧ ({ opened with sys := { opened.sys with idOk := true } } : State).deviceOpen ∧
    (List.replicate 32 0 : Bytes).length = 32 := by
  unfold State.deviceOpen State.mailboxFree; decide
theorem wit_reset_or_boot : card.mailboxFree ∧ ({ card with flt := { card.flt with drrAt := some 5 } } : State).flt.drrAt.isSome = true ∧
    card.pstate < 2 ∧ ({ card with sys := { card.sys with boot := some .powerOn } } : State).sys.boot.isSome = true ∧
    card.flt.drrAt = none ∧ (card.setPwrState 3).pstate = 3 := by
  unfold State.mailboxFree; decide
/-- A board whose context 1 is LOADED, with a save area, its weights and its calibration. -/
def startable : State :=
  let s := withPar (withPar (opened.setF (R.dspCxState 1) F.dspCxStateState 1) 0x403 1 P.ctxSaveBase (0xF0000 * 65536))
    0x404 0 195 0x10000
  let body : Bytes := leBytes 2 0x500 ++ leBytes 2 1 ++ leBytes 4 32 ++ List.replicate 32 7
  let page : Page := ⟨true, 1, body ++ leBytes 4 (crc32c body)⟩
  { s with dsp := { s.dsp with running := some 0, pkgs := [(0, { (default : Pkg) with weightHash := List.replicate 32 7 })] }
           cal := { s.cal with complete := true }
           pst := { s.pst with pages := match recPlace 0x500 with | some (_, a) => [(a, page)] | none => [] } }
theorem wit_start_line : startable.deviceOpen ∧ named (leAt [2, 0, 0, 0, 0, 0, 0, 0] 0 8) = [1] ∧ startable.ctxState 1 = 1 ∧
    startable.isSet R.thmLevel F.thmLevelStopping = false ∧ startable.saveAreaOk 1 = true ∧ startable.weightsOk = true ∧
    startable.cal.complete = true := by
  unfold State.deviceOpen State.mailboxFree; decide +kernel
theorem wit_stop_line : let s := opened.setF (R.dspCxState 1) F.dspCxStateState 2
    named (leAt [2, 0, 0, 0, 0, 0, 0, 0] 0 8) = [1] ∧ (∀ x ∈ named (leAt [2, 0, 0, 0, 0, 0, 0, 0] 0 8), s.ctxState x = 2) := by decide
theorem wit_package : (∀ x, x < 64 → busyCtx (opened.ctxState x) = false) ∧ opened.laneStarted = false := by decide
theorem wit_flash_write : 4096 % 4096 = 0 ∧ 4096 + 8192 ≤ opened.sys.flash.size ∧ 4096 + 8192 < 2 ^ 32 ∧
    opened.laneStarted = false := by decide
theorem wit_reboot : let s : State := { opened with sdm := { opened.sdm with rebootAt := some 5 } }
    s.sdm.rebootAt = some 5 ∧ 5 + 10000 ≤ s.timeUs ∧ s.pstate ≠ 3 ∧ ({ s with timeUs := 10004 } : State).timeUs < 5 + 10000 := by decide
theorem wit_reply_done : let s := card.setF R.sdmMbState F.sdmMbStateState 2
    s.fnReady 1 = true ∧ s.mbState = 2 ∧ s.sdm.rebootAt = none ∧ s.sdm.final = none ∧
    ({ s with sdm := { s.sdm with final := some [1] } } : State).sdm.final = some [1] := by decide
theorem wit_final_reply : let l : LongCmd := ⟨7, 1, [], [], 5, 1⟩
    let s : State := { card with sdm := { card.sdm with long := some l } }
    s.sdm.long = some l ∧ l.op ≠ 9 ∧ s.longDone l = true := by decide
theorem wit_f2 : let o : F2Out := ⟨7, 4, .bytes [1, 2, 3, 4]⟩
    let s : State := { card with sdm := { card.sdm with f2Next := some o } }
    let t := after .f2DataReady s
    s.sdm.f2Next = some o ∧ o.tag < 2 ^ 16 ∧ o.len < 2 ^ 32 ∧ t.fnReady 2 = true ∧ t.f2Open false = true ∧
    t.sdm.f2Src = .bytes [1, 2, 3, 4] ∧ 4 ≤ t.f2Left ∧ t.fnReady 1 = true := by decide
theorem wit_f2_in : let t := after (.setGraft 7 [] 1000) opened
    t.fnReady 2 = true ∧ t.f2Open true = true ∧ 3 < t.f2Left := by decide

/-- Encoder 0 enabled, `x` beyond its registers. -/
def encoded (x : Enc) : State :=
  let s := base.setF R.lckCtrl F.lckCtrlEnc0En 1
  { s with lck := { s.lck with enc0 := x } }
theorem wit_encoder : (quadPhase true true + 4 - quadPhase false false) % 4 = 2 ∧ (quadPhase true false + 4 - quadPhase false false) % 4 ≠ 2 ∧
    (encoded Enc.init).encEn 0 = true ∧ base.encEn 0 = false := by decide
theorem wit_stopped : let s := encoded { Enc.init with fwdAt := 0 }
    s.encEn 0 = true ∧ (s.enc 0).stopped = false ∧ (s.enc 0).fwdAt + 1000 * s.getF R.lckCfg F.lckCfgStopMs ≤ s.timeUs := by decide
theorem wit_velocity : let s := encoded { Enc.init with fwdAt := 10 ^ 12, lastFwd := true }
    s.encEn 0 = true ∧ s.timeUs < (s.enc 0).fwdAt + 1000 * s.getF R.lckCfg F.lckCfgStopMs ∧ (s.enc 0).lastFwd = true ∧
    (encoded Enc.init).encEn 0 = true ∧ (Enc.init).lastFwd = false ∧
    (quadPhase true false + 4 - quadPhase false false) % 4 = 1 ∧ (quadPhase false true + 4 - quadPhase false false) % 4 = 3 ∧
    ((1 == 1) != s.encDir 0) ≠ ((3 == 1) != s.encDir 0) := by decide
theorem wit_mains : base.isSet R.lckCfg F.lckCfgStrobeMains = false ∧
    (let s : State := { base with lck := { base.lck with mainsLost := false, mainsAt := 10 ^ 10 - 100000 } }
     s.lck.mainsLost = false ∧ s.lck.mainsAt + 100000 ≤ s.timeUs) := by decide
/-- An object slot in state `st` with its cut-off due. -/
def object (st : SlotSt) : ObjSlot := ⟨0, 5, 100, 50, 3, 9, 150, st, false, true, none, false, 0, false, 1, 2, 0, 0, 0⟩
theorem wit_cutoff : (base.setSlot 7 ⟨0, some (object .closed), []⟩).slot 7 = some ⟨0, some (object .closed), []⟩ ∧
    (object .closed).cutDue = true ∧ (object .closed).cutReg = false ∧ (object .closed).st = .closed ∧ (object .openS).st ≠ .closed ∧
    base.inSafe = true ∧ (base.setF R.actCtrl F.actCtrlSafeState 0).inSafe = false := by decide
/-- One local output. -/
def output (k : OutKind) (width : Nat) (due : Bool) (on : Option Nat) : LocalOut := ⟨k, 100, none, width, due, on, false⟩
theorem wit_outputs :
    (base.setSlot 7 ⟨0, none, [output (.irq 9) 0 true none]⟩).slot 7 = some ⟨0, none, [output (.irq 9) 0 true none]⟩ ∧
    (base.setSlot 7 ⟨0, none, [output (.gpio 3) 100 false (some 5)]⟩).slot 7
      = some ⟨0, none, [output (.gpio 3) 100 false (some 5)]⟩ ∧
    100 ≤ 10 * (base.timeUs - 5) ∧ base.getF R.actGpioMaxw F.actGpioMaxwMaxWidth ≤ base.timeUs - 5 := by decide
/-- A FIRE frame waits on actuation port 0, whose board is attached; encoder 0 stands at `pos`. -/
def firing (pos : Pos) : State :=
  let s := (ported 6 4).setF R.actLimits F.actLimitsMaxRate 5
  { s with lck := { s.lck with fireQ0 := [⟨1000, 5, 0, 0, [1, 2, 3]⟩], enc0 := { Enc.init with pos := pos } } }
theorem wit_fire : (firing 100).fireQ 0 = [⟨1000, 5, 0, 0, [1, 2, 3]⟩] ∧ (firing 100).fireInTime ⟨1000, 5, 0, 0, [1, 2, 3]⟩ = true ∧
    (firing 100).fireRoom 0 = true ∧ (firing 100).attached (apPort 0) = true ∧
    (firing 100000).fireInTime ⟨1000, 5, 0, 0, [1, 2, 3]⟩ = false := by decide
theorem wit_slots : base.slotGrant = true ∧ Pos.atOrAfter (base.enc 0).pos 500 = false ∧
    ((encoded { Enc.init with syncDue := true }).enc 0).syncDue = true ∧ (base.enc 0).syncAt + 1000 ≤ base.timeUs := by decide
theorem wit_dac : bit (0x10 : Byte).toNat 4 = true ∧ base.dacRuns 4 = false := by decide

theorem wit_training : (ported 2 0).domOn 54 = true ∧ (ported 2 0).portState 2 = 0 ∧ (ported 2 3).attached 2 = false ∧
    (ported 2 1).portState 2 = 1 ∧ ((ported 2 1).port 2).since + 2000 ≤ (ported 2 1).timeUs ∧ (ported 2 2).portState 2 = 2 ∧
    ((ported 2 2).port 2).held = [] ∧ ((ported 2 2).port 2).since + 1000 ≤ (ported 2 2).timeUs ∧ (ported 2 3).portState 2 = 3 ∧
    ((ported 2 3).port 2).since + 10000 ≤ (ported 2 3).timeUs ∧ (ported 2 5).portState 2 = 5 ∧
    ((ported 2 5).port 2).since + 1000000 ≤ (ported 2 5).timeUs ∧ ((ported 2 3).port 2).recOk = false ∧
    ((ported 2 3).port 2).accAt + 1000 ≤ (ported 2 3).timeUs := by decide
/-- What a frame gives on a port. -/
def received (s : State) (p : Nat) (f : Frame) : Option Bytes := (s.rxFrame p f).2
theorem wit_accession : (ported 2 3).portState 2 = 3 ∧ received (ported 2 3) 2 (frame 1 [1, 2, 3] none) = some [1, 2, 3] ∧
    (((ported 2 3).rxFrame 2 (frame 1 [1, 2, 3] none)).1.port 2).recOk = false ∧
    ((ported 2 3).rxFrame 2 (frame 1 [1, 2, 3] none)).1.checkRecord 2 [1, 2, 3] ≠ 0 ∧
    (let s := (ported 2 3).setPort 2 { PortSt.init with recOk := true, record := List.replicate 128 1 }
     received s 2 (frame 2 [0, 0, 3] none) = some [0, 0, 3] ∧ leAt [0, 0, 3] 0 2 = 0 ∧
     ((s.rxFrame 2 (frame 2 [0, 0, 3] none)).1.port 2).recOk = true ∧ leAt [1, 0, 3] 0 2 ≠ 0) := by decide
theorem wit_detach : (ported 4 4).attached 4 = true ∧ Nat.land (1 : Byte).toNat (2 ^ portLanes 4 - 1) ≠ 2 ^ portLanes 4 - 1 ∧
    ((ported 4 4).port 4).lastRxAt + (ported 4 4).keepUs 4 ≤ (ported 4 4).timeUs ∧ (ported 4 4).portEn 4 = true ∧
    received (ported 4 4) 4 (frame 3 [7, 0] (some ⟨1, 2, 0, 0, 0⟩)) = some [7, 0] := by decide
theorem wit_keepalive : let f := frame 4 [] (some ⟨1, 2, 0, 0, 0⟩)
    (ported 4 4).attached 4 = true ∧ ((ported 4 4).port 4).lastTxAt + 100 ≤ (ported 4 4).timeUs ∧ f.hdr.type = 4 ∧
    (ported 4 4).hdrCheck 4 f = .ok ∧ bit f.hdr.flags.toNat 0 = true ∧ bit f.hdr.flags.toNat 1 = true ∧
    received (ported 4 4) 4 f = some [] ∧ (ported 4 4).hdrCheck 4 { f with badBlock := true } = .hdr := by decide
theorem wit_check_values : let s := (ported 2 4).setF (R.prtCvSel 2) F.prtCvSelStream 3
    s.getF (R.prtCvSel 2) F.prtCvSelStream < s.cvStreams 2 ∧ s.isSet (R.prtCvSel 2) F.prtCvSelDir = false ∧
    ((s.port 2).rx.getD 3 RxStream.init).isOpen = false := by decide
theorem wit_partner : (ported 2 4).attached 2 = true ∧ received (ported 2 4) 2 (frame 0x10 [1] none) = some [1] ∧
    received (ported 2 4) 2 (frame 0x11 [7, 0] none) = some [7, 0] ∧ (ported 6 4).attached 6 = true ∧
    received (ported 6 4) 6 (frame 0x48 [1, 2, 3, 4] none) = some [1, 2, 3, 4] := by decide

/-- Member 1 of a fabric of devices 77 and 88, with member 2's port attached. -/
def fabric : State :=
  let s := withPar (withPar (withPar (withPar (withPar ((ported 4 4).setF R.prtFab F.prtFabIndex 1) 0x407 0 (P.fabDev0 + 1) 77)
    0x407 0 (P.fabDev0 + 2) 88) 0x407 0 P.fabFmIndex 1) 0x407 0 P.fabHbPeriod 10) 0x407 0 P.fabHbMiss 3
  s
/-- A peer message of member 2 for member 1, of context 0 and generation `gen`. -/
def peer (type : Nat) (gen : BitVec 4) (bs : Bytes) : Frame := frame type bs (some ⟨1, 2, 0, 0, gen⟩)
/-- The context and generation check passes (or not) on what a peer frame delivers. -/
def peerGives (s : State) (type : Nat) (f : Frame) : Option (PeerExt × Bytes) := (s.rxPeer 4 type f).2
theorem wit_folio_messages :
    (∀ t ∈ [0x60, 0x61, 0x62, 0x63, 0x64, 0x65], peerGives fabric t (peer t 0 [1, 2]) = some (⟨1, 2, 0, 0, 0⟩, [1, 2])) ∧
    (∀ t ∈ [0x61, 0x62, 0x65], (fabric.rxPeer 4 t (peer t 0 [1, 2])).1.staleReply ⟨1, 2, 0, 0, 0⟩ = false) ∧
    peerGives fabric 0x65 (peer 0x65 3 [1]) = some (⟨1, 2, 0, 0, 3⟩, [1]) ∧
    (fabric.rxPeer 4 0x65 (peer 0x65 3 [1])).1.staleReply ⟨1, 2, 0, 0, 3⟩ = true := by decide
/-- A folio of two layers. -/
def folio (st : Nat) (due : Bool) : Folio :=
  { epoch := 1, st := st, ctx := 0, gen := 0, layout := ⟨[(1, false), (2, true)]⟩, positions := 0, pages := [40, 41], admitPos := 0,
    closePos := 0, relPos := 0, flags := 0, originDev := 0, originCall := 0, track := [], nl := [3, 4], s2 := [], rejoin := 0,
    due := due }
/-- `s` with folio 5. -/
def holding (s : State) (f : Folio) : State := { s with stk := { s.stk with folios := [(5, f)] } }
theorem wit_transfers : let x : Xfer := ⟨true, 2, 0, 0, none, 0, 0, 100, 5, [], 0⟩
    let y : Xfer := ⟨false, 2, 3, 4, none, 0, 0, 100, 5, [], 0⟩
    let s := holding base (folio 3 false)
    let u : State := { s with stk := { s.stk with xfers := [(5, x), (6, y)] } }
    u.stk.xfers.get? 5 = some x ∧ u.folio 5 = some (folio 3 false) ∧ 5 + 1000 * u.xferTimeout ≤ u.timeUs ∧
    u.xferOf false 2 (fun z => z.peerCtx == 3 && z.peerGen == 4) = some (6, y) ∧ 97 + [1, 2, 3].length ≤ y.dataLen := by decide
theorem wit_fabric : let hb : Bytes := leBytes 16 88 ++ leBytes 4 5 ++ [1, 1, 0x34, 0x12]
    let other := withPar fabric 0x407 0 P.fabFmIndex 2
    let acting : State := { other with prt := { other.prt with fab := { other.prt.fab with
      acting := some 1, members := [(2, ⟨5, false, 0, 0, 0, 7⟩)] } } }
    peerGives other 0x70 (peer 0x70 0 hb) = some (⟨1, 2, 0, 0, 0⟩, hb) ∧ other.fabOf (leAt hb 0 16) = some 2 ∧ other.isFm = false ∧
    fabric.inFabric = true ∧ fabric.prt.fab.lastHbAt + fabric.hbPeriod ≤ fabric.timeUs ∧ fabric.isFm = true ∧ 2 ≠ fabric.fabIndex ∧
    (fabric.member 2).lost = false ∧ fabric.fabDev 2 ≠ 0 ∧
    (fabric.member 2).hbAt + fabric.fabP P.fabHbMiss * fabric.hbPeriod ≤ fabric.timeUs ∧
    peerGives fabric 0x71 (peer 0x71 0 hb) = some (⟨1, 2, 0, 0, 0⟩, hb) ∧ leAt hb 0x14 1 = 1 ∧ acting.isFm = true ∧
    acting.fabIndex ≠ acting.fabP P.fabFmIndex ∧ (acting.prt.fab.members.get? 2).isSome = true ∧
    (acting.member (acting.fabP P.fabFmIndex)).runSince + 1000000 ≤ acting.timeUs := by decide +kernel

theorem wit_acting_manager : let s := withPar (withPar fabric 0x407 0 P.fabFmIndex 2) 0x407 0 P.fabFmBackup 1
    let alone := withPar (withPar fabric 0x407 0 P.fabFmIndex 2) 0x407 0 P.fabFmBackup 0xFF
    s.inFabric = true ∧ s.isFm = false ∧ s.actingFm = 2 ∧ 2 ≠ s.fabIndex ∧ (s.member 2).lost = false ∧ s.fabDev 2 ≠ 0 ∧
    (s.member 2).hbAt + s.fabP P.fabHbMiss * s.hbPeriod ≤ s.timeUs ∧ s.fabP P.fabFmBackup = s.fabIndex ∧
    alone.inFabric = true ∧ alone.isFm = false ∧ alone.actingFm = 2 ∧ alone.fabP P.fabFmBackup = 0xFF ∧ alone.fabIndex ≠ 0xFF ∧
    alone.fabDev 2 ≠ 0 ∧ (alone.member 2).hbAt + alone.fabP P.fabHbMiss * alone.hbPeriod ≤ alone.timeUs ∧
    (let fresh := s.setMember 2 { s.member 2 with runSince := s.timeUs }
     fresh.timeUs < (fresh.member (fresh.fabP P.fabFmIndex)).runSince + 1000000) := by
  decide +kernel

theorem wit_tile_control : let w : Word := F.tilTestCtrlTile.set (F.tilTestCtrlMode.set (F.tilTestCtrlStart.set 0 1) 2) 67
    base.domOn 3 = false ∧ (up 3).domOn 3 = true ∧ (up 3).isSet (R.tilTestCtrl 1) F.tilTestCtrlStart = false ∧
    F.tilTestCtrlStart.get w = 1 ∧ F.tilTestCtrlTile.get w ≤ 67 ∧ F.tilTestCtrlMode.get w = 2 ∧
    (up 3).isSet (R.tilCtrl 1 67) F.tilCtrlIssueEn = false ∧ F.tilCtrlGrpSize.get (F.tilCtrlGrpSize.set 0 3) = 3 := by decide
theorem wit_test_complete : let s := (base.setF (R.tilTestCtrl 1) F.tilTestCtrlStart 1).setF (R.tilTestCtrl 1) F.tilTestCtrlRuns 1
    s.isSet (R.tilTestCtrl 1) F.tilTestCtrlStart = true ∧
    (List.replicate 32 ([1] : List Int)).length = 16 * (s.getF (R.tilTestCtrl 1) F.tilTestCtrlRuns + 1) := by decide
theorem wit_slew : ({ base.setF R.thmLevel F.thmLevelLevel 2 with pwr := { base.pwr with cycle := 3 } } : State).pwr.cycle
    % (base.setF R.thmLevel F.thmLevelLevel 2).divider ≠ 0 := by decide
/-- The last slice of an input whose column 6 is still to be converted, adding to accumulator 9 of core 1. -/
def slicing : State :=
  let run : InRun := ⟨⟨1, 1, 0, 0, 5, true, [3, 17], 4⟩, some 9, 1, 2, 2, 0, false, false, false⟩
  let s := base.setTile 1 2 { TileRt.init with slices := [⟨4, 1, 1, 40, 0, [6], [], [], false⟩], runs := [(4, run)] }
  { s with mc := { s.mc with acc := [(accKey 1 9, ⟨5, 3, true, 0, 1, false, false, 0, 0, 2, 1, 1, false, []⟩)] } }
theorem wit_slice : (slicing.tile 1 2).slices = [⟨4, 1, 1, 40, 0, [6], [], [], false⟩] ∧
    ((slicing.tile 1 2).runs.get? 4).isSome = true ∧ (slicing.accEntry 1 9).isSome = true := by decide
theorem wit_tile_events : let s := base.setF (R.tilRange 1 2) F.tilRangeQuiet 256
    s.getF (R.tilRange 1 2) F.tilRangeQuiet = 256 ∧ s.getF (R.tilRange 1 2) F.tilRangeStep < 3 ∧
    (base.setF (R.tilPipGain 1 2) F.tilPipGainUsed 4096).getF (R.tilPipGain 1 2) F.tilPipGainUsed = 4096 ∧
    4 * (1000 : Int) ≤ 5 * 1001 ∧ 4 * (1001 : Int) ≤ 5 * 1000 := by decide
theorem wit_mesh : let h := (⟨5, 3, true, 0, 1, false, false, 3, 0, 7, 2, 0, false, []⟩ : AccEntry).header
    base.meshSource (hdrEntry h [1]) = none ∧ base.genOk (hdrEntry h [1]).ctx (hdrEntry h [1]).gen = true ∧ base.freeAccs 1 ≠ [] ∧
    (base.setF (R.dspCxState 3) F.dspCxStateGen 6).genOk (hdrEntry h [1]).ctx (hdrEntry h [1]).gen = false := by decide +kernel

/-- `tiled` with a commit pending. -/
def pendingCommit : State := (tiled 2 { TileRt.init with shd := [(3, 6)] }).setF (R.calTileCtrl 1 2) F.calTileCtrlCommit 1
theorem wit_trims : let s := tiled 2 { TileRt.init with wantCommit := true }
    let sel := (s.setF (R.calTrimSel 1) F.calTrimSelTile 2).setF (R.calTrimSel 1) F.calTrimSelIndex 532
    s.domOn 3 = true ∧ s.commitPending 1 2 = false ∧ base.domOn 3 = false ∧ pendingCommit.commitPending 1 2 = true ∧
    sel.getF (R.calTrimSel 1) F.calTrimSelTile = 2 ∧ sel.getF (R.calTrimSel 1) F.calTrimSelIndex < 533 ∧
    sel.getF (R.calTrimSel 1) F.calTrimSelBank = 0 ∧ (sel.setF (R.calTrimSel 1) F.calTrimSelBank 1).getF (R.calTrimSel 1) F.calTrimSelBank ≠ 0 ∧
    ¬ (sel.isSet (R.calTrimSel 1) F.calTrimSelField = true ∧ 512 ≤ 532 ∧ 532 < 528) ∧
    (pendingCommit.tile 1 2).whole = true ∧ s.commitFree 1 2 = true ∧ (s.tile 1 2).wantCommit = true ∧ s.tileTracked 1 2 = true ∧
    (s.tile 1 2).commitAt + 1000000 * s.tuneP P.tuneCalEpochMax ≤ s.timeUs ∧
    1 ∈ ({ s with thm := { s.thm with slewing := [1] } } : State).thm.slewing ∧ 1 ∉ s.thm.slewing := by decide
theorem wit_gaps : let x : TileRt := { TileRt.init with gaps := [⟨0, 0⟩] }
    let s := tiled 3 x
    let t : State := { s with pwr := { s.pwr with cycle := 125000 } }
    s.tileTracked 1 2 = true ∧ (tiled 3 TileRt.init).gapPeriod 0 ≤ s.timeUs ∧ s.gapPeriod 1 ≤ s.timeUs ∧ s.gapPeriod 2 ≤ s.timeUs ∧
    s.flashBusy = false ∧ (t.tile 1 2).gapAt + 125000 ≤ t.pwr.cycle ∧ (s.tile 1 2).gaps.find? (fun g => g.left == 0) = some ⟨0, 0⟩ ∧
    s.commitPending 1 2 = false ∧ s.commitFree 1 2 = true ∧
    (tiled 3 { x with commitAt := 10 ^ 10 }).commitFree 1 2 = false := by decide
/-- A measured tile. -/
def measured (factoryOk pipsOk : Bool) : CalResult := ⟨factoryOk, pipsOk, false, [⟨4, false, 9⟩], false, true, 0, 200⟩
theorem wit_calibration : let s : State := { tiled 1 { TileRt.init with fac := ⟨true, 1, 2, [], []⟩ } with
      cal := { base.cal with running := true } }
    s.tileState 1 2 = 1 ∧ s.cal.running = true ∧ (s.tile 1 2).retired = false ∧ s.jobOf (tileKey 1 2) = none ∧
    (s.tile 1 2).fac.ok = true ∧ (measured true true).factoryOk = true ∧ (measured true false).pipsOk = false ∧
    (measured false true).factoryOk = false := by decide
theorem wit_calibration_done : let s : State := { opened with cal := { base.cal with running := true } }
    s.calibDue = true ∧ s.sys.boot = none ∧ s.namedStart = none ∧ s.sys.leaving = false := by decide +kernel
theorem wit_cache : let s : State := { opened with cal := { base.cal with complete := true } }
    s.cal.complete = true ∧ s.getF R.pwrState F.pwrStateState = 0 ∧ s.isSet R.thmLevel F.thmLevelStopping = false ∧
    (let t : State := { s with timeUs := 10 ^ 15 }
     t.cal.cacheAt + t.tuneP P.tuneCachePeriod * 3600000000 ≤ t.timeUs) := by decide
/-- An archive slot that has been loaded and verified. -/
def goodSlot : ArcSlot := ⟨true, true, List.replicate 256 0⟩
/-- Tile 2 of core 1 with programming run `r`, in a repair job that puts logical tile 9 into it. -/
def programmed (r : ProgRun) : State :=
  let s := (((tiled 4 { TileRt.init with prog := some r }).setF R.pwrPumpLim F.pwrPumpLimTiles 32).setDomOn 68 true)
  { s with cal := { s.cal with jobs := [(1, ⟨.repair [(9, tileKey 1 2)], [tileKey 1 2], 0⟩)] }
           stk := { s.stk with slots := [(9, goodSlot)] } }
theorem wit_refresh : let s := (base.setTileState 1 2 3).setTileState 1 64 6
    let t : State := { s.setTile 1 2 { TileRt.init with holds := some 9 } with
      stk := { s.stk with slots := [(9, goodSlot)] }, dsp := { s.dsp with place := [(9, tileKey 1 2)] } }
    t.refreshPick = some (tileKey 1 2, tileKey 1 64) ∧ t.refreshes none < t.tuneP P.tuneRefreshMaxDev ∧ t.progHeld = false ∧
    (∀ c, c < 16 → t.reliefUsed c < 4) := by decide +kernel
theorem wit_pump : let r : ProgRun := ⟨0, 0, 0, 5, false⟩
    let q : ProgRun := ⟨3, 0, 0, 5, false⟩
    (programmed r).pumpHead = some (tileKey 1 2, r) ∧ (programmed r).pumpFits (tileKey 1 2) r = true ∧ (programmed r).progHeld = false ∧
    (programmed r).jobOf (tileKey 1 2) = some (1, ⟨.repair [(9, tileKey 1 2)], [tileKey 1 2], 0⟩) ∧
    (programmed r).jobLogical ⟨.repair [(9, tileKey 1 2)], [tileKey 1 2], 0⟩ (tileKey 1 2) = some 9 ∧
    (programmed r).slotReady 9 = some goodSlot ∧ (programmed q).pumpHead = some (tileKey 1 2, q) ∧
    (programmed q).pumpFits (tileKey 1 2) q = true ∧
    ((programmed q).setF R.pwrPumpLim F.pwrPumpLimTiles 0).pumpFits (tileKey 1 2) q = false := by decide +kernel
theorem wit_batches : ((programmed ⟨1, 2174, 0, 5, true⟩).tile 1 2).prog = some ⟨1, 2174, 0, 5, true⟩ ∧ 2174 + 1 < 2176 ∧
    ((programmed ⟨4, 2175, 60, 5, true⟩).tile 1 2).prog = some ⟨4, 2175, 60, 5, true⟩ ∧ 2175 + 1 = 2176 ∧ 60 + 4 ≤ 64 ∧
    ((programmed ⟨2, 0, 0, 5, false⟩).tile 1 2).prog = some ⟨2, 0, 0, 5, false⟩ ∧ 5 + 100000 ≤ base.timeUs := by decide
theorem wit_settled_head : let s := programmed ⟨2, 0, 0, 5, false⟩
    let u := s.setTile 1 2 { s.tile 1 2 with prog := some ⟨3, 0, 0, s.timeUs, false⟩ }
    u.pumpHead = some (tileKey 1 2, ⟨3, 0, 0, s.timeUs, false⟩) ∧ (u.setDomOn 68 false).pumpHead = none := by decide +kernel
theorem wit_switch : let s : State := { base with
      dsp := { base.dsp with place := [(9, tileKey 1 2)] }, cal := { base.cal with switches := [(9, tileKey 1 66)] } }
    let run : InRun := ⟨⟨1, 1, 0, 0, 5, true, [3, 17], 4⟩, some 9, 1, 1, 2, 0, false, false, false⟩
    tileKey 1 2 ≠ tileKey 1 66 ∧ s.cal.switches.find? (fun e => s.placeL e.1 == tileKey 1 2) = some (9, tileKey 1 66) ∧
    (s.tile 1 2).whole = true ∧ s.cal.jobs = [] ∧
    ((s.setTile 1 2 { TileRt.init with runs := [(4, run)] }).tile 1 2).whole = false := by decide
/-- An archive of two slots, whose slot 0 the flash holds at address 0 and is the next to be loaded. -/
def archived : State :=
  let man : Bytes := List.replicate 8 0 ++ [1] ++ List.replicate 39 0 ++ [0x23] ++ List.replicate 47 0
  { base with
    sys := { base.sys with intMan := man, flash := { base.sys.flash with mem := [(0, 0x4C), (1, 0x49), (2, 0x54), (3, 0x57), (4, 1),
      (5, 0), (6, 0), (7, 0)] } }
    dsp := { base.dsp with pkgs := [(0, { (default : Pkg) with dir := ⟨[(0, 0), (0, 1)], []⟩ })] }
    stk := { base.stk with arcPkg := some 0, built := true } }
theorem wit_archive : archived.stk.arcPkg = some 0 ∧ archived.nextSlot = some 0 ∧ archived.stk.built = true ∧
    archived.cal.modelWait = none ∧ slotCode true true (archived.flashTile 0 0) 0 = 0 ∧ 1 < archived.arcTiles ∧
    archived.stk.slots.get? 1 = none := by decide +kernel

/-- Converter B powered, in state `st`, run, and single (0) or sequence (1) mode. -/
def converter (st run mode : Nat) : State :=
  (((up 62).setF (R.monCvState 1) F.monCvStateState st).setF (R.monCvCtrl 1) F.monCvCtrlRun run).setF (R.monCvCtrl 1) F.monCvCtrlMode mode
theorem wit_monitor_starts : (up 62).convPowered 1 = true ∧ (converter 1 0 0).convRuns 1 = false ∧ (converter 1 1 0).convRuns 1 = true ∧
    (converter 1 1 0).convSeq 1 = false ∧ (converter 1 1 0).convState 1 = 1 ∧ (converter 1 1 1).convSeq 1 = true ∧
    (converter 3 1 0).convState 1 ≠ 1 ∧ (up 62).isSet (R.monCvCmd 1) F.monCvCmdUrgent = false ∧
    (up 62).isSet (R.monCvCmd 1) F.monCvCmdSelfcal = false ∧ (converter 3 1 0).convState 1 = 3 ∧
    ((converter 1 1 0).setF (R.monCvCtrl 0) F.monCvCtrlTrig 4).edgeTaken 0 3 true = false ∧
    (((converter 1 1 0).setF (R.monCvCtrl 1) F.monCvCtrlTrig 3).setF (R.monCvCtrl 1) F.monCvCtrlEdge 2).edgeTaken 1 3 true = true ∧
    (((converter 1 1 0).setF (R.monCvCtrl 1) F.monCvCtrlTrig 3).setF (R.monCvCtrl 1) F.monCvCtrlEdge 1).edgeTaken 1 3 true = false ∧
    (let w : Word := F.monCvCtrlRun.set (F.monCvCtrlRate.set (F.monCvCtrlTrig.set 0 4) 7) 1
     F.monCvCtrlRate.get w < 8 ∧ F.monCvCtrlTrig.get w < 5 ∧ F.monCvCtrlEdge.get w ≠ 3 ∧ F.monCvCtrlRun.get w = 1) ∧
    5 ≤ F.monCvCtrlTrig.get (F.monCvCtrlTrig.set 0 5) ∧ F.monCvCtrlEdge.get (F.monCvCtrlEdge.set 0 3) = 3 ∧
    F.monSnapSelConv.get (F.monSnapSelConv.set (F.monSnapSelSnap.set 0 1) 1) = 1 := by decide +kernel
theorem wit_monitor_results : let s := (converter 3 1 0).setF (R.monCvState 1) F.monCvStateChan 5
    s.convState 1 = 3 ∧ s.convSeq 1 = false ∧ s.overRange 1 1000 false = false ∧ railBad 5 (s.convResult 1 1000) = false ∧
    s.overRange 1 1000 true = true ∧
    (let t := (converter 4 1 0).setConv 1 { ((converter 4 1 0).conv 1) with held := some 31 }
     t.convState 1 = 4 ∧ t.sys.railWait = none ∧ t.convRuns 1 = true ∧ (t.conv 1).held = some 31 ∧
     t.isSet (R.monCvCmd 1) F.monCvCmdSelfcal = false ∧ t.mon.xWait = false ∧ t.sys.ccUp = false) ∧
    (converter 5 0 0).convState 1 = 5 ∧ (List.replicate 9 (-3) : List Int).length = 9 ∧
    ((converter 2 1 1).setConv 1 { ((converter 2 1 1).conv 1) with delayAt := some 5 }).convState 1 = 2 ∧
    (((converter 2 1 1).setConv 1 { ((converter 2 1 1).conv 1) with delayAt := some 5 }).conv 1).delayAt = some 5 := by decide +kernel
theorem wit_selfcal : let o := rneDiv (List.replicate 9 (-3) : List Int).sum 9
    let den := 10 * ((List.replicate 9 5033161 : List Int).sum - 9 * o)
    let num : Int := 50331648 * 9
    (List.replicate 9 (-3) : List Int).sum.natAbs ≤ 65536 * 9 ∧ 0 < den ∧ 95 * den ≤ num * 100 ∧ num * 100 ≤ 105 * den ∧
    ¬ (0 < 10 * ((List.replicate 9 (-4) : List Int).sum - 9 * o)) := by decide
theorem wit_cross_check : let s := (converter 1 1 0).setF R.monXchkCfg F.monXchkCfgPeriod 1
    let t := (s.setF (R.monCvCtrl 0) F.monCvCtrlRun 1)
    s.getF R.monXchkCfg F.monXchkCfgPeriod ≠ 0 ∧ s.mon.xAt + 1 * 1000000 ≤ s.timeUs ∧ s.xchkSkipped = true ∧ t.xchkSkipped = false ∧
    t.convTaken 0 = false ∧ t.convTaken 1 = false ∧ (t.setF (R.monCvState 0) F.monCvStateState 4).convTaken 0 = true := by decide

/-- Domain 62 off with the sequencer as given. -/
def sequenced (queue : List Nat) (ramping : Tab Nat) (gateAfter : List Nat) : State :=
  { base with pwr := { base.pwr with queue := queue, ramping := ramping, gateAfter := gateAfter } }
theorem wit_domains : base.domOn 62 = false ∧ 62 ∉ base.pwr.queue ∧ base.pwr.ramping.get? 62 = none ∧ (up 62).domOn 62 = true ∧
    (up 62).domStep 62 (up 62).pwr.gated = false ∧ (sequenced [] [(62, 5)] []).pwr.ramping.get? 62 = some 5 ∧
    62 ∉ (sequenced [] [(62, 5)] []).pwr.gateAfter ∧ (sequenced [62] [] []).pwr.queue = [62] ∧ base.pwr.steps = [] ∧
    (domSpec 62).1 ≤ base.getF R.pwrInrushBudget F.pwrInrushBudgetValue ∧ base.domStep 62 base.pwr.ramping = false ∧
    (base.setF R.pwrInrushBudget F.pwrInrushBudgetValue 0).getF R.pwrInrushBudget F.pwrInrushBudgetValue < (domSpec 62).1 ∧
    base.sys.leaving = false ∧ 5 + 2 * (domSpec 62).2.1 ≤ base.timeUs := by decide
/-- The handshake as given, with the dispatcher on. -/
def handshake (steps : List PlanStep) (reqAt madeAt cutAt : Option Nat) : State :=
  { up 66 with pwr := { base.pwr with steps := steps, reqAt := reqAt, madeAt := madeAt, cutAt := cutAt } }
theorem wit_handshake : base.domOn 66 = false ∧ (up 66).domOn 66 = true ∧ ((up 66).setF R.pwrLoadstep F.pwrLoadstepEn 0).bigStep = false ∧
    (up 66).laneStarted = false ∧
    (((List.range 16).foldl (fun s c => s.setDomOn (3 * c + 1) true) (up 66)).setF R.pwrLoadstep F.pwrLoadstepEn 1).bigStep = true ∧
    PlanStep.dispEn ∉ (up 66).pwr.steps ∧ (up 66).pwr.ack = false ∧ (up 66).pwr.reqAt = none ∧
    (handshake [.dispEn] (some 5) none none).pwr.reqAt = some 5 ∧ (handshake [.dispEn] (some 5) none none).pwr.madeAt = none ∧
    (handshake [.dispEn] (some 5) none none).laneStarted = false ∧
    5 + base.getF R.pwrLoadstep F.pwrLoadstepTimeout ≤ base.timeUs ∧
    (handshake [] (some 5) (some 7) none).pwr.madeAt = some 7 ∧ 7 + 100 ≤ base.timeUs ∧
    (handshake [.dispEn] none none (some 9)).pwr.steps ≠ [] ∧ (handshake [] none none (some 9)).pwr.cutAt = some 9 := by decide +kernel
theorem wit_thermal : let s : State := { base with thm := { base.thm with level := 1, hotAt := some 5, coldAt := some 5 } }
    let t : State := { base with thm := { base.thm with level := 2, coolAt := some 5 } }
    (List.replicate 68 (1024 : Int)).length = 68 ∧ (∀ x ∈ List.replicate 68 (1024 : Int), -55 * 64 < x ∧ x < 108 * 64) ∧
    (∀ i, i < 68 → base.sensorFailed i = false) ∧ s.thm.hotAt = some 5 ∧ s.thm.level = 1 ∧ 5 + 10000 ≤ s.timeUs ∧
    t.thm.coolAt = some 5 ∧ t.thm.level = 2 ∧ s.thm.coldAt = some 5 ∧ s.bigStep = false ∧
    s.isSet R.thmLevel F.thmLevelPower = false ∧ s.isSet R.thmLevel F.thmLevelStopping = false := by decide +kernel
theorem wit_power_limit : let s : State := { base.setF R.thmLevel F.thmLevelPower 1 with pwr := { base.pwr with lowAt := some 5 } }
    (7500 : BitVec 16).toNat ≤ 100 * base.getF R.pwrLimit F.pwrLimitValue ∧
    100 * base.getF R.pwrLimit F.pwrLimitValue < (7501 : BitVec 16).toNat ∧ base.isSet R.thmLevel F.thmLevelPower = false ∧
    s.pwr.lowAt = some 5 ∧ s.isSet R.thmLevel F.thmLevelPower = true ∧ s.bigStep = false := by decide
theorem wit_stops : let s : State := { base with thm := { base.thm with stopAt := some 5, drained := true } }
    let t : State := { withPar opened 0x409 0 P.pwrIdleStandbyS 1 with
      pwr := { base.pwr with idleAt := some 5 }, sys := { base.sys with ccUp := true } }
    let u : State := { base with sys := { base.sys with railWait := some 5 } }
    s.thm.stopAt = some 5 ∧ s.thm.drained = true ∧ base.thm.drained = false ∧ 5 + 5000 ≤ s.timeUs ∧ base.sensorFailed 7 = false ∧
    t.pwr.idleAt = some 5 ∧ 0 < t.pwrP P.pwrIdleStandbyS ∧ t.mayIdle = true ∧ 5 + 1000000 * t.pwrP P.pwrIdleStandbyS ≤ t.timeUs ∧
    u.sys.railWait = some 5 ∧ 5 + 100000 ≤ u.timeUs ∧ u.sys.railCmd = none := by decide

/-- Context 5 in state `st`, with `x` beyond its registers, and the dispatcher on. -/
def context (st : Nat) (x : CtxSt) : State := ((up 66).setF (R.dspCxState 5) F.dspCxStateState st).setCtx 5 x
theorem wit_contexts : (context 2 CtxSt.init).ctxState 5 = 2 ∧ (context 6 CtxSt.init).ctxState 5 = 6 ∧
    ((context 2 { CtxSt.init with saving := true }).ctx 5).saving = true ∧
    (context 2 { CtxSt.init with saving := true }).saveReady 5 = true ∧
    (context 2 CtxSt.init).domOn 66 = true ∧ base.domOn 66 = false ∧ ((context 2 CtxSt.init).ctx 5).tdWait = false ∧
    ((context 2 { CtxSt.init with genAt := some (10 ^ 10 - 999) }).ctx 5).genAt = some (10 ^ 10 - 999) ∧
    ((context 2 CtxSt.init).ctx 5).genAt = none ∧ (context 2 CtxSt.init).dsp.insts = [] ∧ (context 2 CtxSt.init).dsp.tokens = [] ∧
    (context 2 CtxSt.init).ctxLanes 5 = [] ∧ (context 0 CtxSt.init).ctxState 5 = 0 ∧
    ((context 2 { CtxSt.init with genAt := some (10 ^ 10 - 1000), tdWait := true }).ctx 5).tdWait = true ∧
    (context 4 CtxSt.init).ctxState 5 = 4 ∧ (context 4 CtxSt.init).outstanding 5 = 0 ∧
    ((context 4 CtxSt.init).setF (R.dspCxOutstanding 5) F.dspCxOutstandingCount 1).outstanding 5 ≠ 0 ∧
    (context 4 CtxSt.init).rcvP P.rcvFaultedCtxDrr ≠ 1 ∧ ((context 4 CtxSt.init).ctx 5).tdAt + 2000 ≤ base.timeUs ∧
    (context 4 CtxSt.init).heldBy 5 = [] := by decide
/-- One instance of a task of the kind, for core 1's vector engine, of context 0 at generation 0 and token 3 of object 7. -/
def instanced (kind : Nat) (st : InstSt) : State :=
  let pkg : Pkg := { (default : Pkg) with cats := [{ (default : Catalogue) with tasks := [{ (default : TaskRec) with kind := kind }] }] }
  { (up 66).setF R.dspCtrl F.dspCtrlDispEn 1 with
    dsp := { base.dsp with running := some 0, pkgs := [(0, pkg)], insts := [(4, ⟨0, 0, 0, 3, 0, st, 1, 2, 0, 5, 0⟩)],
                           tokens := [(3, ⟨0, 0, 0, 0, 0, some 7, none, 0, 0, []⟩)] } }
theorem wit_release : base.isSet R.dspCtrl F.dspCtrlDispEn = false ∧ (instanced 2 .running).engBusy 1 2 = true ∧
    (instanced 2 .ready).isSet R.dspCtrl F.dspCtrlDispEn = true ∧ (instanced 2 .ready).engFenced 1 2 = false ∧
    (instanced 2 .ready).engBusy 1 2 = false ∧
    (instanced 2 .ready).nextReady 1 2 = some (4, ⟨0, 0, 0, 3, 0, .ready, 1, 2, 0, 5, 0⟩) ∧
    (instanced 2 .ready).dsp.gathers.get? 0 = none := by decide +kernel
theorem wit_instance : (∀ k ∈ [2, 6, 7], ((instanced k .running).inst 4).isSome = true ∧
      (instanced k .running).instTask ⟨0, 0, 0, 3, 0, .running, 1, 2, 0, 5, 0⟩ = some { (default : TaskRec) with kind := k }) ∧
    ((instanced 2 .running).token 3).bind (·.call) = some 7 ∧ (instanced 2 .running).genOk 0 0 = true ∧ opFits 2 (.rowWise .softmax [0] 0) = true ∧
    (instanced 2 .running).opReady 4 ⟨0, 0, 0, 3, 0, .running, 1, 2, 0, 5, 0⟩ (.rowWise .softmax [0] 0) = true ∧
    (instanced 2 .running).saveReady 0 = false ∧ opFits 3 .plain = false ∧ ((instanced 2 .running).setF (R.dspCxState 0) F.dspCxStateGen 9).genOk 0 0 = false ∧
    5 + (instanced 6 .running).regNat (R.dspBudget 0) ≤ base.timeUs := by decide +kernel
theorem wit_decide : (instanced 7 .running).decideAction 0 true [⟨0x7FC00000, 3⟩] = none ∧
    (instanced 7 .running).decideAction 0 false [⟨5, 256⟩] = some none ∧
    ((instanced 7 .running).decideAction 0 false [⟨5, 255⟩]).bind id ≠ none := by decide +kernel
theorem wit_gather : let ga : Gather := ⟨5, 1, 0, [4], 5, false⟩
    let s : State := { base with dsp := { base.dsp with gathers := [(9, ga)] } }
    s.dsp.gathers = [(9, ga)] ∧ ga.closed = false ∧ s.ctxP 5 P.ctxGatherWait ≤ 10 * (s.timeUs - ga.since) ∧
    10 * ((base.timeUs) - 10 ^ 10) < (withPar base 0x403 5 P.ctxGatherWait 1).ctxP 5 P.ctxGatherWait := by decide

/-- One outstanding request of context 3 for page 77. -/
def requested (k : ReqKind) : State :=
  { (up 48).setF R.stkCtrl F.stkCtrlScrubEn 1 with
    stk := { base.stk with reqs := [(9, ⟨k, 3, 0, 1, 2, 77, 5⟩)], built := true, appends := [(1, ⟨5, 1, 3, 1⟩)],
                           folios := [(5, folio 1 false)] } }
theorem wit_requests : (requested (.xfer 4)).stk.reqs.get? 9 = some ⟨.xfer 4, 3, 0, 1, 2, 77, 5⟩ ∧ (requested (.append 1)).genOk 3 0 = true ∧
    (requested (.append 1)).stk.appends.get? 1 = some ⟨5, 1, 3, 1⟩ ∧ (requested (.append 1)).folio 5 = some (folio 1 false) ∧
    1 < (folio 1 false).layout.layers.length ∧ 5 + 50 ≤ base.timeUs ∧ (requested .archive).isSet R.stkCtrl F.stkCtrlScrubEn = true ∧
    77 < (requested .archive).topPage ∧ (requested .archive).stk.built = true ∧
    (base.setF R.stkCtrl F.stkCtrlScrubEn 0).isSet R.stkCtrl F.stkCtrlScrubEn = false := by decide
theorem wit_release_folio : let s := holding base (folio 2 true)
    s.folio (5 : BitVec 24).toNat = some (folio 2 true) ∧ (folio 2 true).due = true ∧ s.firstDue 5 (folio 2 true) = true ∧
    s.stk.selfRefresh = false ∧ (folio 1 false).due = false := by decide
theorem wit_force_close : let s := (holding base (folio 1 false)).setF (R.stkShOpenMax (callShelf 5)) F.stkShOpenMaxLc 7
    let t : State := { s with lck := { s.lck with enc0 := { Enc.init with pos := 7 }, enc1 := { Enc.init with pos := 7 } } }
    let p := (folio 1 false).start + BitVec.ofNat 48 (t.getF (R.stkShOpenMax (callShelf 5)) F.stkShOpenMaxLc)
    (folio 1 false).st = 1 ∧ Pos.atOrAfter (t.shelfPos (callShelf 5)) p = true ∧ t.slotOfCall 5 = [] ∧
    Pos.atOrAfter (s.shelfPos (callShelf 5)) p = false ∧ (folio 2 false).st ≠ 1 := by decide
theorem wit_low_water : (up 48).domOn 48 = true ∧ base.domOn 48 = false := by decide

/-- Core 1's ladder as given. -/
def ladder (l : Ladder) : State :=
  ({ base with flt := { base.flt with slots := [(0, ⟨1, 1, 2, 0, 0, 0, 0, 0, 0, 1, 1, 0⟩)] } } : State).setLadder 1 l
theorem wit_ladder : let copy : Ladder := { Ladder.init with engines := 4, slotOf := [(2, 0)], fencedAt := [(2, 5)] }
    let reset : Ladder := { Ladder.init with engines := 4, resetAt := [(2, 5)] }
    (ladder copy).copying 1 2 = some 0 ∧ base.copying 1 2 = none ∧ ((ladder copy).ladder 1).fencedAt.get? 2 = some 5 ∧
    5 + 20 ≤ base.timeUs ∧ ((ladder reset).ladder 1).resetAt.get? 2 = some 5 ∧ bit ((ladder reset).ladder 1).engines 2 = true ∧
    (ladder reset).stk.reqs = [] ∧ 5 + 200 ≤ base.timeUs := by decide
theorem wit_core : let s := (ladder { Ladder.init with offAt := some 5 }).setCoreState 1 2
    let t := ((ladder { Ladder.init with offAt := some 5, savedTiles := List.replicate 68 3 }).setCoreState 1 2)
    let u := (t.setDomOn 4 true).setDomOn 5 true
    (s.ladder 1).offAt = some 5 ∧ s.coreState 1 = 2 ∧ (s.ladder 1).waking = false ∧ 5 + 1000 ≤ s.timeUs ∧
    (∀ d ∈ [4, 5], s.domOn d = false ∧ d ∉ s.pwr.queue ∧ s.pwr.ramping.get? d = none) ∧
    u.coreState 1 = 2 ∧ u.domOn 4 = true ∧ u.domOn 5 = true ∧ (u.ladder 1).savedTiles.length = 68 ∧
    (∀ v ∈ (u.ladder 1).savedTiles, v < 8) ∧ base.coreState 1 ≠ 2 ∧
    ((ladder { Ladder.init with fenceAt := some 5 }).ladder 1).fenceAt = some 5 ∧ 5 + 2000 ≤ base.timeUs ∧
    (base.ladder 1).fenceAt = none := by decide
theorem wit_watchdog : let s : State := { base with sys := { base.sys with ccUp := true } }
    s.sys.ccUp = true ∧ 2 ∉ s.sys.halted ∧ s.flt.kicks.getD 2 0 + 100000 ≤ s.timeUs ∧ s.sys.aon = true ∧
    (base.setPwrState 3).getF R.pwrState F.pwrStateState = 3 ∧ s.getF R.pwrState F.pwrStateState ≠ 3 ∧
    s.isSet R.thmLevel F.thmLevelStopping = false ∧ s.flt.drrTimes = [] ∧
    ({ s with flt := { s.flt with drrAt := some 5 } } : State).flt.drrAt = some 5 ∧ s.sys.boot = none ∧ 5 + 30000 ≤ s.timeUs := by decide
theorem wit_records : let r : Rec := ⟨9, 9, 3, 1, 4, 5, 6, true⟩
    let s : State := { base with flt := { base.flt with openRecs := [r], pending := [⟨1, 2, 3, 0, 0, 0, 0, 0, 0, 0, 0⟩], pendSince := 5 } }
    (∀ r ∈ base.flt.openRecs, ¬ (r.src = 7 ∧ r.code = 8)) ∧ base.flt.openRecs.length < 256 ∧ s.flt.openRecs = [r] ∧
    s.flt.closed.length < 64 ∧ s.sys.ccUp = false ∧ r.first + 10000 ≤ s.timeUs ∧ s.flt.pending ≠ [] ∧
    s.flt.pendSince + 1000000 ≤ s.timeUs := by decide
theorem wit_store : let j : PJob := ⟨1, .cache [1, 2], true, [(2047, [4, 5])], 7⟩
    let s : State := { up 64 with pst := { base.pst with queue := [j] } }
    let r : PRun := ⟨{ j with left := [] }, 2047, [4, 5], none, 5, true⟩
    let t : State := { up 64 with pst := { base.pst with run := some r, countDue := [2] } }
    s.domOn 64 = true ∧ base.domOn 64 = false ∧ s.pst.run = none ∧ s.pst.lastEnd = none ∧ s.pst.queue = [j] ∧ j.begun = true ∧
    t.pst.run = some r ∧ r.job.kind = .cache [1, 2] ∧ r.job.left = [] ∧ r.retried = true ∧ t.pst.hourAt + 3600000000 ≤ t.timeUs ∧
    s.slotWaits 2 = false ∧ 2 ∈ t.pst.countDue := by decide
theorem wit_power : State.reset.sys.aon = false ∧ base.sys.aon = true ∧ base.getF R.pwrState F.pwrStateState < 2 ∧
    2 ≤ (base.setPwrState 2).getF R.pwrState F.pwrStateState ∧ base.getF R.idBoot F.idBootStage ≠ 4 := by decide
theorem wit_training_done : let s : State := { (((up 48).setDomOn 49 true).setDomOn 50 true).setDomOn 51 true with
      sys := { base.sys with boot := some .powerOn, ccUp := true } }
    let t := s.setF R.idBoot F.idBootStage 4
    t.sys.boot = some .powerOn ∧ t.getF R.idBoot F.idBootStage = 4 ∧ t.sys.ccUp = true ∧ t.pwr.queue = [] ∧ t.pwr.ramping = [] ∧
    t.domOn 48 = true ∧ t.domOn 49 = true ∧ t.domOn 50 = true ∧ t.domOn 51 = true := by decide

end Sys2Proof.Tests
end

section
/-! PROOF. The clear of a status register in a cycle in which the hardware sets bits of it (R13, R17, R18): where the
status, enable and counter registers lie, what `setStatus` and `statusClear` leave in each, and O14. -/

namespace Sys2Proof.Machine

/-! ### Writes that reach nothing but registers -/

theorem State.regsOnly_refl (s : State) : s.regsOnly s := rfl

theorem State.regsOnly_setReg (s : State) (a : Nat) (w : Word) : s.regsOnly (s.setReg a w) := rfl

theorem State.regsOnly.trans {s t u : State} (h : s.regsOnly t) (k : t.regsOnly u) : s.regsOnly u := by
  unfold State.regsOnly at h k ⊢
  rw [k, h]

/-! ### Where the registers of a status register lie -/

/-- The counters of a status register lie above the register itself. -/
theorem statusAddr_lt_statusEvt (r : StatusReg) : statusAddr r < statusEvt r := by
  cases r <;> simp only [statusAddr, statusEvt, R.tilStatus, R.tilSatEvt, R.calStatus, R.calShbEvt, R.vecQstatus,
    R.vecIsatEvt, R.accStatus, R.accWaitEvt, R.stkStatus, R.stkFullEvt, R.dspStatus, R.dspTmoEvt, R.dspCxState,
    R.dspCxTdEvt, R.lckStatus, R.lckE0errEvt, R.lckLnStatus, R.lckLnWfEvt, R.actStatus, R.actClipEvt, R.prtStatus,
    R.prtDetEvt, R.monStatus, R.monOvraEvt, R.pwrStatus, R.pwrInrEvt, R.thmStatus, R.thmThrEvt, R.fltStatus,
    R.fltNewsrcEvt, R.fltHostStatus, R.fltHfltEvt, R.pstStatus, R.pstTornEvt, R.sdmHostStatus, R.sdmReplyEvt] <;> omega

/-- The interrupt enables of a status register lie between it and its counters. -/
theorem statusIntEn_between {r : StatusReg} {e : Nat} (h : statusIntEn r = some e) :
    statusAddr r < e ∧ e < statusEvt r := by
  cases r <;> simp only [statusIntEn, Option.some.injEq, reduceCtorEq] at h <;> subst h <;>
    simp only [statusAddr, statusEvt, R.tilStatus, R.tilIntEn, R.tilSatEvt, R.vecQstatus, R.vecQintEn, R.vecIsatEvt,
      R.accStatus, R.accIntEn, R.accWaitEvt, R.stkStatus, R.stkIntEn, R.stkFullEvt, R.dspStatus, R.dspIntEn, R.dspTmoEvt,
      R.lckStatus, R.lckIntEn, R.lckE0errEvt, R.actStatus, R.actIntEn, R.actClipEvt, R.prtStatus, R.prtIntEn, R.prtDetEvt,
      R.monStatus, R.monIntEn, R.monOvraEvt, R.pwrStatus, R.pwrIntEn, R.pwrInrEvt, R.thmStatus, R.thmIntEn, R.thmThrEvt,
      R.fltStatus, R.fltIntEn, R.fltNewsrcEvt, R.fltHostStatus, R.fltHostIntEn, R.fltHfltEvt, R.pstStatus, R.pstIntEn,
      R.pstTornEvt, R.sdmHostStatus, R.sdmHostIntEn, R.sdmReplyEvt] <;> omega

/-- No status register holds the power domains' on bits. -/
theorem pwrDomOn_ne_statusAddr (k : Nat) (r : StatusReg) : R.pwrDomOn k ≠ statusAddr r := by
  cases r <;> simp only [statusAddr, R.pwrDomOn, R.tilStatus, R.calStatus, R.vecQstatus, R.accStatus, R.stkStatus,
    R.dspStatus, R.dspCxState, R.lckStatus, R.lckLnStatus, R.actStatus, R.prtStatus, R.monStatus, R.pwrStatus, R.thmStatus,
    R.fltStatus, R.fltHostStatus, R.pstStatus, R.sdmHostStatus] <;> omega

theorem State.domOn_congr {s t : State} {d : Nat} (h : t.reg (R.pwrDomOn (d / 32)) = s.reg (R.pwrDomOn (d / 32))) :
    t.domOn d = s.domOn d := by
  unfold State.domOn State.regNat
  rw [h]

/-- Clearing status bits switches no domain. -/
theorem State.regOn_clearBits_statusAddr (s : State) (r : StatusReg) (m : Word) (a : Nat) :
    (s.clearBits (statusAddr r) m).regOn a = s.regOn a := by
  have hdom (d : Nat) : (s.clearBits (statusAddr r) m).domOn d = s.domOn d :=
    State.domOn_congr (State.reg_clearBits_ne s m (pwrDomOn_ne_statusAddr _ r))
  unfold State.regOn
  cases domainOf a with
  | none => rfl
  | some d => exact hdom d

/-! ### The status mask -/

theorem bit_eq_testBit (v i : Nat) : bit v i = v.testBit i := by
  rw [Nat.testBit_eq_decide_div_mod_eq]; rfl

theorem statusBits_le (r : StatusReg) : (statusBits r).1 + (statusBits r).2 ≤ 32 := by
  cases r <;> simp [statusBits]

/-- The mask of a status register keeps each of its status bits. -/
theorem bit_and_statusMask (r : StatusReg) (w : Word) {i : Nat} (h : i < (statusBits r).2) :
    bit (w &&& statusMask r).toNat ((statusBits r).1 + i) = bit w.toNat ((statusBits r).1 + i) := by
  have h32 : (statusBits r).1 + i < 32 := by have := statusBits_le r; omega
  have hmask : (statusMask r).toNat.testBit ((statusBits r).1 + i) = true := by
    rw [statusMask, BitVec.toNat_ofNat, Nat.testBit_mod_two_pow, Nat.testBit_mul_two_pow, Nat.add_sub_cancel_left,
      Nat.testBit_two_pow_sub_one]
    simp [h, h32]
  rw [bit_eq_testBit, bit_eq_testBit, BitVec.toNat_and, Nat.testBit_and, hmask, Bool.and_true]

/-- An enabled bit that is set stays an enabled bit in a word that takes it in. -/
theorem and_or_and_ne_zero {o x m e : Word} (h : x &&& m &&& e ≠ 0) : (o ||| (x &&& m)) &&& m &&& e ≠ 0 := by
  intro h0
  apply h
  have hsub : x &&& m &&& e = ((o ||| (x &&& m)) &&& m &&& e) &&& (x &&& m) := by
    ext i
    simp only [BitVec.getElem_and, BitVec.getElem_or]
    cases x[i] <;> cases m[i] <;> simp
  rw [hsub, h0]
  exact BitVec.zero_and

/-! ### Counters that follow one another -/

/-- The counters at `e`, `e + 4`, … advance by one: those whose index is in `l` and meets `p`. -/
def State.countEach (s : State) (p : Nat → Bool) (e : Nat) (l : List Nat) : State :=
  l.foldl (fun s i => if p i then s.count (e + 4 * i) else s) s

theorem State.setStatus_eq (s : State) (r : StatusReg) (m : Word) :
    s.setStatus r m = (s.setReg (statusAddr r) (s.reg (statusAddr r) ||| m)).countEach
      (fun i => bit m.toNat ((statusBits r).1 + i)) (statusEvt r) (List.range (statusBits r).2) := rfl

theorem State.countEach_cons (s : State) (p : Nat → Bool) (e j : Nat) (l : List Nat) :
    s.countEach p e (j :: l) = (if p j then s.count (e + 4 * j) else s).countEach p e l := rfl

theorem State.regsOnly_countEach (p : Nat → Bool) (e : Nat) (l : List Nat) :
    ∀ s : State, s.regsOnly (s.countEach p e l) := by
  induction l with
  | nil => exact State.regsOnly_refl
  | cons j l ih =>
    intro s
    rw [State.countEach_cons]
    split
    · exact (State.regsOnly_setReg s _ _).trans (ih _)
    · exact ih s

theorem State.reg_countEach_ne (p : Nat → Bool) (e : Nat) {a : Nat} {l : List Nat} (h : ∀ i ∈ l, a ≠ e + 4 * i) :
    ∀ s : State, (s.countEach p e l).reg a = s.reg a := by
  induction l with
  | nil => exact fun _ => rfl
  | cons j l ih =>
    intro s
    obtain ⟨hj, hl⟩ := List.forall_mem_cons.1 h
    rw [State.countEach_cons, ih hl]
    split
    · exact State.reg_count_ne s hj
    · rfl

theorem State.reg_countEach_mem (p : Nat → Bool) (e : Nat) {i : Nat} {l : List Nat} (hl : l.Nodup) (h : i ∈ l) :
    ∀ s : State, (s.countEach p e l).reg (e + 4 * i) =
      if p i then satInc (s.reg (e + 4 * i)) 1 else s.reg (e + 4 * i) := by
  induction l with
  | nil => exact absurd h List.not_mem_nil
  | cons j l ih =>
    intro s
    obtain ⟨hj, hl⟩ := List.nodup_cons.1 hl
    rw [State.countEach_cons]
    rcases List.mem_cons.1 h with rfl | hi
    · have hne : ∀ k ∈ l, e + 4 * i ≠ e + 4 * k := fun k hk he => hj (by rwa [show i = k by omega])
      rw [State.reg_countEach_ne p e hne]
      split
      · exact State.reg_count_self s _ _
      · rfl
    · have hne : e + 4 * i ≠ e + 4 * j := fun he => hj (by rwa [show j = i by omega])
      rw [ih hl hi]
      split <;> split <;> simp only [State.reg_count_ne s hne]

/-! ### What `setStatus` writes -/

theorem State.regsOnly_setStatus (s : State) (r : StatusReg) (m : Word) : s.regsOnly (s.setStatus r m) :=
  (State.regsOnly_setReg s _ _).trans (State.regsOnly_countEach _ _ _ _)

/-- A register that is none of the counters reads as the write to the status register leaves it. -/
theorem State.reg_setStatus_of_not_evt (s : State) (r : StatusReg) (m : Word) {a : Nat}
    (h : ∀ i, i < (statusBits r).2 → a ≠ statusEvt r + 4 * i) :
    (s.setStatus r m).reg a = (s.setReg (statusAddr r) (s.reg (statusAddr r) ||| m)).reg a := by
  rw [State.setStatus_eq]
  exact State.reg_countEach_ne _ _ (fun i hi => h i (List.mem_range.1 hi)) _

/-- The status register takes the bits in (R17). -/
theorem State.reg_setStatus_addr (s : State) (r : StatusReg) (m : Word) :
    (s.setStatus r m).reg (statusAddr r) = s.reg (statusAddr r) ||| m := by
  have h := statusAddr_lt_statusEvt r
  rw [State.reg_setStatus_of_not_evt s r m (fun i _ => by omega), State.reg_setReg_self]

/-- The counter of each bit that is set advances by one (R17). -/
theorem State.reg_setStatus_evt (s : State) (r : StatusReg) (m : Word) {i : Nat} (h : i < (statusBits r).2) :
    (s.setStatus r m).reg (statusEvt r + 4 * i) =
      if bit m.toNat ((statusBits r).1 + i) then satInc (s.reg (statusEvt r + 4 * i)) 1
      else s.reg (statusEvt r + 4 * i) := by
  have hne : statusEvt r + 4 * i ≠ statusAddr r := by have := statusAddr_lt_statusEvt r; omega
  rw [State.setStatus_eq, State.reg_countEach_mem _ _ List.nodup_range (List.mem_range.2 h),
    State.reg_setReg_ne _ _ hne]

theorem State.reg_setStatus_ne (s : State) (r : StatusReg) (m : Word) {a : Nat} (ha : a ≠ statusAddr r)
    (h : ∀ i, i < (statusBits r).2 → a ≠ statusEvt r + 4 * i) : (s.setStatus r m).reg a = s.reg a := by
  rw [State.reg_setStatus_of_not_evt s r m h, State.reg_setReg_ne _ _ ha]

/-! ### The clear -/

/-- A writer that may clear the status register: firmware, or the host with function 1 ready (R477). -/
def State.mayClear (s : State) (r : StatusReg) (who : Writer) : Prop :=
  who = .firmware ∨ (who = .host ∧ s.fnReady 1 = true ∧ hostClears r = true)

/-- A clear that is let through clears first and sets afterwards, whoever writes it: the set wins (R18). -/
theorem State.statusClear_eq {s : State} {r : StatusReg} {who : Writer} (hon : s.regOn (statusAddr r) = true)
    (hwho : s.mayClear r who) (mask setNow : Word) :
    s.statusClear r mask setNow who =
      (s.clearBits (statusAddr r) (mask &&& statusMask r)).setStatus r (setNow &&& statusMask r) := by
  unfold State.statusClear
  rcases hwho with rfl | ⟨rfl, hready, hclears⟩
  · simp only [hon, State.regOn_clearBits_statusAddr, if_true]
  · simp only [hon, hready, hclears, State.regOn_clearBits_statusAddr, Bool.not_true, Bool.false_eq_true, if_false, if_true]

section
variable {s : State} {r : StatusReg} {who : Writer} (hon : s.regOn (statusAddr r) = true) (hwho : s.mayClear r who)
  (mask setNow : Word)
include hon hwho

theorem State.regsOnly_statusClear : s.regsOnly (s.statusClear r mask setNow who) := by
  rw [State.statusClear_eq hon hwho]
  exact (State.regsOnly_setReg s _ _).trans (State.regsOnly_setStatus _ _ _)

theorem State.reg_statusClear_addr : (s.statusClear r mask setNow who).reg (statusAddr r) =
    (s.reg (statusAddr r) &&& ~~~ (mask &&& statusMask r)) ||| (setNow &&& statusMask r) := by
  rw [State.statusClear_eq hon hwho, State.reg_setStatus_addr, State.reg_clearBits_self]

theorem State.reg_statusClear_evt {i : Nat} (h : i < (statusBits r).2) :
    (s.statusClear r mask setNow who).reg (statusEvt r + 4 * i) =
      if bit setNow.toNat ((statusBits r).1 + i) then satInc (s.reg (statusEvt r + 4 * i)) 1
      else s.reg (statusEvt r + 4 * i) := by
  have hne : statusEvt r + 4 * i ≠ statusAddr r := by have := statusAddr_lt_statusEvt r; omega
  rw [State.statusClear_eq hon hwho, State.reg_setStatus_evt _ _ _ h, bit_and_statusMask r setNow h,
    State.reg_clearBits_ne _ _ hne]

theorem State.reg_statusClear_ne {a : Nat} (ha : a ≠ statusAddr r)
    (h : ∀ i, i < (statusBits r).2 → a ≠ statusEvt r + 4 * i) :
    (s.statusClear r mask setNow who).reg a = s.reg a := by
  rw [State.statusClear_eq hon hwho, State.reg_setStatus_ne _ _ _ ha h, State.reg_clearBits_ne _ _ ha]

/-- The interrupt of a bit set in the cycle of the clear is asserted if it is enabled: the clear leaves the bit set and
the enables as they are (R18). -/
theorem State.intOf_statusClear {e : Nat} (he : statusIntEn r = some e)
    (hset : setNow &&& statusMask r &&& s.reg e ≠ 0) : (s.statusClear r mask setNow who).intOf r = true := by
  obtain ⟨hlo, hhi⟩ := statusIntEn_between he
  have henable : (s.statusClear r mask setNow who).reg e = s.reg e :=
    State.reg_statusClear_ne hon hwho mask setNow (by omega) (fun i _ => by omega)
  simp only [State.intOf, he, decide_eq_true_eq, henable, State.reg_statusClear_addr hon hwho]
  exact and_or_and_ne_zero hset

end

/-- Settles O14: a clear that is let through is `clearBits` followed by `setStatus` of the same cycle's bits. -/
theorem setWinsOverClear : Obligations.SetWinsOverClear := by
  intro s r mask setNow who hon hwho
  refine ⟨s.statusClear r mask setNow who, rfl, State.regsOnly_statusClear hon hwho mask setNow,
    State.reg_statusClear_addr hon hwho mask setNow, ?counters, ?interrupt, ?frame⟩
  case counters => exact fun i hi => State.reg_statusClear_evt hon hwho mask setNow hi
  case interrupt => exact fun e he hset => State.intOf_statusClear hon hwho mask setNow he hset
  case frame => exact fun a ha h => State.reg_statusClear_ne hon hwho mask setNow ha h

end Sys2Proof.Machine
end

section
/-! PROOF. Trims, commits and epochs (R112 to R115, R131 to R133, R136, R139): what `commit`, `commitVread`, `epoch` and
`shadowWrite` leave in a tile and in its registers, how tiles leave one another alone in a feed-forward, and O45. -/

namespace Sys2Proof.Machine

/-! ### Where the calibration registers lie -/

theorem calStatus_ne_calBankEvt (c : Nat) : R.calStatus c ≠ R.calBankEvt c := by
  simp only [R.calStatus, R.calBankEvt]; omega

theorem calStatus_ne_calShbEvt (c : Nat) : R.calStatus c ≠ R.calShbEvt c := by
  simp only [R.calStatus, R.calShbEvt]; omega

theorem calEpoch_ne_calTileCtrl (c t : Nat) : R.calEpoch c t ≠ R.calTileCtrl c t := by
  simp only [R.calEpoch, R.calTileCtrl]; omega

theorem tilState_ne_calTileCtrl (c t c' t' : Nat) : R.tilState c t ≠ R.calTileCtrl c' t' := by
  simp only [R.tilState, R.calTileCtrl]; omega

theorem calTileCtrl_inj {c t t' : Nat} (ht : t < 68) (ht' : t' < 68) (h : R.calTileCtrl c t = R.calTileCtrl c t') :
    t = t' := by
  simp only [R.calTileCtrl] at h; omega

/-! ### Registers that an operation may change -/

/-- From `s` to `u` registers were written and nothing else, and of the registers those of `l` alone. -/
structure State.WritesOnly (s u : State) (l : List Nat) : Prop where
  regs : s.regsBut u l
  only : s.regsOnly u

namespace State.WritesOnly
variable {s u w : State} {l : List Nat} {a : Nat}

theorem refl (s : State) (l : List Nat) : s.WritesOnly s l := ⟨fun _ _ => rfl, State.regsOnly_refl s⟩

theorem setReg (h : s.WritesOnly u l) (ha : a ∈ l) (v : Word) : s.WritesOnly (u.setReg a v) l where
  regs := fun b hb => (State.reg_setReg_ne u v (ne_of_mem_of_not_mem ha hb).symm).trans (h.regs b hb)
  only := h.only.trans (State.regsOnly_setReg u a v)

theorem setF (h : s.WritesOnly u l) (ha : a ∈ l) (f : Field) (v : Nat) : s.WritesOnly (u.setF a f v) l := h.setReg ha _

theorem raise {e : Nat} (h : s.WritesOnly u l) (ha : a ∈ l) (he : e ∈ l) (f : Field) : s.WritesOnly (u.raise a f e) l :=
  (h.setF ha f 1).setReg he _

theorem ite {p : Prop} {_ : Decidable p} (hu : s.WritesOnly u l) (hw : s.WritesOnly w l) :
    s.WritesOnly (if p then u else w) l := by split <;> assumption

theorem mc (h : s.WritesOnly u l) : u.mc = s.mc := by
  have honly : u = { s with regs := u.regs } := h.only
  rw [honly]

end State.WritesOnly

/-! ### The fidelity estimate at an epoch (R137, R138) changes none of the tile's own data -/

/-- The registers that a new fidelity estimate of a tile may change. -/
def fidRegs (c t : Nat) : List Nat :=
  [R.tilFidelity c t, R.tilStatus c t, R.tilBelowEvt c t, R.tilState c t, R.tilSummary c, R.calWorst, R.calCounts, R.calSummary]

namespace State.WritesOnly
variable {s u : State} {c t : Nat}

theorem renewSummary (h : s.WritesOnly u (fidRegs c t)) : s.WritesOnly u.renewSummary (fidRegs c t) := by
  have hworst : R.calWorst ∈ fidRegs c t := by simp [fidRegs]
  have hcounts : R.calCounts ∈ fidRegs c t := by simp [fidRegs]
  have hsum : R.calSummary ∈ fidRegs c t := by simp [fidRegs]
  exact ((((((((h.setF hworst _ _).setF hworst _ _).setF hworst _ _).setF hcounts _ _).setF hcounts _ _).setF hcounts _ _).setF
    hsum _ _).setF hsum _ _).setF hsum _ _

theorem setTileState (h : s.WritesOnly u (fidRegs c t)) (st : Nat) : s.WritesOnly (u.setTileState c t st) (fidRegs c t) := by
  have hstate : R.tilState c t ∈ fidRegs c t := by simp [fidRegs]
  have hsum : R.tilSummary c ∈ fidRegs c t := by simp [fidRegs]
  exact ((h.setF hstate _ _).setF hsum _ _).setF hsum _ _

theorem writeFid (s : State) (c t fid : Nat) : s.WritesOnly (s.writeFid c t fid) (fidRegs c t) := by
  have hfid : R.tilFidelity c t ∈ fidRegs c t := by simp [fidRegs]
  have hstatus : R.tilStatus c t ∈ fidRegs c t := by simp [fidRegs]
  have hevt : R.tilBelowEvt c t ∈ fidRegs c t := by simp [fidRegs]
  have hwritten := ((refl s (fidRegs c t)).setF hfid F.tilFidelityFid fid).setF hfid F.tilFidelityValid 1
  have hraised := hwritten.raise hstatus hevt F.tilStatusBelow
  refine (ite (setTileState ?_ 3) (ite (setTileState ?_ 2) ?_)).renewSummary
  all_goals exact hraised.ite hwritten

end State.WritesOnly

/-- A renewed fidelity draws a free value and writes the registers of the estimate. -/
theorem State.renewFid_eq (s : State) (c t : Nat) :
    ∃ u : State, u.mc = s.mc ∧ u.regs = s.regs ∧ u.part = s.part ∧ u.WritesOnly (s.renewFid c t) (fidRegs c t) := by
  unfold State.renewFid
  split
  · exact ⟨{ s with fresh := s.fresh + 1 }, rfl, rfl, rfl, .writeFid _ c t _⟩
  · exact ⟨s, rfl, rfl, rfl, .refl s _⟩

theorem State.regsBut_renewFid (s : State) (c t : Nat) : s.regsBut (s.renewFid c t) (fidRegs c t) := by
  obtain ⟨u, -, hregs, hpart, hwrites⟩ := State.renewFid_eq s c t
  exact fun a ha => (hwrites.regs a ha).trans (State.reg_congr hregs hpart a)

theorem State.renewFid_mc (s : State) (c t : Nat) : (s.renewFid c t).mc = s.mc := by
  obtain ⟨u, hmc, -, -, hwrites⟩ := State.renewFid_eq s c t
  exact hwrites.mc.trans hmc

theorem calTileCtrl_not_mem_fidRegs (c t : Nat) : R.calTileCtrl c t ∉ fidRegs c t := by
  simp only [fidRegs, List.mem_cons, List.not_mem_nil, or_false, not_or, R.calTileCtrl, R.tilFidelity, R.tilStatus,
    R.tilBelowEvt, R.tilState, R.tilSummary, R.calWorst, R.calCounts, R.calSummary]
  omega

theorem calEpoch_not_mem_fidRegs (c t : Nat) : R.calEpoch c t ∉ fidRegs c t := by
  simp only [fidRegs, List.mem_cons, List.not_mem_nil, or_false, not_or, R.calEpoch, R.tilFidelity, R.tilStatus,
    R.tilBelowEvt, R.tilState, R.tilSummary, R.calWorst, R.calCounts, R.calSummary]
  omega

/-! ### A commit (R115) -/

theorem State.tile_congr {s u : State} (h : u.mc = s.mc) (c t : Nat) : u.tile c t = s.tile c t := by
  simp only [State.tile, h]

theorem State.tile_setF (s : State) (a : Nat) (f : Field) (v c t : Nat) : (s.setF a f v).tile c t = s.tile c t := rfl

theorem State.tuneP_congr {s u : State} (hcfg : u.cfg = s.cfg) (hpart : u.part = s.part) (i : Nat) :
    u.tuneP i = s.tuneP i := by
  simp only [State.tuneP, State.par, State.param, hcfg, hpart]

theorem State.commitPending_congr {s u : State} {c t : Nat} (h : u.reg (R.calTileCtrl c t) = s.reg (R.calTileCtrl c t)) :
    u.commitPending c t = s.commitPending c t := by
  simp only [State.commitPending, State.isSet, State.getF, h]

theorem State.not_commitPending_of_commitFree {s : State} {c t : Nat} (h : s.commitFree c t = true) :
    s.commitPending c t = false := by
  simp only [State.commitFree, Bool.and_eq_true, Bool.not_eq_true'] at h
  exact h.1

theorem State.commit_of_pending {s : State} {c t : Nat} (h : s.commitPending c t = true) : s.commit c t = s := by
  simp only [State.commit, h, if_true]

theorem State.commit_of_not_pending {s : State} {c t : Nat} (h : s.commitPending c t = false) : s.commit c t =
    (s.setF (R.calTileCtrl c t) F.calTileCtrlCommit 1).setTile c t
      { s.tile c t with commitAt := s.timeUs, wantCommit := false } := by
  simp only [State.commit, h, Bool.false_eq_true, if_false]

/-- After a commit one is pending, an earlier one or this. -/
theorem State.commitPending_commit (s : State) (c t : Nat) : (s.commit c t).commitPending c t = true := by
  cases h : s.commitPending c t with
  | true => rw [State.commit_of_pending h, h]
  | false =>
    rw [State.commit_of_not_pending h]
    exact State.isSet_setF_self s _ F.calTileCtrlCommit 1 (by decide)

theorem State.tile_commit {s : State} {c t : Nat} (h : s.commitPending c t = false) : (s.commit c t).tile c t =
    { s.tile c t with commitAt := s.timeUs, wantCommit := false } := by
  rw [State.commit_of_not_pending h, State.tile_setTile]

/-- A commit of a tile that was written just before. -/
theorem State.tile_commit_setTile {s : State} {c t : Nat} (h : s.commitPending c t = false) (x : TileRt) :
    ((s.setTile c t x).commit c t).tile c t = { x with commitAt := s.timeUs, wantCommit := false } := by
  have hpend : (s.setTile c t x).commitPending c t = false := h
  rw [State.tile_commit hpend, State.tile_setTile]
  rfl

theorem State.regsBut_commit (s : State) (c t : Nat) : s.regsBut (s.commit c t) [R.calTileCtrl c t] := by
  have hwrites := (State.WritesOnly.refl s _).setF (List.mem_singleton_self (R.calTileCtrl c t)) F.calTileCtrlCommit 1
  intro a ha
  unfold State.commit
  split
  · rfl
  · rw [State.reg_setTile, hwrites.regs a ha]

/-! ### What decides on a commit of one tile, as the other tiles' commits leave it -/

/-- Tile `t` of core `c` and the registers and times that decide on its commit are in `u` as in `s`. -/
structure State.SameTrack (s u : State) (c t : Nat) : Prop where
  tile : u.tile c t = s.tile c t
  ctrl : u.reg (R.calTileCtrl c t) = s.reg (R.calTileCtrl c t)
  state : u.reg (R.tilState c t) = s.reg (R.tilState c t)
  time : u.timeUs = s.timeUs
  cfg : u.cfg = s.cfg
  part : u.part = s.part

namespace State.SameTrack
variable {s u w : State} {c t : Nat}

theorem refl (s : State) (c t : Nat) : s.SameTrack s c t := ⟨rfl, rfl, rfl, rfl, rfl, rfl⟩

theorem trans (h : s.SameTrack u c t) (k : u.SameTrack w c t) : s.SameTrack w c t :=
  ⟨k.tile.trans h.tile, k.ctrl.trans h.ctrl, k.state.trans h.state, k.time.trans h.time,
    k.cfg.trans h.cfg, k.part.trans h.part⟩

theorem commitPending (h : s.SameTrack u c t) : u.commitPending c t = s.commitPending c t :=
  State.commitPending_congr h.ctrl

theorem commitFree (h : s.SameTrack u c t) : u.commitFree c t = s.commitFree c t := by
  have hmin : u.epochMin = s.epochMin := congrArg (· * 1000) (State.tuneP_congr h.cfg h.part _)
  unfold State.commitFree
  rw [h.commitPending, h.tile, h.time, hmin]

theorem tileTracked (h : s.SameTrack u c t) : u.tileTracked c t = s.tileTracked c t := by
  simp only [State.tileTracked, State.tileState, State.getF, h.state]

theorem report (s : State) (c t src code rep d : Nat) : s.SameTrack (s.report src code rep d) c t where
  tile := State.tile_congr (State.report_mc s src code rep d) c t
  ctrl := State.reg_report s src code rep d (by
    simp only [R.calTileCtrl, R.fltOpen, R.fltStatus, R.fltNewsrcEvt, R.fltOvfEvt]; omega)
  state := State.reg_report s src code rep d (by
    simp only [R.tilState, R.fltOpen, R.fltStatus, R.fltNewsrcEvt, R.fltOvfEvt]; omega)
  time := State.report_timeUs s src code rep d
  cfg := State.report_cfg s src code rep d
  part := State.report_part s src code rep d

theorem setTile_ne {t' : Nat} (s : State) (c : Nat) (x : TileRt) (h : t ≠ t') : s.SameTrack (s.setTile c t' x) c t :=
  ⟨State.tile_setTile_ne s x (by simp only [tileKey]; omega), rfl, rfl, rfl, rfl, rfl⟩

theorem commit_ne {t' : Nat} (s : State) (c : Nat) (ht : t < 68) (ht' : t' < 68) (h : t ≠ t') :
    s.SameTrack (s.commit c t') c t := by
  unfold State.commit
  split
  · exact refl s c t
  · have hctrl : R.calTileCtrl c t ≠ R.calTileCtrl c t' := fun e => h (calTileCtrl_inj ht ht' e)
    have hset : s.SameTrack (s.setF (R.calTileCtrl c t') F.calTileCtrlCommit 1) c t :=
      ⟨rfl, State.reg_setF_ne s _ _ hctrl, State.reg_setF_ne s _ _ (tilState_ne_calTileCtrl c t c t'), rfl, rfl, rfl⟩
    exact hset.trans (setTile_ne _ c _ h)

end State.SameTrack

/-! ### A new read voltage (R131, R133) -/

/-- A new read voltage is a new shadow set with its commit; a trim out of range is reported before. -/
theorem State.commitVread_eq (s : State) (c t ratio : Nat) : ∃ (u : State) (shd : Tab Nat) (temp : Int),
    (∀ c' t', s.SameTrack u c' t') ∧ s.commitVread c t ratio =
      (u.setTile c t { u.tile c t with shd := shd, wantRatio := none, tempRef := temp }).commit c t := by
  unfold State.commitVread
  refine ⟨_, _, _, fun c' t' => ?_, rfl⟩
  split
  · exact .report s c' t' _ _ _ _
  · exact .refl s c' t'

theorem State.commitPending_commitVread (s : State) (c t ratio : Nat) :
    (s.commitVread c t ratio).commitPending c t = true := by
  obtain ⟨u, shd, temp, -, heq⟩ := State.commitVread_eq s c t ratio
  rw [heq, State.commitPending_commit]

theorem State.tile_commitVread {s : State} {c t : Nat} (h : s.commitPending c t = false) (ratio : Nat) :
    ((s.commitVread c t ratio).tile c t).commitAt = s.timeUs ∧ ((s.commitVread c t ratio).tile c t).wantRatio = none ∧
    ((s.commitVread c t ratio).tile c t).wantCommit = false := by
  obtain ⟨u, shd, temp, hsame, heq⟩ := State.commitVread_eq s c t ratio
  rw [heq, State.tile_commit_setTile ((hsame c t).commitPending.trans h)]
  exact ⟨(hsame c t).time, rfl, rfl⟩

theorem State.SameTrack.commitVread_ne {t t' : Nat} (s : State) (c ratio : Nat) (ht : t < 68) (ht' : t' < 68) (h : t ≠ t') :
    s.SameTrack (s.commitVread c t' ratio) c t := by
  obtain ⟨u, shd, temp, hsame, heq⟩ := State.commitVread_eq s c t' ratio
  rw [heq]
  exact ((hsame c t).trans (.setTile_ne u c _ h)).trans (.commit_ne _ c ht ht' h)

/-! ### Feed-forward (R133) -/

/-- What a feed-forward does at one tile. -/
def State.feedTile (s : State) (c t : Nat) : State :=
  if s.tileTracked c t && s.commitFree c t then s.commitVread c t (2 ^ 14) else s

theorem State.feedForward_of_slewing {s : State} {c : Nat} (h : c ∈ s.thm.slewing) :
    s.feedForward c = (List.range 68).foldl (fun s t => s.feedTile c t) s :=
  if_pos (List.contains_iff_mem.2 h)

theorem State.feedForward_of_not_slewing {s : State} {c : Nat} (h : c ∉ s.thm.slewing) : s.feedForward c = s :=
  if_neg (fun k => h (List.contains_iff_mem.1 k))

theorem State.SameTrack.feedTile_ne {t t' : Nat} (s : State) (c : Nat) (ht : t < 68) (ht' : t' < 68) (h : t ≠ t') :
    s.SameTrack (s.feedTile c t') c t := by
  unfold State.feedTile
  split
  · exact .commitVread_ne s c _ ht ht' h
  · exact .refl s c t

theorem State.SameTrack.feedTiles_ne {t : Nat} (c : Nat) (ht : t < 68) {l : List Nat} (hl : ∀ t' ∈ l, t' < 68 ∧ t ≠ t') :
    ∀ s : State, s.SameTrack (l.foldl (fun s t' => s.feedTile c t') s) c t := by
  induction l with
  | nil => exact fun s => .refl s c t
  | cons t' l ih =>
    intro s
    obtain ⟨⟨ht', hne⟩, hrest⟩ := List.forall_mem_cons.1 hl
    exact (State.SameTrack.feedTile_ne s c ht ht' hne).trans (ih hrest _)

/-- What comes before and after `t` in the range differs from `t`: in a feed-forward, the other tiles. -/
theorem range_split {n t : Nat} (ht : t < n) : ∃ l r, List.range n = l ++ t :: r ∧ (∀ t' ∈ l, t' < n ∧ t ≠ t') ∧
    ∀ t' ∈ r, t' < n ∧ t ≠ t' := by
  obtain ⟨l, r, heq⟩ := List.append_of_mem (List.mem_range.2 ht)
  have hlt (t' : Nat) (h : t' ∈ l ++ t :: r) : t' < n := List.mem_range.1 (heq ▸ h)
  have hnodup : (l ++ t :: r).Nodup := heq ▸ List.nodup_range
  have ⟨htl, htr⟩ : t ∉ l ∧ t ∉ r := by simpa using (List.nodup_middle.1 hnodup).notMem
  exact ⟨l, r, heq, fun t' h => ⟨hlt t' (by simp [h]), fun e => htl (e ▸ h)⟩,
    fun t' h => ⟨hlt t' (by simp [h]), fun e => htr (e ▸ h)⟩⟩

/-- A feed-forward commits at each tracked tile whose epochs allow it, whatever it does at the other tiles. -/
theorem State.feedForward_commits {s : State} {c t : Nat} (ht : t < 68) (hslew : c ∈ s.thm.slewing)
    (htrack : s.tileTracked c t = true) (hfree : s.commitFree c t = true) :
    (s.feedForward c).commitPending c t = true ∧ ((s.feedForward c).tile c t).commitAt = s.timeUs := by
  obtain ⟨l, r, heq, hl, hr⟩ := range_split ht
  rw [State.feedForward_of_slewing hslew, heq, List.foldl_append, List.foldl_cons]
  have hbefore := State.SameTrack.feedTiles_ne c ht hl s
  generalize l.foldl (fun s t' => s.feedTile c t') s = u at hbefore ⊢
  have hfreeU : u.commitFree c t = true := hbefore.commitFree.trans hfree
  have hfeed : u.feedTile c t = u.commitVread c t (2 ^ 14) := by
    simp only [State.feedTile, hbefore.tileTracked, htrack, hfreeU, Bool.and_self, if_true]
  obtain ⟨hat, -, -⟩ := State.tile_commitVread (State.not_commitPending_of_commitFree hfreeU) (2 ^ 14)
  have hafter := State.SameTrack.feedTiles_ne c ht hr (u.feedTile c t)
  rw [hfeed] at hafter ⊢
  exact ⟨hafter.commitPending.trans (State.commitPending_commitVread u c t _), by rw [hafter.tile, hat, hbefore.time]⟩

/-! ### An epoch (R115, R132) -/

theorem State.tile_restartPips (s : State) (c t : Nat) :
    (s.restartPips c t).tile c t = { s.tile c t with pipNum := 0, pipDen := 0 } := by
  rw [State.restartPips, State.tile_setF, State.tile_setTile]

theorem State.reg_restartPips_ne (s : State) {c t a : Nat} (h : a ≠ R.tilPipGain c t) :
    (s.restartPips c t).reg a = s.reg a := by
  rw [State.restartPips, State.reg_setF_ne _ _ _ h, State.reg_setTile]

/-- The shadow set becomes the active one; the pip window starts anew if a trim that affects gain changes (R132). -/
def State.activate (s : State) (c t : Nat) : State :=
  let u := s.setTile c t { s.tile c t with act := (s.tile c t).shd }
  if gainChange (s.tile c t).act (s.tile c t).shd then u.restartPips c t else u

/-- An epoch: the shadow set becomes active, the commit is over and counted, and the fidelity is renewed. -/
theorem State.epoch_eq (s : State) (c t : Nat) : s.epoch c t =
    (((s.activate c t).setF (R.calTileCtrl c t) F.calTileCtrlCommit 0).count (R.calEpoch c t)).renewFid c t := rfl

theorem State.sets_activate (s : State) (c t : Nat) :
    ((s.activate c t).tile c t).act = (s.tile c t).shd ∧ ((s.activate c t).tile c t).shd = (s.tile c t).shd := by
  unfold State.activate
  dsimp only
  split
  · rw [State.tile_restartPips, State.tile_setTile]; exact ⟨rfl, rfl⟩
  · rw [State.tile_setTile]; exact ⟨rfl, rfl⟩

theorem State.reg_activate_ne (s : State) {c t a : Nat} (h : a ≠ R.tilPipGain c t) : (s.activate c t).reg a = s.reg a := by
  unfold State.activate
  dsimp only
  split
  · rw [State.reg_restartPips_ne _ h, State.reg_setTile]
  · rw [State.reg_setTile]

section
variable {s : State} {c t : Nat}

theorem State.tile_epoch : (s.epoch c t).tile c t = (s.activate c t).tile c t := by
  rw [State.epoch_eq, State.tile_congr (State.renewFid_mc _ c t)]
  rfl

theorem State.act_epoch : ((s.epoch c t).tile c t).act = (s.tile c t).shd := by
  rw [State.tile_epoch, (State.sets_activate s c t).1]

theorem State.shd_epoch : ((s.epoch c t).tile c t).shd = (s.tile c t).shd := by
  rw [State.tile_epoch, (State.sets_activate s c t).2]

theorem State.commitPending_epoch : (s.epoch c t).commitPending c t = false := by
  rw [State.epoch_eq, State.commitPending_congr (State.regsBut_renewFid _ c t _ (calTileCtrl_not_mem_fidRegs c t)),
    State.commitPending_congr (State.reg_count_ne _ (calEpoch_ne_calTileCtrl c t).symm)]
  exact State.isSet_setF_self _ _ F.calTileCtrlCommit 0 (by decide)

theorem State.reg_calEpoch_epoch : (s.epoch c t).reg (R.calEpoch c t) = satInc (s.reg (R.calEpoch c t)) 1 := by
  have hpip : R.calEpoch c t ≠ R.tilPipGain c t := by simp only [R.calEpoch, R.tilPipGain]; omega
  rw [State.epoch_eq, State.regsBut_renewFid _ c t _ (calEpoch_not_mem_fidRegs c t), State.reg_count_self,
    State.reg_setF_ne _ _ _ (calEpoch_ne_calTileCtrl c t), State.reg_activate_ne s hpip]

end

theorem TileRt.whole_of_runs_nil {x : TileRt} (h : x.runs = []) : x.whole = true := by
  simp only [TileRt.whole, h, List.all_nil]

/-! ### A write to the shadow bank (R112, R113, R139) -/

theorem trimGet_trimSet_self (set : Tab Nat) (k v : Nat) : trimGet (trimSet set k v) k = v :=
  Tab.getD_set_self _ _ _ _

theorem trimGet_trimSet_ne (set : Tab Nat) {k k' : Nat} (v : Nat) (h : k' ≠ k) :
    trimGet (trimSet set k v) k' = trimGet set k' := Tab.getD_set_ne _ _ _ _ h

theorem State.shadowWrite_of_activeBank {s : State} {c : Nat} (v : Nat)
    (hbank : s.getF (R.calTrimSel c) F.calTrimSelBank = 0) :
    s.shadowWrite c v = s.raise (R.calStatus c) F.calStatusBankErr (R.calBankEvt c) := if_pos hbank

section
variable {s : State} {c t : Nat} (v : Nat) (ht : t < 68) (htile : s.getF (R.calTrimSel c) F.calTrimSelTile = t)
  (hindex : s.getF (R.calTrimSel c) F.calTrimSelIndex < 533) (hbank : s.getF (R.calTrimSel c) F.calTrimSelBank ≠ 0)
include ht htile hindex hbank

theorem State.shadowWrite_of_pending (hpend : s.commitPending c t = true) :
    s.shadowWrite c v = s.raise (R.calStatus c) F.calStatusShadowBusy (R.calShbEvt c) := by
  subst htile
  have hin : ¬ (68 ≤ s.getF (R.calTrimSel c) F.calTrimSelTile ∨ 533 ≤ s.getF (R.calTrimSel c) F.calTrimSelIndex) := by
    omega
  simp only [State.shadowWrite, hbank, hin, hpend, if_true, if_false]

/-- A write that is taken sets one trim of the tile's shadow set. -/
theorem State.shadowWrite_of_free (hpend : s.commitPending c t = false)
    (hpip : ¬ (s.isSet (R.calTrimSel c) F.calTrimSelField = true ∧ 512 ≤ s.getF (R.calTrimSel c) F.calTrimSelIndex ∧
      s.getF (R.calTrimSel c) F.calTrimSelIndex < 528)) :
    s.shadowWrite c v = s.setTile c t { s.tile c t with
      shd := trimSet (s.tile c t).shd
        (trimKey (s.getF (R.calTrimSel c) F.calTrimSelIndex) (s.isSet (R.calTrimSel c) F.calTrimSelField))
        (v % 2 ^ trimWidth (s.getF (R.calTrimSel c) F.calTrimSelIndex)) } := by
  subst htile
  have hin : ¬ (68 ≤ s.getF (R.calTrimSel c) F.calTrimSelTile ∨ 533 ≤ s.getF (R.calTrimSel c) F.calTrimSelIndex) := by
    omega
  simp only [State.shadowWrite, hbank, hin, hpend, Bool.and_eq_true, decide_eq_true_eq, hpip, Bool.false_eq_true, if_false]

end

/-! ### The times of the epochs (R131, R132, R136) -/

theorem State.epochMinOver_of_wantRatio {s : State} {c t r : Nat} (hfree : s.commitFree c t = true)
    (hwant : (s.tile c t).wantRatio = some r) : s.epochMinOver c t =
      (s.setTile c t { s.tile c t with wantRatio := none, wantCommit := false }).commitVread c t r := by
  simp only [State.epochMinOver, hfree, if_true, hwant]

theorem State.epochMinOver_of_wantCommit {s : State} {c t : Nat} (hfree : s.commitFree c t = true)
    (hratio : (s.tile c t).wantRatio = none) (hwant : (s.tile c t).wantCommit = true) : s.epochMinOver c t =
      (s.setTile c t { s.tile c t with wantCommit := false }).commit c t := by
  simp only [State.epochMinOver, hfree, if_true, hratio, hwant]

/-- The commit that cal_epoch_min deferred is made, and nothing is left deferred. -/
theorem State.epochMinOver_commits {s : State} {c t : Nat} (hfree : s.commitFree c t = true)
    (hwant : (s.tile c t).wantRatio.isSome = true ∨ (s.tile c t).wantCommit = true) :
    (s.epochMinOver c t).commitPending c t = true ∧ ((s.epochMinOver c t).tile c t).commitAt = s.timeUs ∧
    ((s.epochMinOver c t).tile c t).wantRatio = none ∧ ((s.epochMinOver c t).tile c t).wantCommit = false := by
  have hpend := State.not_commitPending_of_commitFree hfree
  cases hratio : (s.tile c t).wantRatio with
  | some r =>
    rw [State.epochMinOver_of_wantRatio hfree hratio]
    exact ⟨State.commitPending_commitVread _ c t r,
      State.tile_commitVread ((State.isSet_setTile s c t _ _ _).trans hpend) r⟩
  | none =>
    have hcommit : (s.tile c t).wantCommit = true := by simpa [hratio] using hwant
    rw [State.epochMinOver_of_wantCommit hfree hratio hcommit]
    refine ⟨State.commitPending_commit _ c t, ?_⟩
    rw [State.tile_commit_setTile hpend]
    exact ⟨rfl, hratio, rfl⟩

theorem State.epochMaxOver_of_due {s : State} {c t : Nat} (htrack : s.tileTracked c t = true)
    (hpend : s.commitPending c t = false)
    (hdue : (s.tile c t).commitAt + 1000000 * s.tuneP P.tuneCalEpochMax ≤ s.timeUs) :
    s.epochMaxOver c t = (s.setTile c t { s.tile c t with shd := (s.tile c t).act }).commit c t := by
  simp only [State.epochMaxOver, htrack, hpend, hdue, Bool.not_false, decide_true, Bool.and_self, if_true]

/-! ### What the commands do -/

section
variable {s : State} {c : CoreIx} {t : TileIx}

theorem exec_commit_of_on (hon : s.domOn (3 * c.val) = true) : exec (.commit c t) s = .next (s.commit c t) :=
  congrArg Host.Outcome.next (if_pos hon)

theorem exec_commit_noop (h : s.domOn (3 * c.val) = false ∨ s.commitPending c t = true) :
    exec (.commit c t) s = .next s := by
  refine congrArg Host.Outcome.next ?_
  rcases h with hoff | hpend
  · simp only [hoff, Bool.false_eq_true, if_false]
  · simp only [State.commit_of_pending hpend, ite_self]

theorem exec_shadowWrite_of_on (hon : s.domOn (3 * c.val) = true) (v : Word) :
    exec (.shadowWrite c v) s = .next (s.shadowWrite c v.toNat) := congrArg Host.Outcome.next (if_pos hon)

theorem exec_epochBoundary_of_whole (hpend : s.commitPending c t = true) (hwhole : (s.tile c t).whole = true) :
    exec (.epochBoundary c t) s = .next (s.epoch c t) :=
  congrArg Host.Outcome.next (if_pos (Bool.and_eq_true_iff.2 ⟨hpend, hwhole⟩))

theorem exec_epochBoundary_noop (h : s.commitPending c t = false ∨ (s.tile c t).whole = false) :
    exec (.epochBoundary c t) s = .next s :=
  congrArg Host.Outcome.next (if_neg (by rw [Bool.not_eq_true, Bool.and_eq_false_iff]; exact h))

end

/-- Settles O45: each clause is what `commit`, `shadowWrite`, `epoch`, `epochMinOver`, `epochMaxOver` or `feedForward` leaves
in the tile and in CAL_TILE_CTRL. -/
theorem trimsAndEpochs : Obligations.TrimsAndEpochs := by
  intro s c t v
  refine ⟨?commit, exec_commit_noop, ?shadow, ?epoch, TileRt.whole_of_runs_nil, exec_epochBoundary_noop, ?epochMin, ?epochMax,
    ?feed, fun h => congrArg Host.Outcome.next (State.feedForward_of_not_slewing h)⟩
  case commit =>
    intro hon hpend
    refine ⟨s.commit c t, exec_commit_of_on hon, State.commitPending_commit s c t, ?_⟩
    rw [State.tile_commit hpend]
    exact ⟨rfl, rfl, rfl, State.regsBut_commit s c t⟩
  case shadow =>
    intro i gain hon htile hindex
    refine ⟨fun hbank => ?activeBank, fun hbank hpend hpip => ?taken, fun hbank hpend => ?busy⟩
    all_goals refine ⟨s.shadowWrite c v.toNat, exec_shadowWrite_of_on hon v, ?_⟩
    case activeBank =>
      have hne := calStatus_ne_calBankEvt c
      rw [State.shadowWrite_of_activeBank v.toNat hbank]
      exact ⟨State.isSet_raise_self s _ _ _ hne (by decide) (by decide), State.reg_raise_evt s _ _ _ hne.symm,
        ((State.WritesOnly.refl s _).raise (by simp) (by simp) _).regs, rfl⟩
    case taken =>
      rw [State.shadowWrite_of_free v.toNat t.isLt htile hindex hbank hpend hpip, State.tile_setTile]
      exact ⟨trimGet_trimSet_self _ _ _, fun k hk => trimGet_trimSet_ne _ _ hk, rfl, rfl⟩
    case busy =>
      have hne := calStatus_ne_calShbEvt c
      rw [State.shadowWrite_of_pending v.toNat t.isLt htile hindex hbank hpend]
      exact ⟨State.isSet_raise_self s _ _ _ hne (by decide) (by decide), State.reg_raise_evt s _ _ _ hne.symm, rfl⟩
  case epoch =>
    intro hpend hwhole
    exact ⟨s.epoch c t, exec_epochBoundary_of_whole hpend hwhole, State.act_epoch, State.shd_epoch, State.commitPending_epoch,
      State.reg_calEpoch_epoch⟩
  case epochMin => exact fun hfree hwant => ⟨s.epochMinOver c t, rfl, State.epochMinOver_commits hfree hwant⟩
  case epochMax =>
    intro htrack hpend hdue
    refine ⟨s.epochMaxOver c t, rfl, ?_⟩
    rw [State.epochMaxOver_of_due htrack hpend hdue, State.tile_commit_setTile hpend]
    exact ⟨State.commitPending_commit _ c t, rfl, rfl, State.regsBut_commit _ c t⟩
  case feed =>
    exact fun hslew htrack hfree => ⟨s.feedForward c, rfl, State.feedForward_commits t.isLt hslew htrack hfree⟩

end Sys2Proof.Machine
end

section
/-! PROOF. The encoders of the line clock (R297, R299, R300): what writing an encoder leaves alone, which of an error, no
count, a forward and a reverse count an accepted pair of levels makes, what each leaves in the encoder, and O25. -/

namespace Sys2Proof.Machine

/-! ### Writing an encoder -/

theorem State.setEnc_eq (s : State) (e : Nat) (x : Enc) : s.setEnc e x = { s with lck := (s.setEnc e x).lck } := by
  unfold State.setEnc
  split <;> rfl

@[simp] theorem State.setEnc_regs (s : State) (e : Nat) (x : Enc) : (s.setEnc e x).regs = s.regs := by
  rw [State.setEnc_eq]

@[simp] theorem State.setEnc_part (s : State) (e : Nat) (x : Enc) : (s.setEnc e x).part = s.part := by
  rw [State.setEnc_eq]

@[simp] theorem State.setEnc_timeUs (s : State) (e : Nat) (x : Enc) : (s.setEnc e x).timeUs = s.timeUs := by
  rw [State.setEnc_eq]

@[simp] theorem State.reg_setEnc (s : State) (e : Nat) (x : Enc) (a : Nat) : (s.setEnc e x).reg a = s.reg a :=
  State.reg_congr (State.setEnc_regs s e x) (State.setEnc_part s e x) a

@[simp] theorem State.isSet_setEnc (s : State) (e : Nat) (x : Enc) (a : Nat) (f : Field) :
    (s.setEnc e x).isSet a f = s.isSet a f := by
  simp only [State.isSet, State.getF, State.reg_setEnc]

@[simp] theorem State.enc_setEnc_self (s : State) (e : Nat) (x : Enc) : (s.setEnc e x).enc e = x := by
  unfold State.setEnc State.enc
  split <;> rfl

theorem State.enc_congr {s u : State} (h : u.lck = s.lck) (e : Nat) : u.enc e = s.enc e := by
  simp only [State.enc, h]

/-- Encoder `e` is written and registers of `l` after it: the encoder reads what was written, and the other registers and
units stay. -/
theorem State.WritesOnly.after_setEnc {s u : State} {e : Nat} {x : Enc} {l : List Nat}
    (h : (s.setEnc e x).WritesOnly u l) :
    u.enc e = x ∧ s.regsBut u l ∧ u = { s with regs := u.regs, lck := u.lck } := by
  have honly : u = { s.setEnc e x with regs := u.regs } := h.only
  have hlck : u.lck = (s.setEnc e x).lck := by rw [honly]
  refine ⟨(State.enc_congr hlck e).trans (State.enc_setEnc_self s e x),
    fun a ha => (h.regs a ha).trans (State.reg_setEnc s e x a), ?_⟩
  rw [State.setEnc_eq, ← hlck] at honly
  exact honly

/-! ### What an accepted pair of levels makes (R297, R299) -/

/-- Steps of the phase from the levels last accepted to `a`, `b`. -/
def Enc.turn (x : Enc) (a b : Bool) : Nat := (quadPhase a b + 4 - quadPhase x.a x.b) % 4

/-- The levels of encoder `e` are `a`, `b`, and nothing is counted yet. -/
def State.acceptLevels (s : State) (e : Nat) (a b : Bool) : State := s.setEnc e { s.enc e with a := a, b := b }

/-- The levels make a count: the encoder is enabled and the phase moves by one step. -/
def State.Counts (s : State) (e : Nat) (a b : Bool) : Prop :=
  s.encEn e = true ∧ ((s.enc e).turn a b = 1 ∨ (s.enc e).turn a b = 3)

/-- The count is forward: with A leading B, or the other way under LCK_CTRL.dirN. -/
def State.CountsForward (s : State) (e : Nat) (a b : Bool) : Prop :=
  s.Counts e a b ∧ ((s.enc e).turn a b == 1) != s.encDir e

section
variable {s : State} {e : Nat} {a b : Bool}

theorem Enc.turn_lt (x : Enc) (a b : Bool) : x.turn a b < 4 := Nat.mod_lt _ (by decide)

theorem State.encoderCount_eq (s : State) (e : Nat) (a b : Bool) : s.encoderCount e a b =
    if (s.enc e).turn a b = 2 then (s.acceptLevels e a b).encError e
    else if (s.enc e).turn a b = 0 ∨ ¬ s.encEn e then s.acceptLevels e a b
    else if ((s.enc e).turn a b == 1) != s.encDir e then (s.acceptLevels e a b).countFwd e
    else (s.acceptLevels e a b).countRev e := by
  have hen : (s.acceptLevels e a b).encEn e = s.encEn e := State.isSet_setEnc s e _ _ _
  have hdir : (s.acceptLevels e a b).encDir e = s.encDir e := State.isSet_setEnc s e _ _ _
  rw [← hen, ← hdir]
  rfl

theorem State.encoderCount_of_counts (h : s.Counts e a b) : s.encoderCount e a b =
    if ((s.enc e).turn a b == 1) != s.encDir e then (s.acceptLevels e a b).countFwd e
    else (s.acceptLevels e a b).countRev e := by
  obtain ⟨hen, hturn⟩ := h
  have herr : (s.enc e).turn a b ≠ 2 := by omega
  have hstill : ¬ ((s.enc e).turn a b = 0 ∨ ¬ s.encEn e) := not_or.2 ⟨by omega, not_not.2 hen⟩
  rw [State.encoderCount_eq, if_neg herr, if_neg hstill]

theorem State.encoderCount_of_forward (h : s.CountsForward e a b) :
    s.encoderCount e a b = (s.acceptLevels e a b).countFwd e := by
  rw [State.encoderCount_of_counts h.1, if_pos h.2]

theorem State.encoderCount_of_reverse (hcount : s.Counts e a b) (h : ¬ s.CountsForward e a b) :
    s.encoderCount e a b = (s.acceptLevels e a b).countRev e := by
  rw [State.encoderCount_of_counts hcount, if_neg fun hdir => h ⟨hcount, hdir⟩]

/-- Levels that make no count are accepted, with an error when both changed. -/
theorem State.encoderCount_of_not_counts (h : ¬ s.Counts e a b) :
    s.encoderCount e a b = (s.acceptLevels e a b).encError e ∨ s.encoderCount e a b = s.acceptLevels e a b := by
  rw [State.encoderCount_eq]
  by_cases herr : (s.enc e).turn a b = 2
  · exact .inl (if_pos herr)
  · have hstill : (s.enc e).turn a b = 0 ∨ ¬ s.encEn e := by
      by_cases hen : s.encEn e = true
      · have hturn : ¬ ((s.enc e).turn a b = 1 ∨ (s.enc e).turn a b = 3) := fun hstep => h ⟨hen, hstep⟩
        have hlt := (s.enc e).turn_lt a b
        exact .inl (by omega)
      · exact .inr hen
    exact .inr (by rw [if_neg herr, if_pos hstill])

end

/-! ### What each leaves in the encoder and in LCK_STATUS (R299, R300) -/

theorem State.encError_lck (s : State) (e : Nat) : (s.encError e).lck = s.lck := by
  unfold State.encError
  rw [State.report_lck]
  split <;> rfl

/-- The marks of slots and folios that fall due are no part of an encoder. -/
theorem State.enc_countFwd (s : State) (e : Nat) : (s.countFwd e).enc e =
    { (s.enc e).moved ((s.enc e).pos + 1) true with fwdAt := s.timeUs, stopped := false } :=
  State.enc_setEnc_self s e _

theorem State.countRev_eq (s : State) (e : Nat) : s.countRev e =
    let u := s.setEnc e ((s.enc e).moved ((s.enc e).pos - 1) false)
    if (s.enc e).lastFwd then u.raise R.lckStatus F.lckStatusReverse R.lckRevEvt else u := rfl

theorem State.enc_countRev (s : State) (e : Nat) :
    (s.countRev e).enc e = (s.enc e).moved ((s.enc e).pos - 1) false := by
  rw [State.countRev_eq]
  dsimp only
  split
  · rw [State.enc_congr (State.raise_lck _ _ _ _), State.enc_setEnc_self]
  · exact State.enc_setEnc_self s e _

section
variable {s : State} {e : Nat}

/-- A reverse count after a forward one sets LCK_STATUS.reverse and counts it. -/
theorem State.countRev_of_lastFwd (h : (s.enc e).lastFwd = true) :
    (s.countRev e).isSet R.lckStatus F.lckStatusReverse = true ∧
    (s.countRev e).reg R.lckRevEvt = satInc (s.reg R.lckRevEvt) 1 := by
  rw [State.countRev_eq]
  simp only [h, if_true]
  exact ⟨State.isSet_raise_self _ _ _ _ (by decide) (by decide) (by decide),
    by rw [State.reg_raise_evt _ _ _ _ (by decide), State.reg_setEnc]⟩

theorem State.reg_countRev_of_not_lastFwd (h : (s.enc e).lastFwd = false) (a : Nat) :
    (s.countRev e).reg a = s.reg a := by
  rw [State.countRev_eq]
  simp only [h, Bool.false_eq_true, if_false, State.reg_setEnc]

end

/-! ### A count, seen from the state before its levels were accepted -/

section
variable {s : State} {e : Nat} {a b : Bool}

theorem State.enc_acceptLevels (s : State) (e : Nat) (a b : Bool) :
    (s.acceptLevels e a b).enc e = { s.enc e with a := a, b := b } := State.enc_setEnc_self s e _

theorem State.enc_encoderCount_of_not_counts (h : ¬ s.Counts e a b) :
    (s.encoderCount e a b).enc e = { s.enc e with a := a, b := b } := by
  rcases State.encoderCount_of_not_counts h with heq | heq
  · rw [heq, State.enc_congr (State.encError_lck _ e), State.enc_acceptLevels]
  · rw [heq, State.enc_acceptLevels]

theorem State.enc_encoderCount_of_forward (h : s.CountsForward e a b) : (s.encoderCount e a b).enc e =
    { ({ s.enc e with a := a, b := b } : Enc).moved ((s.enc e).pos + 1) true with fwdAt := s.timeUs, stopped := false } := by
  rw [State.encoderCount_of_forward h, State.enc_countFwd, State.enc_acceptLevels, State.acceptLevels, State.setEnc_timeUs]

theorem State.enc_encoderCount_of_reverse (hcount : s.Counts e a b) (h : ¬ s.CountsForward e a b) :
    (s.encoderCount e a b).enc e = ({ s.enc e with a := a, b := b } : Enc).moved ((s.enc e).pos - 1) false := by
  rw [State.encoderCount_of_reverse hcount h, State.enc_countRev, State.enc_acceptLevels]

/-- Only a forward count ends a stop or renews the time of the last forward count (R300). -/
theorem State.stopped_encoderCount_of_not_forward (h : ¬ s.CountsForward e a b) :
    ((s.encoderCount e a b).enc e).stopped = (s.enc e).stopped ∧ ((s.encoderCount e a b).enc e).fwdAt = (s.enc e).fwdAt := by
  by_cases hcount : s.Counts e a b
  · rw [State.enc_encoderCount_of_reverse hcount h]
    exact ⟨rfl, rfl⟩
  · rw [State.enc_encoderCount_of_not_counts hcount]
    exact ⟨rfl, rfl⟩

theorem State.reversal_encoderCount (hcount : s.Counts e a b) (h : ¬ s.CountsForward e a b)
    (hlast : (s.enc e).lastFwd = true) : (s.encoderCount e a b).isSet R.lckStatus F.lckStatusReverse = true ∧
      (s.encoderCount e a b).reg R.lckRevEvt = satInc (s.reg R.lckRevEvt) 1 := by
  have hlastAccepted : ((s.acceptLevels e a b).enc e).lastFwd = true := by rw [State.enc_acceptLevels, hlast]
  obtain ⟨hstatus, hevt⟩ := State.countRev_of_lastFwd hlastAccepted
  rw [State.encoderCount_of_reverse hcount h]
  exact ⟨hstatus, by rw [hevt, State.acceptLevels, State.reg_setEnc]⟩

theorem State.regsBut_encoderCount_of_reverse_again (hcount : s.Counts e a b) (h : ¬ s.CountsForward e a b)
    (hlast : (s.enc e).lastFwd = false) : s.regsBut (s.encoderCount e a b) [] := by
  have hlastAccepted : ((s.acceptLevels e a b).enc e).lastFwd = false := by rw [State.enc_acceptLevels, hlast]
  intro r _
  rw [State.encoderCount_of_reverse hcount h, State.reg_countRev_of_not_lastFwd hlastAccepted, State.acceptLevels,
    State.reg_setEnc]

end

/-! ### The velocity update and the stop (R300) -/

/-- The net counts of the last 64 updates, the one now due among them. -/
def Enc.window (x : Enc) : List Int := (x.cur :: x.hist).take 64

/-- A velocity update writes the encoder, whose position stays, and then LCK_VELn. -/
theorem State.writesOnly_velocityUpdate (s : State) (e : Nat) : ∃ lastVel : Nat,
    (s.setEnc e { s.enc e with cur := 0, hist := (s.enc e).window, lastVel := lastVel }).WritesOnly
      (s.velocityUpdate e) [velReg e] :=
  ⟨_, (State.WritesOnly.refl _ _).setReg (List.mem_singleton_self _) _⟩

theorem State.reg_velocityUpdate (s : State) (e : Nat) : (s.velocityUpdate e).reg (velReg e) =
    BitVec.ofNat 32 (ofInt 32 (250 * (s.enc e).window.foldl (· + ·) 0)) := State.reg_setNat_self _ _ _

section
variable {s : State} {e : Nat}

theorem State.encoderStopped_of_due (hen : s.encEn e = true) (hrun : (s.enc e).stopped = false)
    (hdue : (s.enc e).fwdAt + 1000 * s.getF R.lckCfg F.lckCfgStopMs ≤ s.timeUs) : s.encoderStopped e =
      (s.setEnc e { s.enc e with stopped := true }).raise R.lckStatus F.lckStatusStop R.lckStopEvt := by
  simp only [State.encoderStopped, hen, hrun, hdue, Bool.not_false, decide_true, Bool.and_self, if_true]

theorem State.encoderStopped_of_early (h : s.timeUs < (s.enc e).fwdAt + 1000 * s.getF R.lckCfg F.lckCfgStopMs) :
    s.encoderStopped e = s := by
  simp only [State.encoderStopped, Nat.not_le.2 h, decide_false, Bool.and_false, Bool.false_eq_true, if_false]

end

/-- Settles O25: a velocity update and a stop write the encoder and then registers; a pair of levels makes no count, a forward
count or a reverse one, and only the forward one ends a stop. -/
theorem velocityStopReverse : Obligations.VelocityStopReverse := by
  intro s e
  refine ⟨?velocity, ?stop, fun hearly => congrArg Host.Outcome.next (State.encoderStopped_of_early hearly), ?count⟩
  case velocity =>
    obtain ⟨lastVel, hwrites⟩ := State.writesOnly_velocityUpdate s e
    obtain ⟨henc, hregs, hunits⟩ := hwrites.after_setEnc
    exact ⟨s.velocityUpdate e, rfl, State.reg_velocityUpdate s e, congrArg Enc.hist henc, congrArg Enc.cur henc,
      (congrArg Enc.pos henc :), hregs, hunits⟩
  case stop =>
    intro hen hrun hdue
    refine ⟨s.encoderStopped e, rfl, ?_⟩
    rw [State.encoderStopped_of_due hen hrun hdue]
    have hwrites := (State.WritesOnly.refl (s.setEnc e { s.enc e with stopped := true }) [R.lckStatus, R.lckStopEvt]).raise
      (a := R.lckStatus) (e := R.lckStopEvt) (by simp) (by simp) F.lckStatusStop
    obtain ⟨henc, hregs, hunits⟩ := hwrites.after_setEnc
    exact ⟨congrArg Enc.stopped henc, State.isSet_raise_self _ _ _ _ (by decide) (by decide) (by decide),
      by rw [State.reg_raise_evt _ _ _ _ (by decide), State.reg_setEnc], hregs, hunits⟩
  case count =>
    intro a b
    refine ⟨s.encoderCount e a b, rfl, fun (hfwd : s.CountsForward e a b) => ?forward,
      State.stopped_encoderCount_of_not_forward, fun (hcount : s.Counts e a b) hrev => ?reverse⟩
    case forward =>
      rw [State.enc_encoderCount_of_forward hfwd]
      exact ⟨rfl, rfl, rfl, rfl⟩
    case reverse =>
      have henc := State.enc_encoderCount_of_reverse hcount hrev
      exact ⟨congrArg Enc.cur henc, congrArg Enc.lastFwd henc, State.reversal_encoderCount hcount hrev,
        State.regsBut_encoderCount_of_reverse_again hcount hrev⟩

end Sys2Proof.Machine
end

section
/-! PROOF. The fabric manager's role (R351, R352): what knowing a member anew, taking the role and sending a FENCE_NOTICE leave
of the members, the role and PRT_FAB, what `missed` and `fmBack` do in the cases of R352, and O40. -/

namespace Sys2Proof.Machine

/-! ### Members and the role -/

theorem State.member_congr {s u : State} (h : u.prt.fab.members = s.prt.fab.members) (i : Nat) : u.member i = s.member i := by
  simp only [State.member, h]

theorem State.actingFm_of_acting {s : State} {i : Nat} (h : s.prt.fab.acting = some i) : s.actingFm = i := by
  rw [State.actingFm, h, Option.getD_some]

theorem State.fabIndex_congr {s u : State} (h : u.reg R.prtFab = s.reg R.prtFab) : u.fabIndex = s.fabIndex :=
  State.getF_congr h F.prtFabIndex

@[simp] theorem State.member_setMember_self (s : State) (i : Nat) (m : Member) : (s.setMember i m).member i = m :=
  Tab.getD_put_self _ _ _ _

theorem State.member_setMember_ne (s : State) {i j : Nat} (m : Member) (h : j ≠ i) :
    (s.setMember i m).member j = s.member j := Tab.getD_put_ne _ _ _ h

/-- The alive bits of PRT_FAB lie above the index. -/
@[simp] theorem State.fabIndex_setMember (s : State) (i : Nat) (m : Member) : (s.setMember i m).fabIndex = s.fabIndex :=
  State.getF_setF_field _ _ F.prtFabAlive F.prtFabIndex _ (by decide) (by decide)

theorem State.reg_setMember_ne (s : State) (i : Nat) (m : Member) {a : Nat} (h : a ≠ R.prtFab) :
    (s.setMember i m).reg a = s.reg a := State.reg_setF_ne _ _ _ h

@[simp] theorem State.acting_setActing (s : State) (i : Nat) : (s.setActing i).prt.fab.acting = some i := rfl

@[simp] theorem State.members_setActing (s : State) (i : Nat) : (s.setActing i).prt.fab.members = s.prt.fab.members := rfl

/-- PRT_FAB.fm says whether the role has passed to this device. -/
theorem State.isSet_fm_setActing (s : State) (i : Nat) : (s.setActing i).isSet R.prtFab F.prtFabFm = (i == s.fabIndex) := by
  refine (State.isSet_setF_self _ R.prtFab F.prtFabFm _ (by decide)).trans ?_
  change (b2n (i == s.fabIndex) % 2 ^ 1 == 1) = (i == s.fabIndex)
  cases i == s.fabIndex <;> rfl

/-! ### A frame and a notice leave the role alone -/

@[simp] theorem State.fab_sendFrame (s : State) (p t : Nat) (payload ext : Bytes) :
    (s.sendFrame p t payload ext).prt.fab = s.prt.fab := by
  unfold State.sendFrame
  split
  · split <;> rfl
  · rfl

theorem State.reg_sendFrame_ne (s : State) (p t : Nat) (payload ext : Bytes) {a : Nat} (hstatus : a ≠ R.prtStatus p)
    (hevt : a ≠ R.prtTxlEvt p) : (s.sendFrame p t payload ext).reg a = s.reg a := by
  unfold State.sendFrame
  split
  · split
    · rfl
    · exact State.reg_raise_ne s _ _ _ hstatus hevt
  · rfl

@[simp] theorem State.prtFab_sendFrame (s : State) (p t : Nat) (payload ext : Bytes) :
    (s.sendFrame p t payload ext).reg R.prtFab = s.reg R.prtFab :=
  State.reg_sendFrame_ne s p t payload ext (by simp only [R.prtFab, R.prtStatus]; omega)
    (by simp only [R.prtFab, R.prtTxlEvt]; omega)

/-- A notice draws the next sequence number; of what is known of the fabric nothing else changes. -/
theorem State.fab_notice (s : State) (i reason : Nat) :
    (s.notice i reason).prt.fab = { s.prt.fab with hbSeq := (s.prt.fab.hbSeq + 1) % 2 ^ 32 } := by
  simp only [State.notice, State.nextHbSeq, State.castPeer, State.setNat_prt, State.fab_sendFrame]

@[simp] theorem State.acting_notice (s : State) (i reason : Nat) :
    (s.notice i reason).prt.fab.acting = s.prt.fab.acting := by rw [State.fab_notice]

@[simp] theorem State.members_notice (s : State) (i reason : Nat) :
    (s.notice i reason).prt.fab.members = s.prt.fab.members := by rw [State.fab_notice]

@[simp] theorem State.fabIndex_notice (s : State) (i reason : Nat) : (s.notice i reason).fabIndex = s.fabIndex := by
  refine State.fabIndex_congr ?_
  rw [State.notice, State.reg_setNat_ne _ _ (by decide), State.castPeer, State.prtFab_sendFrame, State.prtFab_sendFrame]
  rfl

/-! ### The acting manager is missed (R352) -/

/-- The acting manager is another member, `i`, and its heartbeat has been missing for hb_miss periods. -/
structure State.ManagerMissed (s : State) (i : Nat) : Prop where
  inFabric : s.inFabric = true
  notFm : s.isFm = false
  acting : s.actingFm = i
  other : i ≠ s.fabIndex
  present : (s.member i).lost = false
  listed : s.fabDev i ≠ 0
  silent : (s.member i).hbAt + s.fabP P.fabHbMiss * s.hbPeriod ≤ s.timeUs

/-- The state in which member `i` is known to be lost. -/
def State.lose (s : State) (i : Nat) : State := s.setMember i { s.member i with lost := true }

@[simp] theorem State.fabP_lose (s : State) (i k : Nat) : (s.lose i).fabP k = s.fabP k := rfl

@[simp] theorem State.fabIndex_lose (s : State) (i : Nat) : (s.lose i).fabIndex = s.fabIndex :=
  State.fabIndex_setMember s i _

section
variable {s : State} {i : Nat} (h : s.ManagerMissed i)
include h

/-- What becomes of the role is decided by the backup that the image names. -/
theorem State.missed_of_managerMissed : s.missed i =
    if (s.lose i).fabP P.fabFmBackup = (s.lose i).fabIndex then
      (((s.lose i).setActing (s.lose i).fabIndex).notice i 1).notice (s.lose i).fabIndex 5
    else if (s.lose i).fabP P.fabFmBackup = 0xFF ∨ (s.lose i).fabP P.fabFmBackup = i then
      (s.lose i).report (Src.peer i) E.prtFmLost (Rep.fw 3)
    else s.lose i := by
  have hdue : ¬ (¬ s.inFabric ∨ i = s.fabIndex ∨ (s.member i).lost ∨ s.fabDev i = 0
      ∨ s.timeUs < (s.member i).hbAt + s.fabP P.fabHbMiss * s.hbPeriod) := by
    simp [h.inFabric, h.other, h.present, h.listed, h.silent]
  have hnotFm : ¬ s.isFm = true := by simp [h.notFm]
  have hacting : ¬ i ≠ s.actingFm := not_not.2 h.acting.symm
  exact (if_neg hdue).trans ((if_neg hnotFm).trans (if_neg hacting))

theorem State.missed_of_backup (hbackup : s.fabP P.fabFmBackup = s.fabIndex) :
    s.missed i = (((s.lose i).setActing s.fabIndex).notice i 1).notice s.fabIndex 5 := by
  rw [State.missed_of_managerMissed h, State.fabIndex_lose, State.fabP_lose, if_pos hbackup]

theorem State.missed_of_no_backup
    (hnone : s.fabP P.fabFmBackup = 0xFF ∧ s.fabIndex ≠ 0xFF ∨ s.fabP P.fabFmBackup = i) :
    s.missed i = (s.lose i).report (Src.peer i) E.prtFmLost (Rep.fw 3) := by
  have hother : s.fabP P.fabFmBackup ≠ s.fabIndex := by
    rcases hnone with ⟨hFF, hindex⟩ | hi
    · rw [hFF]; exact hindex.symm
    · rw [hi]; exact h.other
  rw [State.missed_of_managerMissed h, State.fabIndex_lose, State.fabP_lose, if_neg hother,
    if_pos (hnone.imp_left And.left)]

end

/-- The backup that has taken the role and sent its two notices is the acting manager, and the old one is lost. -/
theorem State.actingFm_and_lost_of_notices (s : State) (i k reason reason' : Nat) :
    let t := (((s.lose i).setActing k).notice i reason).notice k reason'
    t.actingFm = k ∧ (t.member i).lost = true := by
  refine ⟨State.actingFm_of_acting (by simp only [State.acting_notice, State.acting_setActing]), ?_⟩
  rw [State.member_congr (s := s.lose i) (by simp only [State.members_notice, State.members_setActing]), State.lose,
    State.member_setMember_self]

/-- A member that only logs the loss keeps what it knows of the other members and the sequence of the last notice. -/
theorem State.members_and_seq_report_lose (s : State) (i src code rep : Nat) :
    let t := (s.lose i).report src code rep
    (∀ j, j ≠ i → t.member j = s.member j) ∧ t.regNat R.prtFabSeq = s.regNat R.prtFabSeq := by
  refine ⟨fun j hj => ?members, congrArg BitVec.toNat ?seq⟩
  case members =>
    rw [State.member_congr (s := s.lose i) (by rw [State.report_prt])]
    exact State.member_setMember_ne s _ hj
  case seq => rw [State.reg_report _ _ _ _ _ (by decide), State.lose, State.reg_setMember_ne s _ _ (by decide)]

/-! ### The configured manager is heard again (R352) -/

section
variable {s : State}

theorem State.fmBack_of_heard (hfm : s.isFm = true) (hother : s.fabIndex ≠ s.fabP P.fabFmIndex)
    (hknown : (s.prt.fab.members.get? (s.fabP P.fabFmIndex)).isSome = true)
    (hpresent : (s.member (s.fabP P.fabFmIndex)).lost = false)
    (hrun : (s.member (s.fabP P.fabFmIndex)).runSince + 1000000 ≤ s.timeUs) :
    s.fmBack = (s.notice (s.fabP P.fabFmIndex) 4).setActing (s.fabP P.fabFmIndex) :=
  if_pos ⟨hfm, hother, hknown, Bool.eq_false_iff.1 hpresent, hrun⟩

theorem State.fmBack_of_early (h : s.timeUs < (s.member (s.fabP P.fabFmIndex)).runSince + 1000000) : s.fmBack = s :=
  if_neg fun ⟨_, _, _, _, hrun⟩ => Nat.not_le.2 h hrun

end

/-- A device that hands the role to another member no longer shows PRT_FAB.fm. -/
theorem State.actingFm_and_fm_of_handed_back {s : State} {i : Nat} (reason : Nat) (h : s.fabIndex ≠ i) :
    let t := (s.notice i reason).setActing i
    t.actingFm = i ∧ t.isSet R.prtFab F.prtFabFm = false := by
  refine ⟨State.actingFm_of_acting (State.acting_setActing _ i), ?_⟩
  rw [State.isSet_fm_setActing, State.fabIndex_notice]
  exact beq_false_of_ne h.symm

/-- Settles O40: a missed manager's role goes by the backup that the image names, and the configured manager gets it back once
its run of heartbeats has lasted for 1 s. -/
theorem actingManager : Obligations.ActingManager := by
  intro s
  refine ⟨fun i hin hnotFm hacting hother hpresent hlisted hsilent => ?missed,
    fun hfm hother ⟨hknown, hpresent⟩ hrun => ?returns, fun hearly => congrArg Host.Outcome.next (State.fmBack_of_early hearly)⟩
  case missed =>
    have hmissed : s.ManagerMissed i := ⟨hin, hnotFm, hacting, hother, hpresent, hlisted, hsilent⟩
    refine ⟨fun hbackup => ⟨s.missed i, rfl, State.missed_of_backup hmissed hbackup, ?takes⟩,
      fun hnone => ⟨s.missed i, rfl, State.missed_of_no_backup hmissed hnone, ?logs⟩⟩
    case takes =>
      rw [State.missed_of_backup hmissed hbackup]
      exact State.actingFm_and_lost_of_notices s i s.fabIndex 1 5
    case logs =>
      rw [State.missed_of_no_backup hmissed hnone]
      exact State.members_and_seq_report_lose s i _ _ _
  case returns =>
    refine ⟨s.fmBack, rfl, State.fmBack_of_heard hfm hother hknown hpresent hrun, ?_⟩
    rw [State.fmBack_of_heard hfm hother hknown hpresent hrun]
    exact State.actingFm_and_fm_of_handed_back 4 hother

end Sys2Proof.Machine
end

section
/-! PROOF. What a step keeps: the frame of a run of register writes, what a microsecond of DAC samples and of idle tracking
changes, and the statements about every step and every command (O1 to O10). -/

namespace Sys2Proof.Machine

/-! ### The frame of a run of register writes -/

namespace State.regsBut
variable {s u t : State} {l : List Nat} {a e : Nat}

theorem refl (s : State) (l : List Nat) : s.regsBut s l := fun _ _ => rfl

theorem trans (h : s.regsBut u l) (k : u.regsBut t l) : s.regsBut t l := fun b hb => (k b hb).trans (h b hb)

theorem mono {l' : List Nat} (h : s.regsBut u l) (hl : ∀ b ∈ l, b ∈ l') : s.regsBut u l' :=
  fun b hb => h b fun hm => hb (hl b hm)

/-- A change of hidden state alone. -/
theorem hidden (h : s.regsBut u l) (hregs : t.regs = u.regs) (hpart : t.part = u.part) : s.regsBut t l :=
  fun b hb => (State.reg_congr hregs hpart b).trans (h b hb)

theorem setReg (h : s.regsBut u l) (ha : a ∈ l) (w : Word) : s.regsBut (u.setReg a w) l :=
  fun b hb => (State.reg_setReg_ne u w (ne_of_mem_of_not_mem ha hb).symm).trans (h b hb)

theorem setF (h : s.regsBut u l) (ha : a ∈ l) (f : Field) (v : Nat) : s.regsBut (u.setF a f v) l := h.setReg ha _

theorem setNat (h : s.regsBut u l) (ha : a ∈ l) (n : Nat) : s.regsBut (u.setNat a n) l := h.setReg ha _

theorem count (h : s.regsBut u l) (ha : a ∈ l) (n : Nat) : s.regsBut (u.count a n) l := h.setReg ha _

theorem raise (h : s.regsBut u l) (ha : a ∈ l) (he : e ∈ l) (f : Field) : s.regsBut (u.raise a f e) l :=
  (h.setF ha f 1).count he 1

theorem ite {p : Prop} {_ : Decidable p} (hu : s.regsBut u l) (ht : s.regsBut t l) : s.regsBut (if p then u else t) l := by
  split <;> assumption

end State.regsBut

namespace State.WritesOnly
variable {s u t : State} {l : List Nat} {a : Nat}

theorem trans (h : s.WritesOnly u l) (k : u.WritesOnly t l) : s.WritesOnly t l :=
  ⟨h.regs.trans k.regs, h.only.trans k.only⟩

theorem mono {l' : List Nat} (h : s.WritesOnly u l) (hl : ∀ b ∈ l, b ∈ l') : s.WritesOnly u l' :=
  ⟨h.regs.mono hl, h.only⟩

theorem setNat (h : s.WritesOnly u l) (ha : a ∈ l) (n : Nat) : s.WritesOnly (u.setNat a n) l := h.setReg ha _

theorem count (h : s.WritesOnly u l) (ha : a ∈ l) (n : Nat) : s.WritesOnly (u.count a n) l := h.setReg ha _

/-- What does not look at the registers stays as it is. -/
theorem keeps {α : Type} (h : s.WritesOnly u l) (f : State → α) (hf : ∀ regs, f { s with regs := regs } = f s) : f u = f s := by
  have honly : u = { s with regs := u.regs } := h.only
  rw [honly]
  exact hf _

end State.WritesOnly

/-- A predicate that every step of a fold keeps holds of its end. -/
theorem State.foldl_induction {α : Type} {P : State → Prop} {f : State → α → State} {l : List α} {s : State} (h : P s)
    (hstep : ∀ u, P u → ∀ x ∈ l, P (f u x)) : P (l.foldl f s) := List.foldlRecOn l f h hstep

/-- From `s` to `u` only the line clock's hidden state and registers of `l` changed. -/
structure State.LineOnly (s u : State) (l : List Nat) : Prop where
  regs : s.regsBut u l
  units : u = { s with regs := u.regs, lck := u.lck }

namespace State.LineOnly
variable {s u t : State} {l : List Nat} {a e : Nat}

theorem refl (s : State) (l : List Nat) : s.LineOnly s l := ⟨.refl s l, rfl⟩

theorem trans (h : s.LineOnly u l) (k : u.LineOnly t l) : s.LineOnly t l :=
  ⟨h.regs.trans k.regs, by rw [k.units, h.units]⟩

theorem mono {l' : List Nat} (h : s.LineOnly u l) (hl : ∀ b ∈ l, b ∈ l') : s.LineOnly u l' := ⟨h.regs.mono hl, h.units⟩

theorem setReg (h : s.LineOnly u l) (ha : a ∈ l) (w : Word) : s.LineOnly (u.setReg a w) l :=
  h.trans ⟨(State.regsBut.refl u l).setReg ha w, rfl⟩

theorem setF (h : s.LineOnly u l) (ha : a ∈ l) (f : Field) (v : Nat) : s.LineOnly (u.setF a f v) l := h.setReg ha _

theorem count (h : s.LineOnly u l) (ha : a ∈ l) (n : Nat) : s.LineOnly (u.count a n) l := h.setReg ha _

theorem raise (h : s.LineOnly u l) (ha : a ∈ l) (he : e ∈ l) (f : Field) : s.LineOnly (u.raise a f e) l :=
  (h.setF ha f 1).count he 1

theorem lck (h : s.LineOnly u l) (x : LckUnit) : s.LineOnly { u with lck := x } l :=
  h.trans ⟨.refl u l, rfl⟩

theorem ite {p : Prop} {_ : Decidable p} (hu : s.LineOnly u l) (ht : s.LineOnly t l) : s.LineOnly (if p then u else t) l := by
  split <;> assumption

end State.LineOnly

/-! ### A microsecond -/

/-- The registers in which a DAC sample shows saturation (R321). -/
def clipRegs : List Nat := [R.actStatus, R.actDclipEvt]

theorem State.lineOnly_dacSample (s : State) (ch : Nat) : s.LineOnly (s.dacSample ch) clipRegs :=
  ((State.LineOnly.refl s _).raise (by simp [clipRegs]) (by simp [clipRegs]) _).ite (.refl s _)

theorem State.lineOnly_dacStep (s : State) (ch : Nat) : s.LineOnly (s.dacStep ch) clipRegs :=
  ((State.LineOnly.refl s _).lck _).ite (.refl s _)

theorem State.lineOnly_dacTick (s : State) : s.LineOnly s.dacTick clipRegs :=
  State.foldl_induction (P := fun u => s.LineOnly u clipRegs) (State.LineOnly.refl s _) fun u hu ch _ =>
    (hu.trans ((u.lineOnly_dacSample ch).trans (State.lineOnly_dacStep _ ch))).ite hu

theorem State.lineOnly_dacTicks (n : Nat) : ∀ s : State, s.LineOnly (State.dacTicks n s) clipRegs := by
  induction n with
  | zero => exact fun s => .refl s _
  | succ n ih => exact fun s => s.lineOnly_dacTick.trans (ih _)

/-- A microsecond advances the time, tracks since when every lane is stopped, and takes the DAC samples. -/
theorem State.tick_eq (s : State) : ∃ (regs : Tab Word) (lck : LckUnit) (idleAt : Option Nat),
    s.tick = { s with regs := regs, lck := lck, timeUs := s.timeUs + 1, pwr := { s.pwr with idleAt := idleAt } } ∧
    s.regsBut s.tick clipRegs := by
  have hticks (n : Nat) (idleAt : Option Nat) := State.lineOnly_dacTicks n
    { s with pwr := { s.pwr with idleAt := idleAt }, timeUs := s.timeUs + 1 }
  exact ⟨_, _, _, (hticks _ _).units, (State.regsBut.refl s _).trans (hticks _ _).regs⟩

/-- No limit and no lock lies in a register that a DAC sample writes. -/
theorem limitRows_not_mem_clipRegs : ∀ l ∈ limitRows, l.addr ∉ clipRegs := by decide

theorem pwrDomOn_not_mem_clipRegs (k : Nat) : R.pwrDomOn k ∉ clipRegs := by
  simp only [clipRegs, R.pwrDomOn, R.actStatus, R.actDclipEvt, List.mem_cons, List.not_mem_nil, or_false]
  omega

theorem State.domOn_congr_of_regsBut {s u : State} {l : List Nat} (h : s.regsBut u l) {d : Nat}
    (hd : R.pwrDomOn (d / 32) ∉ l) : u.domOn d = s.domOn d := State.domOn_congr (h _ hd)

/-! ### The statements -/

/-- Settles O1: `step` looks at the front of the queue alone. -/
theorem stepRunsFrontCommand : Obligations.StepRunsFrontCommand := fun _ _ => rfl

theorem step_of_empty {s : State} (h : s.pending = []) : step s = .next s.tick := by
  simp only [step, h]

/-- Settles O2: a microsecond writes the line clock's hidden state, the idle time and the registers of saturation alone. -/
theorem emptyQueueIsAMicrosecond : Obligations.EmptyQueueIsAMicrosecond := by
  intro s hempty
  obtain ⟨regs, lck, idleAt, hunits, hregs⟩ := s.tick_eq
  have hdom (d : Nat) : s.tick.domOn d = s.domOn d := State.domOn_congr_of_regsBut hregs (pwrDomOn_not_mem_clipRegs _)
  have hlimits : s.limitsHold s.tick := fun l hl _ => by
    rw [LimitRow.same, hregs _ (limitRows_not_mem_clipRegs l hl)]
  refine ⟨s.tick, step_of_empty hempty, ?_, ?_, ?_, ?_, ?_, ?_, ?_, ?_, ?_, hdom, hlimits⟩
  case refine_1 => rw [hunits]; exact hempty
  all_goals rw [hunits]

/-- Every next state of a command is kept from the state with the queue's rest. -/
theorem Keep.of_step {c : Instr} {rest : List Instr} {s t : State} (hs : s.pending = c :: rest) (h : step s = .next t) :
    Keep { s with pending := rest } t := by
  have hexec : exec c { s with pending := rest } = .next t := by rw [← h, step, hs]
  exact (exec_keep c _).keeps t hexec

/-- What a step is: a command of the queue, or a microsecond. -/
theorem step_cases {s t : State} (h : step s = .next t) :
    (∃ c rest, s.pending = c :: rest) ∨ t = s.tick := by
  cases hs : s.pending with
  | nil => rw [step_of_empty hs] at h; cases h; exact .inr rfl
  | cons c rest => exact .inl ⟨c, rest, rfl⟩

/-- Settles O3: the queue's rest, the ordering code and the time are parts of what every command keeps. -/
theorem commandsKeepQueueAndTime : Obligations.CommandsKeepQueueAndTime := by
  intro c rest s t hs h
  have hkeep := Keep.of_step hs h
  exact ⟨hkeep.pending, hkeep.part, hkeep.time⟩

/-- Settles O4: no register is listed right after reset, so each reads its reset value. -/
theorem resetValues : Obligations.ResetValues :=
  ⟨rfl, fun _ => rfl, by decide, by decide, by decide, by decide⟩

/-- Settles O5: an empty table is canonical. -/
theorem canonicalAtReset : Obligations.CanonicalAtReset := rfl

/-- Settles O6: a command keeps the canonical form, and so does a microsecond, with the time aside. -/
theorem stepKeepsCanonical : Obligations.StepKeepsCanonical := by
  intro s t hcanon h
  rcases step_cases h with ⟨c, rest, hs⟩ | rfl
  · exact (Keep.of_step hs h).canon hcanon
  · exact s.tick_keep.canon hcanon

/-- Settles O7: a command holds every locked limit unless it resets the always-on domain, and so does a microsecond. -/
theorem lockedLimitsHold : Obligations.LockedLimitsHold := by
  intro s t h
  rcases step_cases h with ⟨c, rest, hs⟩ | rfl
  · exact (Keep.of_step hs h).limits
  · exact s.tick_keep.limits

/-- Settles O8: a command keeps the fuses of a burned key, and so does a microsecond. -/
theorem burnedKeyHolds : Obligations.BurnedKeyHolds := by
  intro s t h
  rcases step_cases h with ⟨c, rest, hs⟩ | rfl
  · exact (Keep.of_step hs h).key
  · exact s.tick_keep.key

theorem Out.next_of_ite (p : Prop) [Decidable p] {o o' : Out} (h : ∃ t, o = .next t) (h' : ∃ t, o' = .next t) :
    ∃ t, (if p then o else o') = .next t := by split <;> assumption

/-- Settles O9: each command's meaning is a next state, in every branch of those that look at their operands first. -/
theorem everyCommandCompletes : Obligations.EveryCommandCompletes := by
  intro c s
  cases c
  case f2Transfer op => cases op <;> exact Out.next_of_ite _ ⟨_, rfl⟩ ⟨_, rfl⟩
  case registerWrite w => cases w <;> exact ⟨_, rfl⟩
  case dbgAccess op => cases op <;> exact Out.next_of_ite _ ⟨_, rfl⟩ ⟨_, rfl⟩
  case watchdogKick | logFlushTimeout | powerOn | vddAonLoss | powerFailure | dbgChallenge =>
    exact Out.next_of_ite _ ⟨_, rfl⟩ ⟨_, rfl⟩
  case domainWakeFail d =>
    simp only [exec, execDomainWakeFail]
    split <;> exact ⟨_, rfl⟩
  case warmReset =>
    simp only [exec, execWarmReset]
    split <;> exact ⟨_, rfl⟩
  case hardTrip i t =>
    simp only [exec, execHardTrip]
    split <;> exact ⟨_, rfl⟩
  case idleStandby =>
    simp only [exec, execIdleStandby]
    split <;> exact ⟨_, rfl⟩
  case railWaitTimeout =>
    simp only [exec, execRailWaitTimeout]
    split
    · refine Out.next_of_ite _ ?_ ⟨_, rfl⟩
      split <;> exact ⟨_, rfl⟩
    · exact ⟨_, rfl⟩
  all_goals exact ⟨_, rfl⟩

/-- Settles O10: a lock command writes its lock bit and the copy in SEC_LOCK. -/
theorem lockCommands : Obligations.LockCommands := by
  intro s
  have hwrites {a : Nat} (f g : Field) :
      s.WritesOnly ((s.setF a f 1).setF R.secLock g 1) [a, R.secLock] :=
    ((State.WritesOnly.refl s _).setF (by simp) f 1).setF (by simp) g 1
  refine ⟨⟨_, rfl, ?_, ?_, (hwrites _ _).regs, (hwrites _ _).only⟩, ⟨_, rfl, ?_, ?_, (hwrites _ _).regs, (hwrites _ _).only⟩,
    ⟨_, rfl, ?_, ((State.WritesOnly.refl s _).setF (by simp) _ _).regs, rfl⟩⟩
  · rw [State.isSet_setF_ne _ _ _ _ (by decide), State.isSet_setF_self _ _ _ _ (by decide)]; rfl
  · rw [State.isSet_setF_self _ _ _ _ (by decide)]; rfl
  · rw [State.isSet_setF_ne _ _ _ _ (by decide), State.isSet_setF_self _ _ _ _ (by decide)]; rfl
  · rw [State.isSet_setF_self _ _ _ _ (by decide)]; rfl
  · rw [State.isSet_setF_self _ _ _ _ (by decide)]; rfl

end Sys2Proof.Machine
end

section
/-! PROOF. The read latch and the captures of function 1 (R328, R424, R475, R476), the bus commands of the card (R473, R514)
and the debug port (R449 to R451): O13, O15, O16. -/

namespace Sys2Proof.Machine

/-! ### The read latch and the captures -/

section
variable (s : State) (w : Nat)

/-- A capture belongs to an encoder or to the time. -/
theorem State.readEffect_eq : ∃ (lck : LckUnit) (flt : FltUnit), s.readEffect w = { s with lck := lck, flt := flt } := by
  have henc (e : Nat) (x : Enc) : ∃ (lck : LckUnit) (flt : FltUnit), s.setEnc e x = { s with lck := lck, flt := flt } :=
    ⟨_, s.flt, s.setEnc_eq e x⟩
  unfold State.readEffect
  split_ifs
  · exact henc 0 _
  · exact henc 1 _
  · exact ⟨s.lck, _, rfl⟩
  · exact henc 0 _
  · exact henc 1 _
  · exact ⟨s.lck, _, rfl⟩
  · exact ⟨s.lck, s.flt, rfl⟩

/-- A latched read takes the whole word, as it stands before any capture. -/
theorem State.latchRead_eq : ∃ (lck : LckUnit) (flt : FltUnit), s.latchRead w =
    { s with sdm := { s.sdm with latch := some (w, s.readReg w) }, lck := lck, flt := flt } := by
  unfold State.latchRead
  dsimp only
  split
  · obtain ⟨lck, flt, h⟩ := State.readEffect_eq { s with sdm := { s.sdm with latch := some (w, s.readReg w) } } w
    exact ⟨lck, flt, h⟩
  · exact ⟨s.lck, s.flt, rfl⟩

end

theorem State.derived_lckPos0Hi (s : State) : s.derived R.lckPos0Hi = some (s.posHi 0) := rfl

theorem State.derived_lckPos1Hi (s : State) : s.derived R.lckPos1Hi = some (s.posHi 1) := rfl

theorem State.derived_fltTimeHi (s : State) :
    s.derived R.fltTimeHi = some (s.flt.hiCap.getD (s.timeUs / 2 ^ 32 % 2 ^ 32)) := rfl

theorem State.posHi_of_hiCap {s : State} {e v : Nat} (h : (s.enc e).hiCap = some v) : s.posHi e = v := by
  rw [State.posHi, h, Option.getD_some]

/-- Settles O13: the latch takes the word that a read of the register gives, and a capture stands whatever the counter then
does. -/
theorem readCaptures : Obligations.ReadCaptures := by
  intro s
  refine ⟨fun a hready => ⟨s.f1Read a.toNat, congrArg Host.Outcome.next (if_pos hready), ?latch⟩,
    ⟨s.capture .pos0, rfl, fun p => ?pos0, rfl, rfl, rfl⟩, ⟨s.capture .pos1, rfl, fun p => ?pos1, rfl, rfl, rfl⟩,
    ⟨s.capture .fltTime, rfl, fun n => ?time, rfl, rfl⟩⟩
  case latch =>
    dsimp only
    unfold State.f1Read
    split
    case isTrue h => exact if_pos h
    case isFalse h =>
      obtain ⟨lck, flt, hread⟩ := s.latchRead_eq (s.f1Addr a.toNat - s.f1Addr a.toNat % 4)
      rw [if_neg h, hread]
      exact ⟨rfl, rfl, rfl⟩
  case pos0 => exact (State.derived_lckPos0Hi _).trans (congrArg some (State.posHi_of_hiCap rfl))
  case pos1 => exact (State.derived_lckPos1Hi _).trans (congrArg some (State.posHi_of_hiCap rfl))
  case time => exact State.derived_fltTimeHi _

/-! ### The card -/

/-- A byte of function 0 takes the bits that its mask names, where the value is one that Krein supports (R514). -/
theorem State.f0Write_eq (s : State) {a v : Nat} (hmask : f0Mask a ≠ 0) (hvalid : f0Valid a (Nat.land v (f0Mask a)) = true) :
    s.f0Write a v = { s with sdm := { s.sdm with
      f0 := s.sdm.f0.set a (BitVec.ofNat 8 (Nat.land v (f0Mask a))) 0 } } := if_pos ⟨hmask, hvalid⟩

theorem ofNat_land_toNat (v m : Byte) : BitVec.ofNat 8 (Nat.land v.toNat m.toNat) = v &&& m := by
  apply BitVec.eq_of_toNat_eq
  rw [BitVec.toNat_ofNat, BitVec.toNat_and]
  exact Nat.mod_eq_of_lt (Nat.and_lt_two_pow _ m.isLt)

/-- Settles O15: the answers are put on the bus, and a write of function 0 sets its own byte alone. -/
theorem cardCommands : Obligations.CardCommands := by
  intro s v
  refine ⟨⟨_, rfl, rfl, rfl⟩, fun h18 hmode => ⟨s.emit .tuning, ?tuning, rfl, rfl⟩, ⟨_, rfl, rfl, rfl⟩,
    ⟨_, congrArg Host.Outcome.next (s.f0Write_eq (by decide) rfl), rfl, rfl, ?enables, ?enablesFrame⟩,
    ⟨_, congrArg Host.Outcome.next (s.f0Write_eq (by decide) rfl), rfl, rfl, ?size, ?sizeFrame⟩⟩
  case tuning =>
    simp only [exec, execCmd19, h18, hmode]
    rfl
  case enables => exact (Tab.getD_set_self _ _ _ _).trans (ofNat_land_toNat v 0x06)
  case enablesFrame => exact fun a ha => Tab.getD_set_ne _ _ _ _ ha
  case size =>
    refine (Tab.getD_set_self _ _ _ _).trans ((ofNat_land_toNat v 0xFF).trans ?_)
    exact BitVec.and_allOnes
  case sizeFrame => exact fun a ha => Tab.getD_set_ne _ _ _ _ ha

/-! ### The debug port -/

section
variable {s : State}

theorem State.extestOk_of_safe (hsafe : s.isSet R.actCtrl F.actCtrlSafeState = true) (h : ∀ x, x < 64 → s.ctxState x ≠ 2) :
    s.extestOk = true := by
  have hnone : (List.range 64).any (fun x => s.ctxState x == 2) = false := by
    rw [List.any_eq_false]
    exact fun x hx => by rw [beq_iff_eq]; exact h x (List.mem_range.1 hx)
  simp only [State.extestOk, State.anyRunning, hsafe, hnone, Bool.and_false, Bool.not_false, Bool.and_self, Bool.true_or]

theorem State.extestOk_of_not_permitted (hsafe : s.isSet R.actCtrl F.actCtrlSafeState = false)
    (hscope : bit s.sys.scope 3 = false) : s.extestOk = false := by
  simp only [State.extestOk, State.scopeBit, hsafe, hscope, Bool.false_and, Bool.or_self]

/-- What every certificate leaves: the challenge consumed, the fuses as they were, and the scope wider only if it was
accepted (R450, R451). -/
theorem State.sys_debugCert (s : State) (c : Bytes) : (s.debugCert c).sys = { s.sys with
    challenge := none, scope := if s.certOk c then Nat.lor s.sys.scope (certScope c) else s.sys.scope } := by
  unfold State.debugCert
  dsimp only
  split <;> rw [State.report_sys]
  · rfl

theorem State.dbgOn_setIr (hsec : s.domOn 61 = true) (hport : s.domOn 67 = true) (ir : Nat) : (s.setIr ir).dbgOn = true :=
  Bool.and_eq_true_iff.2 ⟨hsec, hport⟩

/-- An access through a powered debug port is decided by its kind. -/
theorem exec_dbgAccess_of_on (hon : (s.setIr 0x22).dbgOn = true) (op : DbgOp) :
    exec (.dbgAccess op) s = match op with
      | .read a => .next (if s.scopeBit 0 then (s.setIr 0x22).emit (.tap (leBytes 4 (s.readReg a.toNat).toNat)) else s.setIr 0x22)
      | .write a v => .next (if s.scopeBit 1 then (s.setIr 0x22).fwWrite a.toNat v else s.setIr 0x22)
      | .halt c => .next (if s.scopeBit 2 ∧ c.val ∉ s.sys.halted then
          { s.setIr 0x22 with sys := { s.sys with tapIr := 0x22, halted := s.sys.halted ++ [c.val] } } else s.setIr 0x22)
      | .resume c => .next (if s.scopeBit 2 then
          { s.setIr 0x22 with sys := { s.sys with tapIr := 0x22, halted := s.sys.halted.filter (· ≠ c.val) } }
          else s.setIr 0x22) := by
  refine (if_neg (by rw [hon]; decide)).trans ?_
  cases op <;> rfl

end

/-- Settles O16: TAP instructions select themselves; a challenge is consumed by every certificate, whose scope alone decides on
an access. -/
theorem debugPort : Obligations.DebugPort := by
  intro s
  refine ⟨⟨_, rfl, rfl, rfl⟩, ⟨_, rfl, rfl⟩, ⟨_, rfl, rfl⟩, ⟨_, rfl, rfl, by rfl, rfl⟩, fun hsafe hctx => ?extest,
    fun hsafe hscope => ?bypass, fun hsec hport => ?unlocked⟩
  case extest => simp only [exec, execExtest, State.extestOk_of_safe hsafe hctx, if_true, State.setIr]
  case bypass =>
    simp only [exec, execExtest, State.extestOk_of_not_permitted hsafe hscope, Bool.false_eq_true, if_false, State.setIr]
  case unlocked =>
    have hon := State.dbgOn_setIr (s := s) hsec hport
    have haccess := exec_dbgAccess_of_on (hon 0x22)
    refine ⟨⟨_, _, if_pos (hon 0x20), rfl, rfl, rfl, rfl, rfl⟩,
      fun cert => ⟨(s.setIr 0x21).debugCert cert, congrArg Host.Outcome.next (if_pos (hon 0x21)), ?_⟩, fun hread a => ?read,
      fun hhalt c => ?halt, fun hwrite a v => ?write⟩
    · rw [State.sys_debugCert]
      exact ⟨rfl, rfl, rfl⟩
    case read => exact ⟨_, (haccess _).trans (congrArg Host.Outcome.next (if_pos hread)), rfl, rfl⟩
    case halt =>
      refine ⟨_, haccess _, ?_⟩
      split
      · exact ⟨by simp, rfl⟩
      · next h => exact ⟨not_not.1 fun hc => h ⟨hhalt, hc⟩, rfl⟩
    case write => exact ⟨_, (haccess _).trans (congrArg Host.Outcome.next (if_neg (by simp [State.scopeBit, hwrite]))), rfl⟩

end Sys2Proof.Machine
end


section
/-! PROOF. The mailbox (R448, R479 to R483): what the command buffer holds after a command row, what a reply leaves, and the
commands that answer at once, are accepted, or end. -/

namespace Sys2Proof.Machine

/-! ### Runs of a table -/

section
variable {α : Type} [DecidableEq α]

theorem Tab.getD_setRun_of_lt (d : α) {j : Nat} : ∀ (vs : List α) (t : Tab α) (k : Nat), j < k →
    (t.setRun d k vs).getD j d = t.getD j d
  | [], _, _, _ => rfl
  | v :: vs, t, k, h => by
    have rest := Tab.getD_setRun_of_lt d vs (t.set k v d) (k + 1) (Nat.lt_succ_of_lt h)
    exact rest.trans (Tab.getD_set_ne t v d d (Nat.ne_of_lt h))

theorem Tab.getD_setRun (d : α) : ∀ (vs : List α) (t : Tab α) (k i : Nat) (h : i < vs.length),
    (t.setRun d k vs).getD (k + i) d = vs[i]
  | v :: vs, t, k, 0, _ => by
    have rest := Tab.getD_setRun_of_lt d vs (t.set k v d) (k + 1) (Nat.lt_succ_self k)
    exact rest.trans (Tab.getD_set_self t k v d)
  | v :: vs, t, k, i + 1, h => by
    have rest := Tab.getD_setRun d vs (t.set k v d) (k + 1) i (Nat.lt_of_succ_lt_succ h)
    rwa [Nat.add_assoc, Nat.add_comm 1 i] at rest

/-- A part of a written run reads what was written. -/
theorem Tab.getRun_setRun (d : α) (vs : List α) (t : Tab α) (k : Nat) : ∀ (n m : Nat), m + n ≤ vs.length →
    Tab.getRun d (t.setRun d k vs) (k + m) n = (vs.drop m).take n
  | 0, _, _ => by simp only [Tab.getRun, List.take_zero]
  | n + 1, m, h => by
    have hm : m < vs.length := by omega
    have rest := Tab.getRun_setRun d vs t k n (m + 1) (by omega)
    rw [Tab.getRun, Tab.getD_setRun d vs t k m hm, List.drop_eq_getElem_cons hm, List.take_succ_cons]
    exact congrArg _ rest

end

/-! ### Little-endian numbers -/

theorem leNat_leBytes : ∀ n v : Nat, leNat (leBytes n v) = v % 256 ^ n
  | 0, v => (Nat.mod_one v).symm
  | n + 1, v => by
    rw [Nat.pow_succ', Nat.mod_mul, leBytes, leNat, leNat_leBytes n, BitVec.toNat_ofNat]

@[simp] theorem length_leBytes : ∀ n v : Nat, (leBytes n v).length = n
  | 0, _ => rfl
  | n + 1, v => congrArg (· + 1) (length_leBytes n (v / 256))

theorem leAt_of_split (xs ys zs : Bytes) : leAt (xs ++ ys ++ zs) xs.length ys.length = leNat ys := by
  have h : ((xs ++ ys ++ zs).drop xs.length).take ys.length = ys := by
    rw [List.append_assoc, List.drop_left, List.take_left]
  rw [leAt, takeAt, h, Nat.sub_self, List.replicate_zero, List.append_nil]

theorem leAt_singleton {v : Nat} (h : v < 256) : leAt [BitVec.ofNat 8 v] 0 1 = v := by
  refine (leAt_of_split [] [BitVec.ofNat 8 v] []).trans ((leNat_leBytes 1 v).trans ?_)
  exact Nat.mod_eq_of_lt h

theorem leAt_leBytes {v : Nat} (h : v < 2 ^ 32) : leAt (leBytes 4 v) 0 4 = v := by
  exact (leAt_of_split [] (leBytes 4 v) []).trans ((leNat_leBytes 4 v).trans (Nat.mod_eq_of_lt h))

/-! ### The command buffer (R479) -/

/-- The header of a command (R479). -/
def mbHeader (op tag len f2 : Nat) : Bytes :=
  leBytes 2 op ++ leBytes 2 tag ++ leBytes 2 len ++ leBytes 2 0 ++ leBytes 4 f2 ++ leBytes 4 0

section
variable {op tag len f2 : Nat}

theorem leAt_mbHeader_op (h : op < 2 ^ 16) : leAt (mbHeader op tag len f2) 0 2 = op :=
  (leAt_of_split [] (leBytes 2 op) (leBytes 2 tag ++ leBytes 2 len ++ leBytes 2 0 ++ leBytes 4 f2 ++ leBytes 4 0)).trans
    ((leNat_leBytes 2 op).trans (Nat.mod_eq_of_lt h))

theorem leAt_mbHeader_tag (h : tag < 2 ^ 16) : leAt (mbHeader op tag len f2) 2 2 = tag :=
  (leAt_of_split (leBytes 2 op) (leBytes 2 tag) (leBytes 2 len ++ leBytes 2 0 ++ leBytes 4 f2 ++ leBytes 4 0)).trans
    ((leNat_leBytes 2 tag).trans (Nat.mod_eq_of_lt h))

theorem leAt_mbHeader_len (h : len < 2 ^ 16) : leAt (mbHeader op tag len f2) 4 2 = len :=
  (leAt_of_split (leBytes 2 op ++ leBytes 2 tag) (leBytes 2 len) (leBytes 2 0 ++ leBytes 4 f2 ++ leBytes 4 0)).trans
    ((leNat_leBytes 2 len).trans (Nat.mod_eq_of_lt h))

theorem leAt_mbHeader_f2 (h : f2 < 2 ^ 32) : leAt (mbHeader op tag len f2) 8 4 = f2 :=
  (leAt_of_split (leBytes 2 op ++ leBytes 2 tag ++ leBytes 2 len ++ leBytes 2 0) (leBytes 4 f2) (leBytes 4 0)).trans
    ((leNat_leBytes 4 f2).trans (Nat.mod_eq_of_lt h))

end

section
variable {s : State} {op : Nat} {tag : BitVec 16} {params : Bytes} {f2 : Nat}

/-- The doorbell finds in the buffer the command that was written there. -/
theorem State.bufCmd_buffered (hop : op < 2 ^ 16) (hlen : params.length ≤ 4080) (hf2 : f2 < 2 ^ 32) :
    (s.buffered op tag params f2).bufCmd = ⟨op, tag.toNat, params.length, params, f2⟩ := by
  have hrun := Tab.getRun_setRun 0 (mbHeader op tag.toNat params.length f2 ++ params) s.sdm.cmdBuf 0
  have hhdr : Tab.getRun 0 (s.buffered op tag params f2).sdm.cmdBuf 0 16 = mbHeader op tag.toNat params.length f2 :=
    (hrun 16 0 (by rw [List.length_append]; exact Nat.le_add_right 16 _)).trans (List.take_left (l₁ := mbHeader _ _ _ _))
  have hpar : Tab.getRun 0 (s.buffered op tag params f2).sdm.cmdBuf 16 params.length = params :=
    (hrun params.length 16 (by rw [List.length_append]; exact Nat.le_refl _)).trans
      ((congrArg (List.take _) (List.drop_left (l₁ := mbHeader _ _ _ _))).trans (List.take_length ..))
  unfold State.bufCmd
  dsimp only
  rw [hhdr, leAt_mbHeader_op hop, leAt_mbHeader_tag tag.isLt, leAt_mbHeader_len (by omega), leAt_mbHeader_f2 hf2,
    Nat.min_eq_left hlen, hpar]

/-- A command row with the mailbox free is its command, handled on the state that holds it in its buffer. -/
theorem State.mbRow_of_free (hfree : s.mailboxFree) (hop : op < 2 ^ 16) (hlen : params.length ≤ 4080) (hf2 : f2 < 2 ^ 32) :
    s.mbRow op tag params f2 = (s.buffered op tag params f2).mailbox ⟨op, tag.toNat, params.length, params, f2⟩ := by
  have hbell : s.mbRow op tag params f2 = (s.buffered op tag params f2).doorbell := by
    unfold State.mbRow
    rw [hfree.1, List.take_of_length_le hlen, Nat.min_eq_left (show params.length ≤ 0xFFFF by omega),
      Nat.min_eq_left (show f2 ≤ 0xFFFFFFFF by omega)]
    rfl
  have hmb : (s.buffered op tag params f2).mbState ≠ 2 := hfree.2
  rw [hbell, State.doorbell, if_neg hmb, State.bufCmd_buffered hop hlen hf2, if_pos hlen]

/-- An open device checks a command's lengths and values, and runs it. -/
theorem State.mbRow_of_open (hopen : s.deviceOpen) (hop : 2 ≤ op ∧ op ≤ 12) (hlen : params.length ≤ 4080) (hf2 : f2 < 2 ^ 32)
    (hl : lengthsOk ⟨op, tag.toNat, params.length, params, f2⟩ = true)
    (hv : valuesOk ⟨op, tag.toNat, params.length, params, f2⟩ = true) :
    s.mbRow op tag params f2 = (s.buffered op tag params f2).mbRun ⟨op, tag.toNat, params.length, params, f2⟩ := by
  obtain ⟨hfree, hactive, hboot, hdrr, -⟩ := hopen
  have hgate : (s.buffered op tag params f2).mbGate ⟨op, tag.toNat, params.length, params, f2⟩ = 0 := by
    have hp : (s.buffered op tag params f2).pstate = 0 := hactive
    have hb : (s.buffered op tag params f2).sys.boot = none := hboot
    have hd : (s.buffered op tag params f2).flt.drrAt = none := hdrr
    simp only [State.mbGate, hp, hb, hd, Option.isSome_none, Bool.false_eq_true, if_false,
      OfNat.zero_ne_ofNat]
  rw [State.mbRow_of_free hfree (by omega) hlen hf2, State.mailbox]
  simp only [hgate, ite_self, ne_eq, not_true, if_false, hl, hv, Bool.not_true, Bool.false_eq_true]
  exact if_neg (by omega)

end

/-! ### Replies (R479, R480) -/

/-- From `s` to `u` only the mailbox's hidden state and registers of `l` changed. -/
structure State.MailOnly (s u : State) (l : List Nat) : Prop where
  regs : s.regsBut u l
  units : u = { s with regs := u.regs, sdm := u.sdm }

namespace State.MailOnly
variable {s u t : State} {l : List Nat}

theorem hidden (s : State) (x : SdmUnit) (l : List Nat) : s.MailOnly { s with sdm := x } l :=
  ⟨(State.regsBut.refl s l).hidden rfl rfl, rfl⟩

theorem of_writes (h : s.WritesOnly u l) : s.MailOnly u l := by
  have hsdm : u.sdm = s.sdm := h.keeps State.sdm fun _ => rfl
  refine ⟨h.regs, ?_⟩
  rw [hsdm]
  exact h.only

theorem trans (h : s.MailOnly u l) (k : u.MailOnly t l) : s.MailOnly t l :=
  ⟨h.regs.trans k.regs, by rw [k.units, h.units]⟩

theorem mono {l' : List Nat} (h : s.MailOnly u l) (hl : ∀ b ∈ l, b ∈ l') : s.MailOnly u l' := ⟨h.regs.mono hl, h.units⟩

/-- What looks neither at the registers nor at the mailbox stays as it is. -/
theorem keeps {α : Type} (h : s.MailOnly u l) (f : State → α)
    (hf : ∀ regs sdm, f { s with regs := regs, sdm := sdm } = f s) : f u = f s := by
  rw [h.units]
  exact hf _ _

end State.MailOnly

section
variable (s : State) (bs : Bytes)

theorem State.writesOnly_placeReply :
    ({ s with sdm := { s.sdm with repBuf := s.sdm.repBuf.setRun 0 0 bs } } : State).WritesOnly (s.placeReply bs) replyRegs :=
  (((State.WritesOnly.refl _ _).setF (by simp [replyRegs]) _ _).setF (by simp [replyRegs]) _ _).raise (by simp [replyRegs])
    (by simp [replyRegs]) _

theorem State.placeReply_sdm : (s.placeReply bs).sdm = { s.sdm with repBuf := s.sdm.repBuf.setRun 0 0 bs } :=
  (s.writesOnly_placeReply bs).keeps State.sdm fun _ => rfl

theorem State.mailOnly_placeReply : s.MailOnly (s.placeReply bs) replyRegs :=
  (State.MailOnly.hidden s _ _).trans (.of_writes (s.writesOnly_placeReply bs))

theorem State.mbState_placeReply : (s.placeReply bs).mbState = 2 := by
  unfold State.mbState State.placeReply
  dsimp only
  rw [State.getF_raise_ne _ _ _ _ _ (by decide) (by decide), State.getF_setF_ne _ _ _ _ (by decide),
    State.getF_setF_self _ _ _ _ (by decide)]
  rfl

theorem State.hasReply_placeReply : (s.placeReply bs).hasReply bs := by
  refine ⟨?buffer, s.mbState_placeReply bs, ?told⟩
  case buffer =>
    have hrun := Tab.getRun_setRun 0 bs s.sdm.repBuf 0 bs.length 0 (by omega)
    rw [List.drop_zero, List.take_length] at hrun
    rw [State.placeReply_sdm]
    exact hrun
  case told => exact State.isSet_raise_self _ _ _ _ (by decide) (by decide) (by decide)

end

/-! ### Commands that answer at once (R448, R481 to R483) -/

section
variable (s : State) (op : Nat) (tag : BitVec 16) (params : Bytes) (f2 : Nat)

theorem State.readReg_buffered {a : Nat} (h : ¬ (0x1000 ≤ a ∧ a < 0x2000)) :
    (s.buffered op tag params f2).readReg a = s.readReg a := by
  unfold State.readReg
  rw [if_neg h, if_neg h]
  rfl

theorem State.statusBlock_buffered : (s.buffered op tag params f2).statusBlock = s.statusBlock := by
  have hread : ∀ a ∈ [R.pwrState, R.idBoot, R.thmMax, R.thmLevel, R.calSummary, R.fltHostStatus, R.fltCoreState, R.fltDrr],
      leBytes 4 ((s.buffered op tag params f2).readReg a).toNat = leBytes 4 (s.readReg a).toNat := by
    intro a ha
    rw [State.readReg_buffered]
    revert a
    decide
  unfold State.statusBlock
  rw [List.flatMap_congr hread, State.readReg_buffered _ _ _ _ _ (by decide)]
  rfl

theorem State.counter_buffered (i : Nat) : (s.buffered op tag params f2).counter i = s.counter i := by
  unfold State.counter
  rfl

theorem State.mailOnly_buffered : s.MailOnly (s.buffered op tag params f2) replyRegs := State.MailOnly.hidden s _ _

theorem State.quote_buffered (nonce : Bytes) : (s.buffered op tag params f2).quote nonce = s.quote nonce := by
  unfold State.quote State.quoteBody
  rw [State.readReg_buffered _ _ _ _ _ (by decide)]
  rfl

end

section
variable {s : State} {tag : BitVec 16}

/-- GET_STATUS is answered in any condition of the device. -/
theorem exec_getStatus (hfree : s.mailboxFree) {sel : Nat} (hsel : sel ≤ 8) :
    exec (.getStatus tag [BitVec.ofNat 8 sel] 0) s = .next ((s.buffered 1 tag [BitVec.ofNat 8 sel] 0).placeReply
      (replyBytes 1 tag.toNat 0 0 0 (if sel = 0 then s.statusBlock else s.partnerRecord (sel - 1)))) := by
  have hval : leAt [BitVec.ofNat 8 sel] 0 1 = sel := leAt_singleton (by omega)
  have hv : valuesOk ⟨1, tag.toNat, 1, [BitVec.ofNat 8 sel], 0⟩ = true := by
    simp only [valuesOk, hval, hsel, decide_true]
  have hrun : (s.buffered 1 tag [BitVec.ofNat 8 sel] 0).mailbox ⟨1, tag.toNat, 1, [BitVec.ofNat 8 sel], 0⟩ =
      (s.buffered 1 tag [BitVec.ofNat 8 sel] 0).mbGetStatus ⟨1, tag.toNat, 1, [BitVec.ofNat 8 sel], 0⟩ := by
    unfold State.mailbox
    rw [hv]
    rfl
  refine congrArg Host.Outcome.next ((State.mbRow_of_free hfree (by decide) (by simp) (by decide)).trans (hrun.trans ?_))
  unfold State.mbGetStatus State.answer
  simp only [hval, State.statusBlock_buffered]
  rfl

end

section
variable {s u : State} {c : MbCmd}

/-- Data for the host is announced in the reply, and waits for its stream. -/
theorem State.sendF2_of_free (h : s.MailOnly u replyRegs) (hfree : u.f2Busy = false) {n : Nat} (hn : n ≠ 0)
    (params : Bytes) (src : F2Src) :
    (u.sendF2 c params n src).hasReply (replyBytes c.op c.tag 0 0 n params) ∧
    (u.sendF2 c params n src).sdm.f2Next = some ⟨c.tag, n, src⟩ ∧ s.MailOnly (u.sendF2 c params n src) replyRegs := by
  have hsend : u.sendF2 c params n src = ({ u with sdm := { u.sdm with f2Next := some ⟨c.tag, n, src⟩ } } : State).placeReply
      (replyBytes c.op c.tag 0 0 n params) := by
    rw [State.sendF2, if_neg hn, hfree]
    rfl
  rw [hsend]
  exact ⟨State.hasReply_placeReply _ _, by rw [State.placeReply_sdm],
    h.trans ((State.MailOnly.hidden u _ _).trans (State.mailOnly_placeReply _ _))⟩

theorem State.mbRun_readLog_of_dump (hop : c.op = 2) (h : leAt c.params 0 1 = 1) :
    u.mbRun c = u.sendF2 c [0, 0, 0, 0] (64 * 2 ^ 20) (.dump 0) := by
  rw [State.mbRun, hop]
  exact if_pos h

theorem State.mbRun_attest_of_idOk (hop : c.op = 4) (h : u.sys.idOk = true) :
    u.mbRun c = u.sendF2 c [] 8890 (.bytes (u.quote (c.params.take 32))) := by
  rw [State.mbRun, hop]
  exact if_pos h

theorem State.mbRun_readCounters_zero (hop : c.op = 3) (h : leAt c.params 0 1 = 0) :
    u.mbRun c =
      u.placeReply (replyBytes c.op c.tag 0 0 0 ((List.range 6).flatMap (fun i => leBytes 4 (u.counter i)))) := by
  rw [State.mbRun, hop, State.mbReadCounters, h, State.answer, hop]
  rfl

theorem State.deviceOpen.f2Busy_buffered (h : s.deviceOpen) (op : Nat) (tag : BitVec 16) (params : Bytes) (f2 : Nat) :
    (s.buffered op tag params f2).f2Busy = false := by
  obtain ⟨-, -, -, -, -, hf2, -⟩ := h
  exact hf2

end

/-- Settles O17: each of the four answers in the reply buffer, and READ_LOG and ATTEST leave their data for F2. -/
theorem mailboxReads : Obligations.MailboxReads := by
  intro s tag
  refine ⟨fun hfree sel hsel => ?status, fun hopen => ⟨?counters, ?log, fun nonce hlen hid => ?quote⟩⟩
  case status =>
    have hframe := (s.mailOnly_buffered 1 tag [BitVec.ofNat 8 sel] 0).trans (State.mailOnly_placeReply _
      (replyBytes 1 tag.toNat 0 0 0 (if sel = 0 then s.statusBlock else s.partnerRecord (sel - 1))))
    exact ⟨_, exec_getStatus hfree hsel, State.hasReply_placeReply _ _, hframe.regs, hframe.units⟩
  case counters =>
    have hrow := State.mbRow_of_open (tag := tag) (params := [0]) hopen (op := 3) (f2 := 0) (by decide) (by decide) (by decide) rfl rfl
    rw [State.mbRun_readCounters_zero rfl rfl] at hrow
    simp only [State.counter_buffered] at hrow
    have hframe := (s.mailOnly_buffered 3 tag [0] 0).trans (State.mailOnly_placeReply _
      (replyBytes 3 tag.toNat 0 0 0 ((List.range 6).flatMap (fun i => leBytes 4 (s.counter i)))))
    exact ⟨_, congrArg Host.Outcome.next hrow, State.hasReply_placeReply _ _, hframe.regs, hframe.units⟩
  case log =>
    have hrow := State.mbRow_of_open (tag := tag) (params := [1, 0, 0, 0, 0, 0, 0, 0]) hopen (op := 2) (f2 := 0) (by decide)
      (by decide) (by decide) rfl rfl
    rw [State.mbRun_readLog_of_dump rfl rfl] at hrow
    obtain ⟨hreply, hdata, hframe⟩ := State.sendF2_of_free (c := ⟨2, tag.toNat, 8, [1, 0, 0, 0, 0, 0, 0, 0], 0⟩)
      (s.mailOnly_buffered 2 tag [1, 0, 0, 0, 0, 0, 0, 0] 0) (hopen.f2Busy_buffered ..) (show 64 * 2 ^ 20 ≠ 0 by norm_num)
      [0, 0, 0, 0] (.dump 0)
    exact ⟨_, congrArg Host.Outcome.next hrow, hreply, hdata, hframe.regs, hframe.units⟩
  case quote =>
    have hl : lengthsOk ⟨4, tag.toNat, nonce.length, nonce, 0⟩ = true := by simp only [lengthsOk, hlen]; rfl
    have hrow := State.mbRow_of_open (tag := tag) hopen (op := 4) (f2 := 0) (by decide) (by omega) (by decide) hl rfl
    rw [State.mbRun_attest_of_idOk (u := s.buffered 4 tag nonce 0) rfl hid, State.quote_buffered,
      List.take_of_length_le hlen.le] at hrow
    obtain ⟨hreply, hdata, hframe⟩ := State.sendF2_of_free (c := ⟨4, tag.toNat, nonce.length, nonce, 0⟩)
      (s.mailOnly_buffered 4 tag nonce 0) (hopen.f2Busy_buffered ..) (show 8890 ≠ 0 by decide) [] (.bytes (s.quote nonce))
    exact ⟨_, congrArg Host.Outcome.next hrow, hreply, hdata, hframe.regs, hframe.units⟩

/-! ### Commands that are accepted (R480, R481) -/

section
variable (s : State) (op tag : Nat) (params : Bytes)

theorem State.hasReply_acceptLong : (s.acceptLong op tag params).hasReply (replyBytes op tag 0 1 0 []) :=
  State.hasReply_placeReply _ _

theorem State.acceptLong_sdm : (s.acceptLong op tag params).sdm =
    { s.sdm with long := some ⟨op, tag, params, [], 0, 0⟩, repBuf := s.sdm.repBuf.setRun 0 0 (replyBytes op tag 0 1 0 []) } := by
  rw [State.acceptLong, State.placeReply_sdm, State.setF_sdm, State.setF_sdm]

theorem State.mailOnly_acceptLong : s.MailOnly (s.acceptLong op tag params) replyRegs := by
  have hwrites (u : State) : u.WritesOnly ((u.setF R.sdmMbState F.sdmMbStateLongBusy 1).setF R.sdmMbState F.sdmMbStateTag tag)
      replyRegs := ((State.WritesOnly.refl u _).setF (by simp [replyRegs]) _ _).setF (by simp [replyRegs]) _ _
  exact ((State.MailOnly.hidden s _ _).trans (.of_writes (hwrites _))).trans (State.mailOnly_placeReply _ _)

theorem State.writesOnly_openF2 (dir n : Nat) : s.WritesOnly (s.openF2 tag dir n) [R.sdmF2State, R.sdmF2Left] :=
  ((((State.WritesOnly.refl s _).setF (by simp) _ _).setF (by simp) _ _).setF (by simp) _ _).setNat (by simp) _

/-- An open stream leaves the reply as it is. -/
theorem State.hasReply_openF2 {bs : Bytes} (h : s.hasReply bs) (dir n : Nat) : (s.openF2 tag dir n).hasReply bs := by
  obtain ⟨hbuf, hstate, htold⟩ := h
  have hwrites := s.writesOnly_openF2 tag dir n
  have hsdm : (s.openF2 tag dir n).sdm = s.sdm := hwrites.keeps State.sdm fun _ => rfl
  refine ⟨by rw [hsdm]; exact hbuf, ?_, ?_⟩
  · exact (State.getF_congr (hwrites.regs _ (by decide)) _).trans hstate
  · rw [State.isSet, State.getF_congr (hwrites.regs R.sdmHostStatus (by decide))]
    exact htold

theorem State.f2Open_openF2 (n : Nat) : (s.openF2 tag 1 n).f2Open true = true := by
  have hopen : (s.openF2 tag 1 n).isSet R.sdmF2State F.sdmF2StateOpen = true := by
    unfold State.openF2
    dsimp only
    rw [State.isSet_setNat_ne _ _ _ (by decide), State.isSet_setF_self _ _ _ _ (by decide)]
    rfl
  have hdir : (s.openF2 tag 1 n).isSet R.sdmF2State F.sdmF2StateDir = true := by
    unfold State.openF2
    dsimp only
    rw [State.isSet_setNat_ne _ _ _ (by decide), State.isSet_setF_field _ _ _ _ _ (by decide) (by decide),
      State.isSet_setF_self _ _ _ _ (by decide)]
    rfl
  rw [State.f2Open, hopen, hdir]
  rfl

theorem State.f2Left_openF2 (dir : Nat) {n : Nat} (h : n < 2 ^ 32) : (s.openF2 tag dir n).f2Left = n := by
  have hreg : (s.openF2 tag dir n).reg R.sdmF2Left = BitVec.ofNat 32 n := State.reg_setNat_self _ _ _
  rw [State.f2Left, State.regNat, hreg, BitVec.toNat_ofNat, Nat.mod_eq_of_lt h]

theorem State.f2Tag_openF2 (dir n : Nat) (h : tag < 2 ^ 16) : (s.openF2 tag dir n).getF R.sdmF2State F.sdmF2StateTag = tag := by
  unfold State.openF2
  dsimp only
  rw [State.getF_setNat_ne _ _ _ (by decide), State.getF_setF_field _ _ _ _ _ (by decide) (by decide),
    State.getF_setF_field _ _ _ _ _ (by decide) (by decide), State.getF_setF_self _ _ _ _ (by decide)]
  exact Nat.mod_eq_of_lt h

end

section
variable {s : State} {c : MbCmd}

theorem State.mbAccept_of_none (h : s.sdm.long = none) (f : State → State) :
    s.mbAccept c f = f (s.acceptLong c.op c.tag c.params) := by
  rw [State.mbAccept, h]
  rfl

/-- SET_GRAFT with data to come opens its stream. -/
theorem State.mbRun_setGraft_of_free (hop : c.op = 7) (hlong : s.sdm.long = none) (hfree : s.f2Busy = false) (hpos : 0 < c.f2) :
    s.mbRun c = (s.acceptLong c.op c.tag c.params).openF2 c.tag 1 c.f2 := by
  have hbusy : ¬ (s.sdm.long.isNone && s.f2Busy) = true := by rw [hfree, Bool.and_false]; exact Bool.false_ne_true
  have hgraft : s.mbSetGraft c = (s.acceptLong c.op c.tag c.params).openF2 c.tag 1 c.f2 := by
    rw [State.mbSetGraft, if_neg hbusy, State.mbAccept_of_none hlong, if_neg hpos.ne']
  rw [← hgraft, State.mbRun, hop]
  rfl

/-- FLASH_WRITE to a range of whole pages within the flash opens its stream. -/
theorem State.mbRun_flashWrite_of_free (hop : c.op = 11) (hlong : s.sdm.long = none) (hfree : s.f2Busy = false) (hpos : 0 < c.f2)
    (hlane : s.laneStarted = false) (haddr : leAt c.params 0 4 % 4096 = 0)
    (hsize : leAt c.params 0 4 + c.f2 ≤ s.sys.flash.size) :
    s.mbRun c = (s.acceptLong c.op c.tag c.params).openF2 c.tag 1 c.f2 := by
  have hin : ¬ (leAt c.params 0 4 % 4096 ≠ 0 ∨ s.sys.flash.size < leAt c.params 0 4 + c.f2) := by omega
  have hwrite : s.mbFlashWrite c = (s.acceptLong c.op c.tag c.params).openF2 c.tag 1 c.f2 := by
    simp only [State.mbFlashWrite, if_neg hin, hlane, hfree, Bool.and_false, Bool.false_and, Bool.false_eq_true, if_false,
      State.mbAccept_of_none hlong, if_neg hpos.ne']
  rw [← hwrite, State.mbRun, hop]
  rfl

/-- What a command that takes data leaves: its reply, and a stream for `n` bytes. -/
theorem State.opens_of_accepted {u : State} (hu : s.MailOnly u replyRegs) (op tag : Nat) (htag : tag < 2 ^ 16) (params : Bytes)
    {n : Nat} (hn : n < 2 ^ 32) {t : State} (ht : t = (u.acceptLong op tag params).openF2 tag 1 n) :
    t.hasReply (replyBytes op tag 0 1 0 []) ∧ t.sdm.long = some ⟨op, tag, params, [], 0, 0⟩ ∧ t.f2Open true = true ∧
      t.f2Left = n ∧ t.getF R.sdmF2State F.sdmF2StateTag = tag ∧ t = { s with regs := t.regs, sdm := t.sdm } := by
  have hwrites := (u.acceptLong op tag params).writesOnly_openF2 tag 1 n
  have hsdm := hwrites.keeps State.sdm fun _ => rfl
  have hframe : s.MailOnly t (replyRegs ++ [R.sdmF2State, R.sdmF2Left]) := by
    rw [ht]
    exact ((hu.trans (u.mailOnly_acceptLong op tag params)).mono fun b hb => List.mem_append_left _ hb).trans
      (.of_writes (hwrites.mono fun b hb => List.mem_append_right _ hb))
  refine ⟨?_, ?_, ?_, ?_, ?_, hframe.units⟩
  · rw [ht]; exact State.hasReply_openF2 _ _ (State.hasReply_acceptLong _ _ _ _) _ _
  · rw [ht, hsdm, State.acceptLong_sdm]
  · rw [ht]; exact State.f2Open_openF2 _ _ _
  · rw [ht]; exact State.f2Left_openF2 _ _ _ hn
  · rw [ht]; exact State.f2Tag_openF2 _ _ _ _ htag

end

/-- Settles O19: the command is accepted, and then its stream opens. -/
theorem longCommandsTakeData : Obligations.LongCommandsTakeData := by
  intro s tag hopen
  obtain ⟨-, -, -, -, hlong, hf2, -⟩ := id hopen
  refine ⟨fun n hpos hn => ?graft, fun addr n haddr hn hpos hsize hlt hlane => ?flash⟩
  case graft =>
    have hl : lengthsOk ⟨7, tag.toNat, 0, [], n⟩ = true := by simp only [lengthsOk, hn, decide_true]; rfl
    have hrow := State.mbRow_of_open (tag := tag) (params := []) hopen (op := 7) (f2 := n) (by decide) (by decide)
      (Nat.lt_of_le_of_lt hn (by decide)) hl rfl
    rw [State.mbRun_setGraft_of_free (s := s.buffered 7 tag [] n) rfl hlong hf2 hpos] at hrow
    exact ⟨_, congrArg Host.Outcome.next hrow,
      State.opens_of_accepted (s.mailOnly_buffered 7 tag [] n) 7 tag.toNat tag.isLt [] (by omega) rfl⟩
  case flash =>
    have hl : lengthsOk ⟨11, tag.toNat, 4, leBytes 4 addr, n⟩ = true := by simp only [lengthsOk, hn]; rfl
    have hval : leAt (leBytes 4 addr) 0 4 = addr := leAt_leBytes (by omega)
    have hrow := State.mbRow_of_open (tag := tag) (params := leBytes 4 addr) hopen (op := 11) (f2 := n) (by decide)
      (by rw [length_leBytes]; omega) (show n < 2 ^ 32 by omega) hl rfl
    rw [State.mbRun_flashWrite_of_free (s := s.buffered 11 tag (leBytes 4 addr) n) rfl hlong hf2 hpos hlane
      (by rw [hval]; exact haddr) (by rw [hval]; exact hsize)] at hrow
    obtain ⟨hreply, hlong', hstream, hleft, -, hframe⟩ := State.opens_of_accepted
      (s.mailOnly_buffered 11 tag (leBytes 4 addr) n) 11 tag.toNat tag.isLt (leBytes 4 addr) (n := n) (by omega) rfl
    exact ⟨_, congrArg Host.Outcome.next hrow, hreply, hlong', hstream, hleft, hframe⟩

/-! ### Commands that start long work (R480, R481) -/

section
variable {s : State} {c : MbCmd}

theorem leAt_append_left (bits : Bytes) (ys : Bytes) : leAt (bits ++ ys) 0 bits.length = leNat bits := leAt_of_split [] bits ys

theorem leAt_append_right (bits : Bytes) (v : Byte) : leAt (bits ++ [v]) bits.length 1 = v.toNat := by
  have h := leAt_of_split bits [v] []
  rwa [List.append_nil] at h

theorem State.ctxState_acceptLong (s : State) (op tag : Nat) (params : Bytes) (x : Nat) :
    (s.acceptLong op tag params).ctxState x = s.ctxState x := by
  have hx : R.dspCxState x ∉ replyRegs := by
    simp only [replyRegs, R.dspCxState, R.sdmMbState, R.sdmMbCtrl, R.sdmHostStatus, R.sdmReplyEvt, List.mem_cons,
      List.not_mem_nil, or_false]
    omega
  exact State.getF_congr ((s.mailOnly_acceptLong op tag params).regs _ hx) _

theorem State.pstate_acceptLong (s : State) (op tag : Nat) (params : Bytes) :
    (s.acceptLong op tag params).pstate = s.pstate :=
  State.getF_congr ((s.mailOnly_acceptLong op tag params).regs _ (by decide)) _

theorem State.idBoot_acceptLong (s : State) (op tag : Nat) (params : Bytes) (f : Field) :
    (s.acceptLong op tag params).getF R.idBoot f = s.getF R.idBoot f :=
  State.getF_congr ((s.mailOnly_acceptLong op tag params).regs _ (by decide)) _

/-- START_LINE in ACTIVE with its conditions met starts its contexts. -/
theorem State.mbStartLine_of_met {xs : List Nat} (hxs : named (leAt c.params 0 8) = xs) (hne : xs ≠ [])
    (hlong : s.sdm.long = none) (hact : s.pstate = 0) (hsup : s.superseded = false) (hctx : ∀ x ∈ xs, s.ctxState x = 1)
    (hstop : s.isSet R.thmLevel F.thmLevelStopping = false) (hsave : ∀ x ∈ xs, s.saveAreaOk x = true)
    (hweights : s.weightsOk = true) (hcal : s.cal.complete = true) :
    s.mbStartLine c = (s.acceptLong c.op c.tag c.params).startLines xs := by
  have hframe := s.mailOnly_acceptLong c.op c.tag c.params
  have hany : xs.any (fun x => s.ctxState x != 1) = false := by
    rw [List.any_eq_false]
    intro x hx
    rw [hctx x hx]
    decide
  have hw : (s.acceptLong c.op c.tag c.params).weightsOk = true := (hframe.keeps State.weightsOk fun _ _ => rfl).trans hweights
  have hc : (s.acceptLong c.op c.tag c.params).cal.complete = true := (hframe.keeps (fun u => u.cal.complete) fun _ _ => rfl).trans hcal
  have hp : (s.acceptLong c.op c.tag c.params).pstate ≠ 1 := by rw [State.pstate_acceptLong, hact]; decide
  simp only [State.mbStartLine, hxs, hany, hsup, hstop, List.all_eq_true.2 hsave, State.mbAccept_of_none hlong,
    List.isEmpty_eq_false_iff.2 hne, hw, hc, if_neg hp, Bool.or_self, Bool.not_true, Bool.false_eq_true, if_false, if_true]

/-- STOP_LINE without flags drains its contexts. -/
theorem State.mbStopLine_of_plain {xs : List Nat} (hxs : named (leAt c.params 0 8) = xs) (hflags : leAt c.params 8 1 = 0)
    (hlong : s.sdm.long = none) (hctx : ∀ x ∈ xs, s.ctxState x = 2) :
    s.mbStopLine c = (xs.foldl (fun u x => (u.setF (R.dspCxState x) F.dspCxStateState 3).drained x)
      (s.acceptLong c.op c.tag c.params)).advanceStop := by
  have hany : xs.any (fun x => s.ctxState x != 2) = false := by
    rw [List.any_eq_false]
    intro x hx
    rw [hctx x hx]
    decide
  have hrun : xs.filter (fun x => (s.acceptLong c.op c.tag c.params).ctxState x == 2) = xs := by
    rw [List.filter_eq_self]
    intro x hx
    rw [State.ctxState_acceptLong, hctx x hx]
    rfl
  have hbit (i : Nat) : bit 0 i = false := by simp [bit]
  simp only [State.mbStopLine, hxs, hflags, hbit, Bool.false_and, Bool.or_self, Bool.not_false, Bool.and_true, hany,
    Bool.false_eq_true, if_false, State.mbAccept_of_none hlong, hrun]

theorem State.mbFenceCore_of_active (hlong : s.sdm.long = none) (hact : s.pstate = 0) :
    s.mbFenceCore c = (s.acceptLong c.op c.tag c.params).rung3 (leAt c.params 0 1) 2 := by
  rw [State.mbFenceCore, if_neg (not_not.2 hact), State.mbAccept_of_none hlong]

/-- The loader reads the flash and the manifest alone. -/
theorem State.loadCode_acceptLong (s : State) (op tag : Nat) (params : Bytes) (k : Nat) :
    (s.acceptLong op tag params).loadCode k = s.loadCode k :=
  (s.mailOnly_acceptLong op tag params).keeps (fun u => u.loadCode k) fun _ _ => rfl

theorem State.readPkg_acceptLong (s : State) (op tag : Nat) (params : Bytes) (k : Nat) :
    (s.acceptLong op tag params).readPkg k = s.readPkg k :=
  (s.mailOnly_acceptLong op tag params).keeps (fun u => u.readPkg k) fun _ _ => rfl

/-- Loading contexts writes their state registers alone. -/
theorem State.idBoot_loadCtxs (s : State) (k : Nat) (f : Field) : (s.loadCtxs k).getF R.idBoot f = s.getF R.idBoot f := by
  have hx (x : Nat) : R.idBoot ≠ R.dspCxState x := by simp only [R.idBoot, R.dspCxState]; omega
  refine State.foldl_induction (P := fun u => u.getF R.idBoot f = s.getF R.idBoot f) rfl fun u hu x _ => ?_
  dsimp only
  split
  · split
    · exact (State.getF_setF_ne u _ _ _ (hx x)).trans hu
    · exact (State.getF_setF_ne u _ _ _ (hx x)).trans hu
  · exact (State.getF_setF_ne u _ _ _ (hx x)).trans hu

/-- Taking a package leaves the boot's stage as it is. -/
theorem State.bootStage_takePackage (s : State) (k : Nat) :
    (s.takePackage k).getF R.idBoot F.idBootStage = s.getF R.idBoot F.idBootStage := by
  have hpkg (u : State) : (u.setF R.idBoot F.idBootPkg k).getF R.idBoot F.idBootStage = u.getF R.idBoot F.idBootStage :=
    State.getF_setF_field u _ _ _ _ (by decide) (by decide)
  rw [State.takePackage, State.idBoot_loadCtxs]
  split
  · exact hpkg _
  · refine State.foldl_induction (P := fun u => u.getF R.idBoot F.idBootStage = s.getF R.idBoot F.idBootStage) (hpkg _) ?_
    intro u hu e _
    split
    · exact hu
    · exact hu

/-- LOAD_PACKAGE with no context started takes the package, or ends with the loader's code. -/
theorem State.mbLoadPackage_of_idle {k : Nat} (hk : leAt c.params 0 1 = k) (hlong : s.sdm.long = none)
    (hsup : s.superseded = false) (hidle : ∀ x, x < 64 → busyCtx (s.ctxState x) = false) :
    s.mbLoadPackage c =
      let u := s.acceptLong c.op c.tag c.params
      if s.loadCode k ≠ 0 then u.longErr (s.loadCode k)
      else if s.getF R.idBoot F.idBootStage = 9 then (u.takePackage k).setStage 6 else u.takePackage k := by
  have hany : (List.range 64).any (fun x => busyCtx (s.ctxState x)) = false := by
    rw [List.any_eq_false]
    intro x hx
    rw [hidle x (List.mem_range.1 hx)]
    exact Bool.false_ne_true
  simp only [State.mbLoadPackage, hk, hany, hsup, Bool.false_eq_true, if_false, State.mbAccept_of_none hlong,
    State.loadCode_acceptLong, State.bootStage_takePackage, State.idBoot_acceptLong]

/-- PROGRAM_MODEL with every lane stopped wants its model, or ends with the loader's code. -/
theorem State.mbProgramModel_of_stopped {k : Nat} (hk : leAt c.params 0 1 = k) (hlong : s.sdm.long = none)
    (hact : s.pstate = 0) (hlane : s.laneStarted = false) :
    s.mbProgramModel c =
      let u := s.acceptLong c.op c.tag c.params
      if s.loadCode k ≠ 0 then u.longErr (s.loadCode k)
      else ({ u with dsp := { u.dsp with pkgs := u.dsp.pkgs.put k (s.readPkg k) } } : State).wantModel k := by
  simp only [State.mbProgramModel, hk, hlane, hact, bne_self_eq_false, Bool.or_self, Bool.false_eq_true, if_false,
    State.mbAccept_of_none hlong, State.loadCode_acceptLong, State.readPkg_acceptLong]

end

/-- Settles O18: a long command that an open device admits is accepted, and goes on from the state of its acceptance. -/
theorem longCommandsStart : Obligations.LongCommandsStart := by
  intro s tag hopen
  obtain ⟨-, hact, -, -, hlong, -, hsup⟩ := id hopen
  refine ⟨fun bits hlen hne hctx hstop hsave hweights hcal => ?start, fun bits hlen hctx => ?stop, fun c => ?fence,
    fun k hidle => ?load, fun k hlane => ?program⟩
  case start =>
    have hl : lengthsOk ⟨8, tag.toNat, bits.length, bits, 0⟩ = true := by simp only [lengthsOk, hlen]; rfl
    have hrow := State.mbRow_of_open (tag := tag) hopen (op := 8) (f2 := 0) (by decide) (by omega) (by decide) hl rfl
    have hrun := State.mbStartLine_of_met (s := s.buffered 8 tag bits 0) (c := ⟨8, tag.toNat, bits.length, bits, 0⟩) rfl hne hlong hact
      hsup hctx hstop hsave hweights hcal
    exact congrArg Host.Outcome.next (hrow.trans hrun)
  case stop =>
    have hflags : leAt (bits ++ [0]) 8 1 = 0 := by
      have hright := leAt_append_right bits 0
      rw [hlen] at hright
      exact hright
    have hbits : leAt (bits ++ [0]) 0 8 = leAt bits 0 8 := by
      have hleft := leAt_append_left bits [0]
      have hall := leAt_append_left bits []
      rw [List.append_nil] at hall
      rw [hlen] at hleft hall
      exact hleft.trans hall.symm
    have hl : lengthsOk ⟨9, tag.toNat, (bits ++ [0]).length, bits ++ [0], 0⟩ = true := by
      simp only [lengthsOk, List.length_append, hlen]; rfl
    have hv : valuesOk ⟨9, tag.toNat, (bits ++ [0]).length, bits ++ [0], 0⟩ = true := by simp only [valuesOk, hflags]; rfl
    have hrow := State.mbRow_of_open (tag := tag) (params := bits ++ [0]) hopen (op := 9) (f2 := 0) (by decide)
      (by rw [List.length_append, hlen]; decide) (by decide) hl hv
    have hrun := State.mbStopLine_of_plain (s := s.buffered 9 tag (bits ++ [0]) 0)
      (c := ⟨9, tag.toNat, (bits ++ [0]).length, bits ++ [0], 0⟩) (congrArg named hbits) hflags hlong hctx
    exact congrArg Host.Outcome.next (hrow.trans hrun)
  case fence =>
    have hval : leAt [BitVec.ofNat 8 c.val] 0 1 = c.val := leAt_singleton (by omega)
    have hv : valuesOk ⟨10, tag.toNat, 1, [BitVec.ofNat 8 c.val], 0⟩ = true := by
      simp only [valuesOk, hval, decide_eq_true_eq]; omega
    have hrow := State.mbRow_of_open (tag := tag) (params := [BitVec.ofNat 8 c.val]) hopen (op := 10) (f2 := 0) (by decide)
      (Nat.le_of_ble_eq_true rfl) (by decide) rfl hv
    have hrun := State.mbFenceCore_of_active (s := s.buffered 10 tag [BitVec.ofNat 8 c.val] 0)
      (c := ⟨10, tag.toNat, 1, [BitVec.ofNat 8 c.val], 0⟩) hlong hact
    rw [hval] at hrun
    exact congrArg Host.Outcome.next (hrow.trans hrun)
  case load =>
    have hval : leAt [BitVec.ofNat 8 k.val] 0 1 = k.val := leAt_singleton (by omega)
    have hv : valuesOk ⟨5, tag.toNat, 1, [BitVec.ofNat 8 k.val], 0⟩ = true := by
      simp only [valuesOk, hval, decide_eq_true_eq]; omega
    have hrow := State.mbRow_of_open (tag := tag) (params := [BitVec.ofNat 8 k.val]) hopen (op := 5) (f2 := 0) (by decide)
      (Nat.le_of_ble_eq_true rfl) (by decide) rfl hv
    have hrun := State.mbLoadPackage_of_idle (s := s.buffered 5 tag [BitVec.ofNat 8 k.val] 0)
      (c := ⟨5, tag.toNat, 1, [BitVec.ofNat 8 k.val], 0⟩) hval hlong hsup hidle
    exact congrArg Host.Outcome.next (hrow.trans hrun)
  case program =>
    have hval : leAt [BitVec.ofNat 8 k.val] 0 1 = k.val := leAt_singleton (by omega)
    have hv : valuesOk ⟨6, tag.toNat, 1, [BitVec.ofNat 8 k.val], 0⟩ = true := by
      simp only [valuesOk, hval, decide_eq_true_eq]; omega
    have hrow := State.mbRow_of_open (tag := tag) (params := [BitVec.ofNat 8 k.val]) hopen (op := 6) (f2 := 0) (by decide)
      (Nat.le_of_ble_eq_true rfl) (by decide) rfl hv
    have hrun := State.mbProgramModel_of_stopped (s := s.buffered 6 tag [BitVec.ofNat 8 k.val] 0)
      (c := ⟨6, tag.toNat, 1, [BitVec.ofNat 8 k.val], 0⟩) hval hlong hact hlane
    exact congrArg Host.Outcome.next (hrow.trans hrun)

/-! ### Replies taken (R480) -/

section
variable {s : State}

/-- The buffer is free once its reply is taken. -/
theorem State.replyDone_of_none (hstate : s.mbState = 2) (hreboot : s.sdm.rebootAt = none) (hfinal : s.sdm.final = none) :
    s.replyDone = s.setF R.sdmMbState F.sdmMbStateState 0 := by
  simp only [State.replyDone, hstate, ne_eq, not_true, if_false, State.setF_sdm, hfinal, hreboot, Option.isSome_none,
    Bool.false_eq_true]

/-- A final reply that waits takes the place of the one that is taken. -/
theorem State.replyDone_of_some (hstate : s.mbState = 2) (hreboot : s.sdm.rebootAt = none) {bs : Bytes}
    (hfinal : s.sdm.final = some bs) :
    s.replyDone = ({ s.setF R.sdmMbState F.sdmMbStateState 0 with sdm := { s.sdm with final := none } } : State).placeReply bs := by
  simp only [State.replyDone, hstate, ne_eq, not_true, if_false, State.setF_sdm, hfinal, State.placeReply_sdm, hreboot,
    Option.isSome_none, Bool.false_eq_true]

/-- Only STOP_LINE goes on by itself. -/
theorem State.advanceStop_of_other {l : LongCmd} (hlong : s.sdm.long = some l) (hop : l.op ≠ 9) : s.advanceStop = s := by
  simp only [State.advanceStop, hlong]
  exact if_pos (.inl hop)

/-- The mailbox of a device whose long command has ended, before its reply is placed. -/
def State.longEnded (s : State) : State :=
  ({ s with sdm := { s.sdm with long := none } } : State).setF R.sdmMbState F.sdmMbStateLongBusy 0

theorem State.mbState_longEnded : s.longEnded.mbState = s.mbState := State.getF_setF_field _ _ _ _ _ (by decide) (by decide)

theorem State.longBusy_longEnded : s.longEnded.isSet R.sdmMbState F.sdmMbStateLongBusy = false := by
  rw [State.longEnded, State.isSet_setF_self _ _ _ _ (by decide)]
  rfl

theorem State.longBusy_placeReply (u : State) (bs : Bytes) :
    (u.placeReply bs).isSet R.sdmMbState F.sdmMbStateLongBusy = u.isSet R.sdmMbState F.sdmMbStateLongBusy := by
  rw [State.placeReply, State.isSet_raise_ne _ _ _ _ _ (by decide) (by decide), State.isSet_setF_ne _ _ _ _ (by decide),
    State.isSet_setF_field _ _ _ _ _ (by decide) (by decide)]
  rfl

theorem State.finalReply_of_done {l : LongCmd} (hlong : s.sdm.long = some l) (hop : l.op ≠ 9) (hdone : s.longDone l = true) :
    s.finalReply = s.longEnded.lateReply (replyBytes l.op l.tag l.err 0 0 []) := by
  simp only [State.finalReply, State.advanceStop_of_other hlong hop, hlong, hdone, if_true, State.finalLong]
  rfl

/-- A late reply waits while another is in the buffer, and is placed otherwise. -/
theorem State.lateReply_cases (u : State) (bs : Bytes) :
    (u.mbState = 2 ∧ u.lateReply bs = { u with sdm := { u.sdm with final := some bs } }) ∨
    (u.mbState ≠ 2 ∧ u.lateReply bs = u.placeReply bs) := by
  by_cases h : u.mbState = 2
  · exact .inl ⟨h, if_pos h⟩
  · exact .inr ⟨h, if_neg h⟩

end

/-- Settles O22: the buffer is freed and filled by what waits, or a final reply waits for it. -/
theorem repliesTaken : Obligations.RepliesTaken := by
  intro s
  refine ⟨fun hready hstate hreboot => ⟨fun hfinal => ?freed, fun bs hfinal => ?waiting⟩, fun l hlong hop hdone => ?ended⟩
  case freed =>
    have hwrites := (State.WritesOnly.refl s _).setF (List.mem_singleton_self R.sdmMbState) F.sdmMbStateState 0
    refine ⟨_, congrArg Host.Outcome.next ((if_pos hready).trans (State.replyDone_of_none hstate hreboot hfinal)), ?_,
      hwrites.regs, hwrites.only⟩
    exact State.getF_setF_self _ _ _ _ (by decide)
  case waiting =>
    have hwrites := (State.WritesOnly.refl s _).setF (show R.sdmMbState ∈ replyRegs by simp [replyRegs]) F.sdmMbStateState 0
    refine ⟨_, congrArg Host.Outcome.next ((if_pos hready).trans (State.replyDone_of_some hstate hreboot hfinal)),
      State.hasReply_placeReply _ _, by rw [State.placeReply_sdm], ?_⟩
    exact hwrites.regs.trans ((State.MailOnly.hidden _ _ _).trans (State.mailOnly_placeReply _ _)).regs
  case ended =>
    have hexec : exec .finalReply s = .next (s.longEnded.lateReply (replyBytes l.op l.tag l.err 0 0 [])) :=
      congrArg Host.Outcome.next (State.finalReply_of_done hlong hop hdone)
    have hsdm : s.longEnded.sdm = { s.sdm with long := none } := State.setF_sdm _ _ _ _
    rcases s.longEnded.lateReply_cases (replyBytes l.op l.tag l.err 0 0 []) with ⟨hstate, hlate⟩ | ⟨hstate, hlate⟩
    · rw [hlate] at hexec
      refine ⟨_, hexec, by rw [hsdm], State.longBusy_longEnded, ?_⟩
      rw [State.mbState_longEnded] at hstate
      rw [if_pos hstate]
      exact ⟨rfl, State.mbState_longEnded.trans hstate⟩
    · rw [hlate] at hexec
      refine ⟨_, hexec, by rw [State.placeReply_sdm, hsdm], (State.longBusy_placeReply _ _).trans State.longBusy_longEnded, ?_⟩
      rw [State.mbState_longEnded] at hstate
      rw [if_neg hstate]
      exact State.hasReply_placeReply _ _

end Sys2Proof.Machine
end


section
/-! PROOF. The line clock's inputs (R297, R299, R302): what a count leaves of the other encoder and of the registers, the index
and the mains, and O24. -/

namespace Sys2Proof.Machine

/-! ### The other encoder -/

theorem State.enc_setEnc_other (s : State) {e : Nat} (he : e < 2) (x : Enc) : (s.setEnc e x).enc (1 - e) = s.enc (1 - e) := by
  obtain rfl | rfl : e = 0 ∨ e = 1 := by omega
  · rfl
  · rfl

section
variable {s : State} {e : Nat} {a b : Bool}

theorem State.enc_countFwd_other (he : e < 2) : (s.countFwd e).enc (1 - e) = s.enc (1 - e) := State.enc_setEnc_other s he _

theorem State.enc_countRev_other (he : e < 2) : (s.countRev e).enc (1 - e) = s.enc (1 - e) := by
  rw [State.countRev_eq]
  dsimp only
  split
  · rw [State.enc_congr (State.raise_lck _ _ _ _), State.enc_setEnc_other s he]
  · exact State.enc_setEnc_other s he _

/-- A pair of levels is an error, no count, a forward count or a reverse one. -/
theorem State.encoderCount_cases {P : State → Prop} (herr : (s.enc e).turn a b = 2 → P ((s.acceptLevels e a b).encError e))
    (hstill : (s.enc e).turn a b ≠ 2 → ¬ s.Counts e a b → P (s.acceptLevels e a b))
    (hfwd : s.CountsForward e a b → P ((s.acceptLevels e a b).countFwd e))
    (hrev : s.Counts e a b → ¬ s.CountsForward e a b → P ((s.acceptLevels e a b).countRev e)) : P (s.encoderCount e a b) := by
  by_cases hcount : s.Counts e a b
  · by_cases hdir : s.CountsForward e a b
    · rw [State.encoderCount_of_forward hdir]; exact hfwd hdir
    · rw [State.encoderCount_of_reverse hcount hdir]; exact hrev hcount hdir
  · rw [State.encoderCount_eq]
    split
    case isTrue hturn => exact herr hturn
    case isFalse hturn =>
      have hstop : (s.enc e).turn a b = 0 ∨ ¬ s.encEn e := by
        by_contra hmoves
        obtain ⟨hturned, hen⟩ := not_or.1 hmoves
        have hlt := (s.enc e).turn_lt a b
        exact hcount ⟨not_not.1 hen, by omega⟩
      rw [if_pos hstop]
      exact hstill hturn hcount

/-- The levels are accepted in every case. -/
theorem State.levels_encoderCount : ((s.encoderCount e a b).enc e).a = a ∧ ((s.encoderCount e a b).enc e).b = b := by
  refine State.encoderCount_cases (P := fun u => (u.enc e).a = a ∧ (u.enc e).b = b) (fun _ => ?_) (fun _ _ => ?_) (fun _ => ?_)
    (fun _ _ => ?_)
  · rw [State.enc_congr (State.encError_lck _ e), State.enc_acceptLevels]; exact ⟨rfl, rfl⟩
  · rw [State.enc_acceptLevels]; exact ⟨rfl, rfl⟩
  · rw [State.enc_countFwd, State.enc_acceptLevels]; exact ⟨rfl, rfl⟩
  · rw [State.enc_countRev, State.enc_acceptLevels]; exact ⟨rfl, rfl⟩

theorem State.enc_encoderCount_other (he : e < 2) : (s.encoderCount e a b).enc (1 - e) = s.enc (1 - e) := by
  have haccept : (s.acceptLevels e a b).enc (1 - e) = s.enc (1 - e) := State.enc_setEnc_other s he _
  refine State.encoderCount_cases (P := fun u => u.enc (1 - e) = s.enc (1 - e)) (fun _ => ?_) (fun _ _ => haccept) (fun _ => ?_)
    (fun _ _ => ?_)
  · exact (State.enc_congr (State.encError_lck _ e) _).trans haccept
  · exact (State.enc_countFwd_other he).trans haccept
  · exact (State.enc_countRev_other he).trans haccept

theorem State.pos_encoderCount : ((s.encoderCount e a b).enc e).pos =
    if (s.enc e).turn a b = 2 ∨ (s.enc e).turn a b = 0 ∨ s.encEn e = false then (s.enc e).pos
    else if ((s.enc e).turn a b == 1) != s.encDir e then (s.enc e).pos + 1 else (s.enc e).pos - 1 := by
  have hcounts : s.Counts e a b ↔ ¬ ((s.enc e).turn a b = 2 ∨ (s.enc e).turn a b = 0 ∨ s.encEn e = false) := by
    have hlt := (s.enc e).turn_lt a b
    rw [State.Counts, ← Bool.not_eq_true]
    refine ⟨fun ⟨hen, hturn⟩ hstill => ?_, fun hmoves => ?_⟩
    · rcases hstill with h | h | h
      · omega
      · omega
      · exact h hen
    · obtain ⟨h2, h0, hen⟩ := (not_or.1 hmoves).imp_right not_or.1
      exact ⟨not_not.1 hen, by omega⟩
  by_cases hcount : s.Counts e a b
  · rw [if_neg (hcounts.1 hcount)]
    by_cases hdir : s.CountsForward e a b
    · rw [State.enc_encoderCount_of_forward hdir, if_pos hdir.2]; rfl
    · rw [State.enc_encoderCount_of_reverse hcount hdir, if_neg fun h => hdir ⟨hcount, h⟩]; rfl
  · rw [State.enc_encoderCount_of_not_counts hcount, if_pos (not_not.1 fun h => hcount (hcounts.2 h))]

/-- Both levels changed: the encoder's error bit is set. -/
theorem State.encErr_encoderCount (h : (s.enc e).turn a b = 2) : (s.encoderCount e a b).isSet R.lckStatus
    (if e = 0 then F.lckStatusEnc0Err else F.lckStatusEnc1Err) = true := by
  rw [State.encoderCount_eq, if_pos h, State.encError, State.isSet_report _ _ _ _ _ _ (by decide)]
  split
  · exact State.isSet_raise_self _ _ _ _ (by decide) (by decide) (by decide)
  · exact State.isSet_raise_self _ _ _ _ (by decide) (by decide) (by decide)

/-- Without an error a pair of levels writes at most the reverse bit and its counter. -/
theorem State.regsBut_encoderCount (h : (s.enc e).turn a b ≠ 2) :
    s.regsBut (s.encoderCount e a b) [R.lckStatus, R.lckRevEvt] := by
  have haccept : s.regsBut (s.acceptLevels e a b) [R.lckStatus, R.lckRevEvt] := fun r _ => State.reg_setEnc s e _ r
  refine State.encoderCount_cases (P := fun u => s.regsBut u _) (fun herr => absurd herr h) (fun _ _ => haccept) (fun _ => ?_)
    (fun _ _ => ?_)
  · exact haccept.trans fun r _ => State.reg_setEnc _ e _ r
  · refine haccept.trans ?_
    rw [State.countRev_eq]
    dsimp only
    have hset : ∀ x, (s.acceptLevels e a b).regsBut ((s.acceptLevels e a b).setEnc e x) [R.lckStatus, R.lckRevEvt] :=
      fun x r _ => State.reg_setEnc _ e x r
    exact ((hset _).raise (by simp) (by simp) _).ite (hset _)

end

/-! ### The mains (R302) -/

section
variable {s : State} {period : Nat}

/-- The period of a mains edge is in LCK_MAINS, and valid. -/
def State.mainsMarked (s : State) (period : Nat) : State :=
  (s.setF R.lckMains F.lckMainsPeriod period).setF R.lckMains F.lckMainsValid 1

theorem State.lineOnly_mainsMarked : s.LineOnly (s.mainsMarked period) [R.lckMains] :=
  ((State.LineOnly.refl s _).setF (List.mem_singleton_self _) _ _).setF (List.mem_singleton_self _) _ _

/-- A mains edge writes LCK_MAINS and the time of the edge. -/
def State.mainsSeen (s : State) (period : Nat) : State :=
  { s.mainsMarked period with
    lck := { (s.mainsMarked period).lck with mainsAt := (s.mainsMarked period).timeUs, mainsLost := false } }

theorem State.lineOnly_mainsSeen : s.LineOnly (s.mainsSeen period) [R.lckMains] := State.lineOnly_mainsMarked.lck _

theorem State.getF_mainsSeen (a : Nat) (f : Field) : (s.mainsSeen period).getF a f = (s.mainsMarked period).getF a f :=
  State.getF_congr (((State.LineOnly.refl (s.mainsMarked period) []).lck _).regs a List.not_mem_nil) f

theorem State.mainsEdge_of_no_strobe (h : s.isSet R.lckCfg F.lckCfgStrobeMains = false) : s.mainsEdge period = s.mainsSeen period := by
  have hcfg : ¬ (s.mainsSeen period).isSet R.lckCfg F.lckCfgStrobeMains = true := by
    rw [State.isSet, State.getF_congr (State.lineOnly_mainsSeen.regs _ (by decide)), ← State.isSet, h]
    exact Bool.false_ne_true
  exact if_neg hcfg

theorem State.mainsGone_of_due (hlost : s.lck.mainsLost = false) (hdue : s.lck.mainsAt + 100000 ≤ s.timeUs) : s.mainsGone =
    ((({ s with lck := { s.lck with mainsLost := true } } : State).setF R.lckMains F.lckMainsValid 0).raise R.lckStatus
      F.lckStatusMainsLost R.lckMainsEvt).report Src.device E.lckMainsLost Rep.lineClock := if_pos ⟨hlost, hdue⟩

end

/-- Settles O24: a pair of levels is an error, no count, a forward count or a reverse one; an index edge and a mains edge write
their register; lost mains raise their bit. -/
theorem encoderInputs : Obligations.EncoderInputs := by
  intro s e period
  refine ⟨fun a b => ?count, ?index, fun hstrobe hperiod => ?edge, fun hlost hdue => ?lost⟩
  case count =>
    obtain ⟨ha, hb⟩ := State.levels_encoderCount (s := s) (e := e) (a := a) (b := b)
    exact ⟨s.encoderCount e a b, rfl, ha, hb, State.enc_encoderCount_other e.isLt, State.pos_encoderCount,
      State.encErr_encoderCount, State.regsBut_encoderCount⟩
  case index =>
    have hwrites := (State.WritesOnly.refl s _).setNat (List.mem_singleton_self (if e.val = 0 then R.lckIdx0 else R.lckIdx1))
      ((s.enc e).pos.toNat % 2 ^ 32)
    refine ⟨s.indexEdge e, rfl, hwrites.only, ?_, hwrites.regs⟩
    rw [State.regNat, State.indexEdge, State.reg_setNat_self, BitVec.toNat_ofNat, Nat.mod_mod]
  case edge =>
    refine ⟨s.mainsEdge period, rfl, ?_⟩
    rw [State.mainsEdge_of_no_strobe hstrobe]
    refine ⟨?_, ?_, State.lineOnly_mainsSeen.regs, ?_, State.lineOnly_mainsSeen.units⟩
    · rw [State.getF_mainsSeen, State.mainsMarked, State.getF_setF_field _ _ _ _ _ (by decide) (by decide),
        State.getF_setF_self _ _ _ _ (by decide)]
      exact Nat.mod_eq_of_lt hperiod
    · rw [State.isSet, State.getF_mainsSeen, State.mainsMarked, State.getF_setF_self _ _ _ _ (by decide)]
      rfl
    · rw [State.mainsSeen, State.mainsMarked, State.setF_timeUs, State.setF_timeUs]
  case lost =>
    refine ⟨s.mainsGone, rfl, ?_⟩
    rw [State.mainsGone_of_due hlost hdue]
    refine ⟨?_, ?_, ?_, ?_⟩
    · rw [State.isSet_report _ _ _ _ _ _ (by decide), State.isSet_raise_ne _ _ _ _ _ (by decide) (by decide),
        State.isSet_setF_self _ _ _ _ (by decide)]
      rfl
    · rw [State.isSet_report _ _ _ _ _ _ (by decide)]
      exact State.isSet_raise_self _ _ _ _ (by decide) (by decide) (by decide)
    · rw [State.report_lck, State.raise_lck, State.setF_lck]
    · rw [State.getF_report _ _ _ _ _ _ (by decide), State.getF_raise_ne _ _ _ _ _ (by decide) (by decide),
        State.getF_setF_field _ _ _ _ _ (by decide) (by decide)]
      rfl

end Sys2Proof.Machine
end


section
/-! PROOF. The line clock's slots and outputs (R304 to R319): what writing, freeing and taking a slot leaves, the pins, waiting
FIRE frames, SYNC, and O26, O27 and O28. -/

namespace Sys2Proof.Machine

/-! ### Slots -/

theorem Tab.mem_of_get? {α : Type} {k : Nat} {v : α} : ∀ {t : Tab α}, t.get? k = some v → (k, v) ∈ t
  | [], h => nomatch h
  | (j, w) :: t, h => by
    by_cases hk : k = j
    · rw [Tab.get?, if_pos hk] at h
      cases h
      exact hk ▸ List.mem_cons_self
    · rw [Tab.get?, if_neg hk] at h
      exact List.mem_cons_of_mem _ (Tab.mem_of_get? h)

section
variable (s : State) (i : Nat) (x : Slot)

@[simp] theorem State.slot_setSlot_self : (s.setSlot i x).slot i = some x := Tab.get?_put_self _ _ _

theorem State.slot_setSlot_ne {i j : Nat} (h : j ≠ i) : (s.setSlot i x).slot j = s.slot j := Tab.get?_put_ne _ _ h

theorem State.slot_congr {s u : State} (h : u.lck = s.lck) (i : Nat) : u.slot i = s.slot i := by simp only [State.slot, h]

theorem State.lineOnly_setSlot (l : List Nat) : s.LineOnly (s.setSlot i x) l := (State.LineOnly.refl s l).lck _

theorem State.writesOnly_syncSlots : s.WritesOnly s.syncSlots [R.lckSlots] :=
  ((State.WritesOnly.refl s _).setF (List.mem_singleton_self _) _ _).setF (List.mem_singleton_self _) _ _

@[simp] theorem State.syncSlots_lck : s.syncSlots.lck = s.lck := s.writesOnly_syncSlots.keeps State.lck fun _ => rfl

@[simp] theorem State.syncSlots_wire : s.syncSlots.wire = s.wire := s.writesOnly_syncSlots.keeps State.wire fun _ => rfl

@[simp] theorem State.slot_syncSlots : s.syncSlots.slot i = s.slot i := State.slot_congr s.syncSlots_lck i

@[simp] theorem State.slot_freeSlot_self : (s.freeSlot i).slot i = none := by
  rw [State.freeSlot, State.slot_syncSlots]
  exact Tab.get?_del_self _ _

@[simp] theorem State.freeSlot_wire : (s.freeSlot i).wire = s.wire := State.syncSlots_wire _

theorem State.regsBut_freeSlot : s.regsBut (s.freeSlot i) [R.lckSlots] :=
  ((State.LineOnly.refl s _).lck _).regs.trans (State.writesOnly_syncSlots _).regs

end

/-! ### The pins (R318) -/

/-- The pins stay, or take new levels that leave the chip. -/
theorem State.refreshGpio_cases (s : State) :
    s.refreshGpio = s ∨ ∃ lv, s.refreshGpio = (s.setF R.actGpioState F.actGpioStateLevel lv).emit (.gpio lv) := by
  by_cases h : (if s.inSafe then s.getF R.actGpioState F.actGpioStateSafe
      else Nat.xor s.gpioAsserted (s.getF R.actGpioMaxw F.actGpioMaxwPol)) = s.getF R.actGpioState F.actGpioStateLevel
  · exact .inl (if_pos h)
  · exact .inr ⟨_, if_neg h⟩

section
variable (s : State)

@[simp] theorem State.refreshGpio_lck : s.refreshGpio.lck = s.lck := by
  rcases s.refreshGpio_cases with h | ⟨lv, h⟩
  · rw [h]
  · rw [h]
    exact State.setF_lck s R.actGpioState F.actGpioStateLevel lv

theorem State.refreshGpio_wire : ∃ w, s.refreshGpio.wire = w ++ s.wire := by
  rcases s.refreshGpio_cases with h | ⟨lv, h⟩
  · exact ⟨[], by rw [h]; rfl⟩
  · refine ⟨[.gpio lv], ?_⟩
    rw [h]
    exact congrArg _ (State.setF_wire s R.actGpioState F.actGpioStateLevel lv)

theorem State.regsBut_refreshGpio : s.regsBut s.refreshGpio [R.actGpioState] := by
  rcases s.refreshGpio_cases with h | ⟨lv, h⟩
  · rw [h]; exact .refl s _
  · rw [h]
    exact ((State.regsBut.refl s _).setF (List.mem_singleton_self _) F.actGpioStateLevel lv).hidden rfl rfl

@[simp] theorem State.slot_refreshGpio (i : Nat) : s.refreshGpio.slot i = s.slot i := State.slot_congr s.refreshGpio_lck i

end

/-! ### Cut-offs (R307, R312) -/

section
variable {s : State} {i e : Nat} {o : ObjSlot} {outs : List LocalOut}

theorem State.registerCutoff_of_due (h : s.slot i = some ⟨e, some o, outs⟩) (hdue : o.cutDue = true) (hreg : o.cutReg = false) :
    s.registerCutoff i =
      let o' := { o with cutReg := true, cutDue := false }
      let u := s.setSlot i ⟨e, some o', outs⟩
      if o.st = .closed then u.defaultSlot i o' (if o.marked then .fault else .late) o.pTrail else u := by
  simp only [State.registerCutoff, h, hdue, hreg, Bool.not_false, Bool.and_self, if_true]

/-- In the safe state a default frees its slot without output (R31). -/
theorem State.defaultSlot_of_inSafe (h : s.inSafe = true) (c : WfCause) (pTrail : Pos) :
    s.defaultSlot i o c pTrail = s.freeSlot i := if_pos h

end

/-- Settles O26: the crossing is registered in the slot, which then takes the default if it is CLOSED. -/
theorem cutoffRegisters : Obligations.CutoffRegisters := by
  intro s i e o outs hslot hdue hreg
  have hrow := State.registerCutoff_of_due hslot hdue hreg
  refine ⟨fun hclosed => congrArg Host.Outcome.next (hrow.trans (if_pos hclosed)),
    fun hopen => congrArg Host.Outcome.next (hrow.trans (if_neg hopen)), fun hclosed hsafe => ⟨s.registerCutoff i, rfl, ?_⟩⟩
  have hsafe' : (s.setSlot i ⟨e, some { o with cutReg := true, cutDue := false }, outs⟩).inSafe = true := hsafe
  rw [hrow]
  dsimp only
  rw [if_pos hclosed, State.defaultSlot_of_inSafe hsafe', State.slot_freeSlot_self]

/-! ### The outputs of an event slot (R317, R318) -/

section
variable {s : State} {i e : Nat} {os : List LocalOut}

/-- An event slot with no output left is freed, once the pins are updated. -/
theorem State.putOuts_nil (h : s.slot i = some ⟨e, none, os⟩) :
    s.putOuts i [] = (s.setSlot i ⟨e, none, []⟩).refreshGpio.freeSlot i := by
  rw [State.putOuts, h]
  dsimp only
  rw [State.freeIfDone, State.slot_refreshGpio, State.slot_setSlot_self]
  rfl

theorem State.slot_putOuts_nil (h : s.slot i = some ⟨e, none, os⟩) : (s.putOuts i []).slot i = none := by
  rw [State.putOuts_nil h, State.slot_freeSlot_self]

theorem State.putOuts_nil_wire (h : s.slot i = some ⟨e, none, os⟩) : ∃ w, (s.putOuts i []).wire = w ++ s.wire := by
  rw [State.putOuts_nil h, State.freeSlot_wire]
  exact State.refreshGpio_wire _

theorem State.regsBut_putOuts_nil (h : s.slot i = some ⟨e, none, os⟩) :
    s.regsBut (s.putOuts i []) [R.actGpioState, R.lckSlots] := by
  rw [State.putOuts_nil h]
  exact ((s.lineOnly_setSlot i _ _).regs.trans ((State.regsBut_refreshGpio _).mono (by simp))).trans
    ((State.regsBut_freeSlot _ i).mono (by simp))

/-- An interrupt that is due leaves on the wire, and no output is left. -/
theorem State.scheduledOutput_irq {tag : Byte} {p : Pos} (h : s.slot i = some ⟨e, none, [⟨.irq tag, p, none, 0, true, none, false⟩]⟩) :
    s.scheduledOutput i = (s.emit (.irq tag)).putOuts i [] := by
  rw [State.scheduledOutput, h]
  rfl

/-- A pulse alone in its event slot, asserted at `at_`. -/
def pulseSlot (e k : Nat) (p : Pos) (w at_ : Nat) : Slot := ⟨e, none, [⟨.gpio k, p, none, w, false, some at_, false⟩]⟩

theorem State.pulseEnd_of_over {k : Nat} {p : Pos} {w at_ : Nat} (h : s.slot i = some (pulseSlot e k p w at_))
    (hover : w ≤ 10 * (s.timeUs - at_)) : s.pulseEnd i = s.putOuts i [] := by
  simp only [State.pulseEnd, h, pulseSlot, List.filter, LocalOut.widthOver, hover, decide_true, Bool.not_true]

theorem State.widthCut_of_long {k : Nat} {p : Pos} {w at_ : Nat} (h : s.slot i = some (pulseSlot e k p w at_))
    (hlong : s.getF R.actGpioMaxw F.actGpioMaxwMaxWidth ≤ s.timeUs - at_) :
    s.widthCut i = (s.putOuts i []).raise R.actStatus F.actStatusWidthCut R.actWcutEvt := by
  simp only [State.widthCut, h, pulseSlot, List.filter, State.tooLong, hlong, decide_true, Bool.not_true, List.foldl]

end

/-! ### Waiting FIRE frames (R317) -/

section
variable {s : State} {ap : Nat} {w : WaitFire} {ws : List WaitFire}

@[simp] theorem State.fireQ_setFireQ (s : State) (ap : Nat) (q : List WaitFire) : (s.setFireQ ap q).fireQ ap = q := by
  unfold State.setFireQ State.fireQ
  split <;> rfl

theorem State.fireQ_congr {s u : State} (h : u.lck = s.lck) (ap : Nat) : u.fireQ ap = s.fireQ ap := by
  simp only [State.fireQ, h]

theorem State.lineOnly_setFireQ (s : State) (ap : Nat) (q : List WaitFire) (l : List Nat) : s.LineOnly (s.setFireQ ap q) l := by
  unfold State.setFireQ
  split
  · exact (State.LineOnly.refl s l).lck _
  · exact (State.LineOnly.refl s l).lck _

/-- The first waiting frame that comes too late is dropped. -/
theorem State.fireRelease_of_late (hq : s.fireQ ap = w :: ws) (hlate : s.fireInTime w = false) :
    s.fireRelease ap = ((s.setFireQ ap ws).raise R.actStatus F.actStatusRateDrop R.actDropEvt).report
      (Src.lane w.lane) E.actRateDrop Rep.lineClock := by
  have hfind : (s.fireQ ap).find? (fun w => !s.fireInTime w) = some w := by
    rw [hq, List.find?_cons_of_pos (by rw [hlate]; rfl)]
  have herase : (s.fireQ ap).erase w = ws := by rw [hq, List.erase_cons_head]
  rw [State.fireRelease, hfind]
  dsimp only
  rw [herase]

/-- With every frame in time the first is sent, if the rate allows. -/
theorem State.fireRelease_of_in_time (hq : s.fireQ ap = w :: ws) (hin : ∀ x ∈ w :: ws, s.fireInTime x = true)
    (hroom : s.fireRoom ap = true) (hatt : s.attached (apPort ap) = true) :
    s.fireRelease ap = (s.setFireQ ap ws).putFire ap w.payload := by
  have hfind : (s.fireQ ap).find? (fun w => !s.fireInTime w) = none := by
    rw [hq, List.find?_eq_none]
    intro x hx
    rw [hin x hx]
    decide
  rw [State.fireRelease, hfind, hq]
  simp only [hroom, hatt, Bool.and_self, if_true]

/-- The counter of the FIRE frames of a port. -/
def fireReg (ap : Nat) : Nat := if ap = 0 then R.actFire0 else R.actFire1

theorem State.putFrame_wire (s : State) (p t : Nat) (payload ext : Bytes) :
    ∃ f, (s.putFrame p t payload ext).wire = .tx f :: s.wire ∧ f.port = p ∧ f.type = t ∧ f.payload = payload :=
  ⟨_, rfl, rfl, rfl, rfl⟩

theorem State.reg_putFrame (s : State) (p t : Nat) (payload ext : Bytes) (a : Nat) : (s.putFrame p t payload ext).reg a = s.reg a := rfl

theorem State.putFrame_lck (s : State) (p t : Nat) (payload ext : Bytes) : (s.putFrame p t payload ext).lck = s.lck := rfl

/-- A FIRE frame is put on its port and counted. -/
def State.fireCounted (s : State) (ap : Nat) (payload : Bytes) : State :=
  (s.putFrame (apPort ap) 0x41 payload).count (fireReg ap)

@[simp] theorem State.fireCounted_lck (s : State) (ap : Nat) (payload : Bytes) : (s.fireCounted ap payload).lck = s.lck :=
  (State.count_lck _ _ _).trans (s.putFrame_lck _ _ _ _)

theorem State.fireCounted_wire (s : State) (ap : Nat) (payload : Bytes) :
    (s.fireCounted ap payload).wire = (s.putFrame (apPort ap) 0x41 payload).wire := State.count_wire _ _ _

/-- Then its time is noted. -/
theorem State.putFire_eq (s : State) (ap : Nat) (payload : Bytes) : ∃ x : LckUnit,
    s.putFire ap payload = { s.fireCounted ap payload with lck := x } ∧
    x.fireQ0 = (s.fireCounted ap payload).lck.fireQ0 ∧ x.fireQ1 = (s.fireCounted ap payload).lck.fireQ1 := by
  by_cases h : ap = 0
  · exact ⟨_, if_pos h, rfl, rfl⟩
  · exact ⟨_, if_neg h, rfl, rfl⟩

/-- A FIRE frame leaves its port and is counted; the frames that wait stay. -/
theorem State.putFire_spec (s : State) (ap : Nat) (payload : Bytes) :
    (∃ f, (s.putFire ap payload).wire = .tx f :: s.wire ∧ f.payload = payload ∧ f.port = apPort ap) ∧
    (s.putFire ap payload).fireQ ap = s.fireQ ap ∧ (s.putFire ap payload).reg (fireReg ap) = satInc (s.reg (fireReg ap)) 1 ∧
    s.regsBut (s.putFire ap payload) [fireReg ap] := by
  obtain ⟨x, heq, hq0, hq1⟩ := s.putFire_eq ap payload
  obtain ⟨f, hwire, hport, -, hpayload⟩ := s.putFrame_wire (apPort ap) 0x41 payload []
  have hlck (a : Nat) : (s.putFire ap payload).reg a = (s.fireCounted ap payload).reg a := by
    rw [heq]
    exact ((State.LineOnly.refl _ []).lck x).regs a List.not_mem_nil
  refine ⟨⟨f, ?_, hpayload, hport⟩, ?_, ?_, fun a ha => ?_⟩
  · rw [heq]
    exact (s.fireCounted_wire ap payload).trans hwire
  · rw [heq, State.fireQ, State.fireQ]
    dsimp only
    rw [hq0, hq1, State.fireCounted_lck]
  · rw [hlck, State.fireCounted, State.reg_count_self, State.reg_putFrame]
  · rw [hlck, State.fireCounted, State.reg_count_ne _ (by simpa using ha), State.reg_putFrame]

end

/-- Settles O27: what is due leaves its slot, and a waiting frame leaves its queue, sent or dropped. -/
theorem slotOutputs : Obligations.SlotOutputs := by
  intro s
  refine ⟨fun i e => ⟨fun tag p hslot => ?irq, fun k p w at_ hslot hpast => ?ends, fun k p w at_ hslot hlong => ?cut⟩,
    fun ap w ws hq => ⟨fun hin hroom hatt => ?sent, fun hlate => ?dropped⟩⟩
  case irq =>
    have hslot' : (s.emit (.irq tag)).slot i = some ⟨e, none, [⟨.irq tag, p, none, 0, true, none, false⟩]⟩ := hslot
    obtain ⟨w, hwire⟩ := State.putOuts_nil_wire hslot'
    refine ⟨_, w, congrArg Host.Outcome.next (State.scheduledOutput_irq hslot), hwire, State.slot_putOuts_nil hslot'⟩
  case ends =>
    exact ⟨_, congrArg Host.Outcome.next (State.pulseEnd_of_over hslot hpast), State.slot_putOuts_nil hslot⟩
  case cut =>
    refine ⟨_, congrArg Host.Outcome.next (State.widthCut_of_long hslot hlong), ?_, ?_, ?_⟩
    · rw [State.slot_congr (State.raise_lck _ _ _ _), State.slot_putOuts_nil hslot]
    · exact State.isSet_raise_self _ _ _ _ (by decide) (by decide) (by decide)
    · rw [State.reg_raise_evt _ _ _ _ (by decide), State.regsBut_putOuts_nil hslot _ (by decide)]
  case sent =>
    obtain ⟨⟨f, hwire, hpayload, hport⟩, hleft, hcount, hregs⟩ := (s.setFireQ ap ws).putFire_spec ap w.payload
    have hline := s.lineOnly_setFireQ ap ws [fireReg ap]
    have hreg (a : Nat) : (s.setFireQ ap ws).reg a = s.reg a := (s.lineOnly_setFireQ ap ws []).regs a List.not_mem_nil
    refine ⟨_, f, congrArg Host.Outcome.next (State.fireRelease_of_in_time hq hin hroom hatt), ?_, ?_, hpayload, hport, ?_, ?_⟩
    · rw [hleft, State.fireQ_setFireQ]
    · rw [hwire, hline.units]
    · rw [hreg] at hcount
      exact hcount
    · exact hline.regs.trans hregs
  case dropped =>
    have hreg : (s.setFireQ ap ws).reg R.actDropEvt = s.reg R.actDropEvt := (s.lineOnly_setFireQ ap ws []).regs _ List.not_mem_nil
    have hunits := (s.lineOnly_setFireQ ap ws []).units
    refine ⟨_, congrArg Host.Outcome.next (State.fireRelease_of_late hq hlate), ?_, ?_, ?_, ?_⟩
    · rw [State.fireQ_congr (State.report_lck _ _ _ _ _), State.fireQ_congr (State.raise_lck _ _ _ _), State.fireQ_setFireQ]
    · rw [State.isSet_report _ _ _ _ _ _ (by decide)]
      exact State.isSet_raise_self _ _ _ _ (by decide) (by decide) (by decide)
    · rw [State.reg_report _ _ _ _ _ (by decide), State.reg_raise_evt _ _ _ _ (by decide), hreg]
    · rw [State.report_wire, State.raise_wire, hunits]

/-! ### Taking a slot (R304, R306, R318, R319) -/

section
variable {s : State}

theorem Tab.key_mem_of_isSome {α : Type} {t : Tab α} {k : Nat} (h : (t.get? k).isSome = true) : k ∈ t.map Prod.fst := by
  obtain ⟨v, hv⟩ := Option.isSome_iff_exists.1 h
  exact List.mem_map_of_mem (f := Prod.fst) (Tab.mem_of_get? hv)

/-- While fewer than 4,096 slots are in use one is free. -/
theorem State.freeSlots_ne_nil (h : s.lck.slots.length < 4096) : s.freeSlots ≠ [] := by
  intro hnil
  have hfull : List.range 4096 ⊆ s.lck.slots.map Prod.fst := by
    intro i hi
    have hused : ¬ (s.slot i).isNone = true := List.filter_eq_nil_iff.1 hnil i hi
    refine Tab.key_mem_of_isSome ?_
    rwa [← Option.not_isNone, Bool.not_eq_true', ← Bool.not_eq_true]
  have hle := (List.nodup_range.subperm hfull).length_le
  rw [List.length_range, List.length_map] at hle
  omega

theorem State.mem_freeSlots {i : Nat} (h : i ∈ s.freeSlots) : i < 4096 ∧ s.slot i = none := by
  obtain ⟨hrange, hnone⟩ := List.mem_filter.1 h
  exact ⟨List.mem_range.1 hrange, Option.isNone_iff_eq_none.1 hnone⟩

/-- A draw from candidates is one of them. -/
theorem State.choose_mem {cands : List Nat} (h : cands ≠ []) : (s.choose cands).1 ∈ cands := by
  have hlt : Config.choice s.fresh % cands.length < cands.length := Nat.mod_lt _ (List.length_pos_of_ne_nil h)
  rw [State.choose, List.getD_eq_getElem _ _ hlt]
  exact List.getElem_mem hlt

theorem State.takeSlot_snd (x : Slot) :
    (s.takeSlot x).2 = ((s.choose s.freeSlots).2.setSlot (s.choose s.freeSlots).1 x).syncSlots := by
  rw [State.takeSlot]

/-- A slot that is taken holds what was put there, and was free. -/
theorem State.takeSlot_spec (x : Slot) (h : s.lck.slots.length < 4096) : ∃ i, i < 4096 ∧ s.slot i = none ∧
    (s.takeSlot x).2.slot i = some x ∧ ∀ j, j ≠ i → (s.takeSlot x).2.slot j = s.slot j := by
  obtain ⟨hlt, hfree⟩ := State.mem_freeSlots (State.choose_mem (s := s) (State.freeSlots_ne_nil h))
  refine ⟨_, hlt, hfree, ?_, fun j hj => ?_⟩
  · rw [State.takeSlot_snd, State.slot_syncSlots, State.slot_setSlot_self]
  · rw [State.takeSlot_snd, State.slot_syncSlots, State.slot_setSlot_ne _ _ hj]
    rfl

/-- An event slot with one output ahead of the belt waits in a free slot. -/
theorem State.writeEvent_irq {e : EncIx} {tag : Byte} {p : Pos} (hgrant : s.slotGrant = true)
    (hahead : Pos.atOrAfter (s.enc e).pos p = false) :
    s.writeEvent ⟨e, p, none, 0, 0, false, some tag⟩ =
      (s.takeSlot ⟨e.val, none, [⟨.irq tag, p, none, 0, false, none, false⟩]⟩).2.refreshGpio := by
  have harm : s.armOuts e.val (eventOuts ⟨e, p, none, 0, 0, false, some tag⟩) =
      (s, [⟨.irq tag, p, none, 0, false, none, false⟩]) := by
    have hout : s.armOut e.val ⟨.irq tag, p, none, 0, false, none, false⟩ =
        (s, some ⟨.irq tag, p, none, 0, false, none, false⟩) := by
      rw [State.armOut]
      exact if_neg (Bool.eq_false_iff.1 hahead)
    show s.armOuts e.val [⟨.irq tag, p, none, 0, false, none, false⟩] = _
    simp only [State.armOuts, hout, Option.toList_some, List.append_nil]
  simp only [State.writeEvent, hgrant, if_true, harm, List.isEmpty_cons, Bool.false_eq_true, if_false]

theorem State.slots_lt_of_grant (h : s.slotGrant = true) : s.lck.slots.length < 4096 := by
  have := of_decide_eq_true h
  omega

end

/-! ### SYNC (R313) -/

theorem State.sendFrame_lck (s : State) (p t : Nat) (payload ext : Bytes) : (s.sendFrame p t payload ext).lck = s.lck := by
  unfold State.sendFrame
  split
  · split
    · rfl
    · exact State.raise_lck _ _ _ _
  · rfl

theorem State.sendFrame_timeUs (s : State) (p t : Nat) (payload ext : Bytes) : (s.sendFrame p t payload ext).timeUs = s.timeUs := by
  unfold State.sendFrame
  split
  · split
    · rfl
    · exact State.raise_timeUs _ _ _ _
  · rfl

/-- The frames of a SYNC have been sent. -/
def State.syncSent (s : State) (e : Nat) (heartbeat : Bool) : State :=
  [0, 1, 2, 3].foldl (fun u p => u.sendFrame p 0x20 (u.syncPayload 0x20 e heartbeat))
    ([0, 1].foldl (fun u ap => if u.apEn ap then u.sendFrame (apPort ap) 0x42 (s.syncPayload 0x42 e heartbeat) else u) s)

theorem State.sendSync_eq (s : State) (e : Nat) (heartbeat : Bool) : s.sendSync e heartbeat =
    (s.syncSent e heartbeat).setEnc e
      { (s.syncSent e heartbeat).enc e with syncDue := false, syncAt := (s.syncSent e heartbeat).timeUs } := by
  unfold State.sendSync State.syncSent
  rfl

theorem State.syncSent_lck (s : State) (e : Nat) (heartbeat : Bool) : (s.syncSent e heartbeat).lck = s.lck := by
  refine State.foldl_induction (P := fun u => u.lck = s.lck) ?_ fun u hu p _ => (State.sendFrame_lck _ _ _ _ _).trans hu
  refine State.foldl_induction (P := fun u => u.lck = s.lck) rfl fun u hu ap _ => ?_
  split
  · exact (State.sendFrame_lck _ _ _ _ _).trans hu
  · exact hu

theorem State.syncSent_timeUs (s : State) (e : Nat) (heartbeat : Bool) : (s.syncSent e heartbeat).timeUs = s.timeUs := by
  refine State.foldl_induction (P := fun u => u.timeUs = s.timeUs) ?_ fun u hu p _ => (State.sendFrame_timeUs _ _ _ _ _).trans hu
  refine State.foldl_induction (P := fun u => u.timeUs = s.timeUs) rfl fun u hu ap _ => ?_
  split
  · exact (State.sendFrame_timeUs _ _ _ _ _).trans hu
  · exact hu

/-- A SYNC is sent for an encoder, whose position it leaves. -/
theorem State.enc_sendSync (s : State) (e : Nat) (heartbeat : Bool) :
    (s.sendSync e heartbeat).enc e = { s.enc e with syncDue := false, syncAt := s.timeUs } := by
  rw [State.sendSync_eq, State.enc_setEnc_self, State.enc_congr (s.syncSent_lck e heartbeat), State.syncSent_timeUs]

/-- Settles O28: an event slot takes a free slot, and SYNC ends with the encoder's time of sending. -/
theorem slotsAndSync : Obligations.SlotsAndSync := by
  intro s e
  refine ⟨fun tag p hgrant hahead => ?event, fun hdue => ?sync, fun hdue => ?heartbeat⟩
  case event =>
    obtain ⟨i, hlt, hfree, hself, hother⟩ := State.takeSlot_spec
      ⟨e.val, none, [⟨.irq tag, p, none, 0, false, none, false⟩]⟩ (State.slots_lt_of_grant hgrant)
    refine ⟨_, i, congrArg Host.Outcome.next (State.writeEvent_irq hgrant hahead), hlt, hfree, ?_, fun j hj => ?_⟩
    · rw [State.slot_refreshGpio, hself]
    · rw [State.slot_refreshGpio, hother j hj]
  case sync =>
    have henc := s.enc_sendSync e false
    exact ⟨_, congrArg Host.Outcome.next (if_pos hdue), rfl, congrArg Enc.syncDue henc, congrArg Enc.syncAt henc,
      (congrArg Enc.pos henc :)⟩
  case heartbeat =>
    have henc := s.enc_sendSync e true
    exact ⟨_, congrArg Host.Outcome.next (if_pos hdue), rfl, congrArg Enc.syncDue henc, congrArg Enc.syncAt henc,
      (congrArg Enc.pos henc :)⟩

end Sys2Proof.Machine
end


section
/-! PROOF. The safe state and the DAC channels (R321 to R325): the hold path, the copy of shadow sets, the start of modulators,
and O29 and O30. -/

namespace Sys2Proof.Machine

/-! ### Folds over channels -/

/-- A predicate of the channels done so far that every step extends holds at the end. -/
theorem State.foldl_range_induction {P : Nat → State → Prop} {f : State → Nat → State} {s : State} {N : Nat} (h0 : P 0 s)
    (hstep : ∀ n u, n < N → P n u → P (n + 1) (f u n)) : P N ((List.range N).foldl f s) := by
  have hprefix : ∀ n, n ≤ N → P n ((List.range n).foldl f s) := by
    intro n
    induction n with
    | zero => exact fun _ => h0
    | succ n ih =>
      intro hn
      rw [List.range_succ, List.foldl_append]
      exact hstep n _ hn (ih (Nat.le_of_succ_le hn))
  exact hprefix N (Nat.le_refl N)

/-- The active registers of the channels. -/
def activeRegs : List Nat := (List.range 8).map R.actDacActive

theorem actDacActive_mem {ch : Nat} (h : ch < 8) : R.actDacActive ch ∈ activeRegs :=
  List.mem_map_of_mem (List.mem_range.2 h)

theorem actDacActive_ne {ch k : Nat} (hch : ch < 8) (hk : k < 8) (h : ch ≠ k) : R.actDacActive ch ≠ R.actDacActive k := by
  simp only [R.actDacActive]
  omega

theorem not_mem_activeRegs {a : Nat} (h : ∀ ch, ch < 8 → a ≠ R.actDacActive ch) : a ∉ activeRegs := by
  intro hmem
  obtain ⟨ch, hch, rfl⟩ := List.mem_map.1 hmem
  exact h ch (List.mem_range.1 hch) rfl

theorem actCtrl_not_mem_activeRegs : R.actCtrl ∉ activeRegs := by decide

theorem actDacCtrl_not_mem_activeRegs : R.actDacCtrl ∉ activeRegs := by decide

section
variable {s u : State}

theorem State.inSafe_congr (h : u.reg R.actCtrl = s.reg R.actCtrl) : u.inSafe = s.inSafe := by
  rw [State.inSafe, State.isSet, State.getF_congr h, ← State.isSet, ← State.inSafe]

theorem State.dacRuns_congr (h : u.reg R.actDacCtrl = s.reg R.actDacCtrl) (ch : Nat) : u.dacRuns ch = s.dacRuns ch := by
  rw [State.dacRuns, State.getF_congr h, ← State.dacRuns]

theorem b2n_mod (b : Bool) : b2n b % 2 ^ 1 = b2n b := by cases b <;> rfl

theorem b2n_beq_one (b : Bool) : (b2n b == 1) = b := by cases b <;> rfl

/-! ### The hold path (R324, R325) -/

/-- The hold path follows the safe state and the modulators, and no other register changes. -/
theorem State.refreshHold_spec (s : State) : s.WritesOnly s.refreshHold activeRegs ∧
    ∀ ch, ch < 8 → s.refreshHold.getF (R.actDacActive ch) F.actDacActiveHold = b2n (s.inSafe || !s.dacRuns ch) := by
  refine State.foldl_range_induction (P := fun n u => s.WritesOnly u activeRegs ∧
    ∀ ch, ch < n → u.getF (R.actDacActive ch) F.actDacActiveHold = b2n (s.inSafe || !s.dacRuns ch))
    ⟨.refl s _, fun ch h => absurd h (Nat.not_lt_zero ch)⟩ fun n u hn ⟨hwrites, hdone⟩ => ⟨hwrites.setF (actDacActive_mem hn) _ _, ?_⟩
  intro ch hch
  have hsafe := State.inSafe_congr (hwrites.regs _ actCtrl_not_mem_activeRegs)
  have hruns := State.dacRuns_congr (hwrites.regs _ actDacCtrl_not_mem_activeRegs) n
  rcases Nat.lt_succ_iff_lt_or_eq.1 hch with hlt | rfl
  · rw [State.getF_setF_ne _ _ _ _ (actDacActive_ne (by omega) hn (by omega))]
    exact hdone ch hlt
  · rw [State.getF_setF_self _ _ _ _ (by decide), hsafe, hruns]
    exact b2n_mod _

/-- The hold bit stands apart from the fields of an active set. -/
theorem State.getF_refreshHold (s : State) (a : Nat) (f : Field)
    (hf : f.lo + f.width ≤ F.actDacActiveHold.lo ∨ F.actDacActiveHold.lo + F.actDacActiveHold.width ≤ f.lo) :
    s.refreshHold.getF a f = s.getF a f := by
  refine State.foldl_induction (P := fun u => u.getF a f = s.getF a f) rfl fun u hu ch _ => ?_
  by_cases h : a = R.actDacActive ch
  · rw [h] at hu ⊢
    exact (State.getF_setF_field u _ _ _ _ (by decide) hf).trans hu
  · exact (State.getF_setF_ne u _ _ _ h).trans hu

/-- The pins are not part of the hold path. -/
theorem State.regsBut_refreshGpio_of (s : State) {a : Nat} (h : a ≠ R.actGpioState) : s.refreshGpio.reg a = s.reg a :=
  s.regsBut_refreshGpio a (by simpa using h)

/-- After a change of ACT_CTRL.safe_state the hold path is renewed, then the pins. -/
theorem State.holdPath_spec (v : Nat) (hu : u.reg R.actDacCtrl = s.reg R.actDacCtrl)
    (hsafe : u.isSet R.actCtrl F.actCtrlSafeState = (v == 1)) :
    let t := u.refreshHold.refreshGpio
    t.inSafe = (v == 1) ∧ t.lck = u.lck ∧
      ∀ ch, ch < 8 → t.isSet (R.actDacActive ch) F.actDacActiveHold = ((v == 1) || !s.dacRuns ch) := by
  obtain ⟨hwrites, hhold⟩ := u.refreshHold_spec
  refine ⟨?_, ?_, fun ch hch => ?_⟩
  · rw [State.inSafe_congr (State.regsBut_refreshGpio_of _ (by decide)),
      State.inSafe_congr (hwrites.regs _ actCtrl_not_mem_activeRegs)]
    exact hsafe
  · rw [State.refreshGpio_lck]
    exact hwrites.keeps State.lck fun _ => rfl
  · have hne : R.actDacActive ch ≠ R.actGpioState := by simp only [R.actDacActive, R.actGpioState]; omega
    rw [State.isSet, State.getF_congr (State.regsBut_refreshGpio_of _ hne), hhold ch hch, State.dacRuns_congr hu, State.inSafe, hsafe]
    exact b2n_beq_one _

end

/-! ### The safe state (R325) -/

section
variable {s : State}

/-- What holding the outputs makes of the hidden state: no FIRE frame waits, and no armed or event slot is left. -/
def State.heldLck (s : State) : LckUnit :=
  { s.lck with fireQ0 := [], fireQ1 := [], slots := s.lck.slots.filter (fun e => match e.2.obj with
    | some o => decide (o.st ≠ SlotSt.armed)
    | none => false) }

/-- ACT_CTRL.safe_state is set, and what waits is dropped. -/
def State.heldSlots (s : State) : State :=
  ({ s.setF R.actCtrl F.actCtrlSafeState 1 with lck := (s.setF R.actCtrl F.actCtrlSafeState 1).heldLck } : State).syncSlots

theorem State.heldSlots_lck (s : State) : s.heldSlots.lck = s.heldLck := by
  rw [State.heldSlots, State.syncSlots_lck]
  dsimp only
  rw [State.heldLck, State.setF_lck, ← State.heldLck]

theorem State.reg_heldSlots (s : State) {a : Nat} (h : a ≠ R.lckSlots) :
    s.heldSlots.reg a = (s.setF R.actCtrl F.actCtrlSafeState 1).reg a :=
  ((State.writesOnly_syncSlots _).regs a (by simpa using h)).trans (((State.LineOnly.refl _ []).lck _).regs a List.not_mem_nil)

theorem State.holdOutputs_spec (s : State) : s.holdOutputs.inSafe = true ∧ s.holdOutputs.lck = s.heldLck ∧
    ∀ ch, ch < 8 → s.holdOutputs.isSet (R.actDacActive ch) F.actDacActiveHold = true := by
  have hctrl : s.heldSlots.reg R.actDacCtrl = s.reg R.actDacCtrl :=
    (s.reg_heldSlots (by decide)).trans (State.reg_setF_ne _ _ _ (by decide))
  have hsafe : s.heldSlots.isSet R.actCtrl F.actCtrlSafeState = ((1 : Nat) == 1) := by
    rw [State.isSet, State.getF_congr (s.reg_heldSlots (by decide)), State.getF_setF_self _ _ _ _ (by decide)]
    rfl
  obtain ⟨hin, hlck, hhold⟩ := State.holdPath_spec 1 hctrl hsafe
  exact ⟨hin, hlck.trans s.heldSlots_lck, hhold⟩

/-- The registers that a frame due on the actuation ports, and the report of the entry, may write. -/
def safeRegs : List Nat := [R.prtStatus 6, R.prtTxlEvt 6, R.prtStatus 7, R.prtTxlEvt 7, R.actStatus, R.actSafeEvt,
  R.fltOpen, R.fltStatus, R.fltNewsrcEvt, R.fltOvfEvt]

theorem State.regsBut_sendFrame (s : State) (p t : Nat) (payload ext : Bytes) :
    s.regsBut (s.sendFrame p t payload ext) [R.prtStatus p, R.prtTxlEvt p] := by
  intro a ha
  simp only [List.mem_cons, List.not_mem_nil, or_false, not_or] at ha
  obtain ⟨hstatus, hevt⟩ := ha
  exact s.reg_sendFrame_ne p t payload ext hstatus hevt

theorem State.regsBut_report (s : State) (src code rep d : Nat) :
    s.regsBut (s.report src code rep d) [R.fltOpen, R.fltStatus, R.fltNewsrcEvt, R.fltOvfEvt] := by
  intro a ha
  simp only [List.mem_cons, List.not_mem_nil, or_false, not_or] at ha
  exact s.reg_report src code rep d ha

/-- The SAFE frames have left, where a port carries them. -/
def State.safeSent (s : State) (reason : Nat) : State :=
  (s.holdOutputs.sendFrame 6 0x43 (leBytes 4 (0x43 + 256 * reason))).sendFrame 7 0x43 (leBytes 4 (0x43 + 256 * reason))

theorem State.enterSafe_of_not_inSafe (h : s.inSafe = false) (reason : Nat) : s.enterSafe reason =
    ((s.safeSent reason).raise R.actStatus F.actStatusSafeEntry R.actSafeEvt).report Src.device E.actSafeEntered Rep.lineClock
      reason := by
  simp only [State.enterSafe, h, Bool.false_eq_true, if_false, if_true, State.safeSent]

theorem State.enterSafe_of_inSafe (h : s.inSafe = true) (reason : Nat) : s.enterSafe reason = s := if_pos h

theorem State.regsBut_enterSafe (h : s.inSafe = false) (reason : Nat) : s.holdOutputs.regsBut (s.enterSafe reason) safeRegs := by
  have hsent : s.holdOutputs.regsBut (s.safeSent reason) safeRegs :=
    ((State.regsBut_sendFrame _ _ _ _ _).mono (by simp [safeRegs])).trans
      ((State.regsBut_sendFrame _ _ _ _ _).mono (by simp [safeRegs]))
  rw [State.enterSafe_of_not_inSafe h]
  exact (hsent.raise (by simp [safeRegs]) (by simp [safeRegs]) _).trans ((State.regsBut_report _ _ _ _ _).mono (by simp [safeRegs]))

theorem State.enterSafe_lck (h : s.inSafe = false) (reason : Nat) : (s.enterSafe reason).lck = s.heldLck := by
  obtain ⟨-, hlck, -⟩ := s.holdOutputs_spec
  rw [State.enterSafe_of_not_inSafe h, State.report_lck, State.raise_lck, State.safeSent, State.sendFrame_lck, State.sendFrame_lck,
    hlck]

/-- A slot that is left holds an object that is not armed. -/
theorem State.heldLck_slots {i : Nat} {x : Slot} (h : s.heldLck.slots.get? i = some x) :
    ∃ o, x.obj = some o ∧ o.st ≠ .armed := by
  have hkept := (List.mem_filter.1 (Tab.mem_of_get? h)).2
  cases hobj : x.obj with
  | none => simp only [hobj, Bool.false_eq_true] at hkept
  | some o =>
    simp only [hobj, decide_eq_true_eq] at hkept
    exact ⟨o, rfl, hkept⟩

end

/-- Settles O29: entry holds the outputs and then sends and reports, which changes none of it; release renews the hold path. -/
theorem safeState : Obligations.SafeState := by
  intro s
  refine ⟨fun hout => ?enter, fun hin => congrArg Host.Outcome.next (State.enterSafe_of_inSafe hin 3), ?leave⟩
  case enter =>
    obtain ⟨hsafe, -, hhold⟩ := s.holdOutputs_spec
    have hregs := State.regsBut_enterSafe hout 3
    have hlck := State.enterSafe_lck hout 3
    refine ⟨s.enterSafe 3, rfl, ?_, ?_, ?_, fun i x hx => ?_, ?_, fun ch hch => ?_⟩
    · rw [State.inSafe_congr (hregs _ (by decide))]; exact hsafe
    · rw [hlck]; rfl
    · rw [hlck]; rfl
    · rw [State.slot, hlck] at hx
      exact State.heldLck_slots hx
    · rw [State.enterSafe_of_not_inSafe hout, State.isSet_report _ _ _ _ _ _ (by decide)]
      exact State.isSet_raise_self _ _ _ _ (by decide) (by decide) (by decide)
    · have hne : R.actDacActive ch ∉ safeRegs := by
        simp only [safeRegs, R.actDacActive, R.prtStatus, R.prtTxlEvt, R.actStatus, R.actSafeEvt, R.fltOpen, R.fltStatus,
          R.fltNewsrcEvt, R.fltOvfEvt, List.mem_cons, List.not_mem_nil, or_false]
        omega
      rw [State.isSet, State.getF_congr (hregs _ hne), ← State.isSet, hhold ch hch]
  case leave =>
    have hsafe : (s.setF R.actCtrl F.actCtrlSafeState 0).isSet R.actCtrl F.actCtrlSafeState = ((0 : Nat) == 1) := by
      rw [State.isSet_setF_self _ _ _ _ (by decide)]
      rfl
    obtain ⟨hout, hlck, hhold⟩ := State.holdPath_spec 0 (State.reg_setF_ne s _ _ (by decide)) hsafe
    exact ⟨s.leaveSafe, rfl, hout, hlck.trans (State.setF_lck _ _ _ _), hhold⟩

/-! ### The copy of shadow into active sets (R323) -/

section
variable {s u : State} {ch : Nat}

/-- Code, sine and gain bits of a channel's active set. -/
def State.dacSet (s : State) (ch code sine gain2 : Nat) : State :=
  ((s.setF (R.actDacActive ch) F.actDacActiveCode code).setF (R.actDacActive ch) F.actDacActiveSine sine).setF
    (R.actDacActive ch) F.actDacActiveGain2 gain2

theorem actDacActive_ne_mode (ch k : Nat) : R.actDacMode k ≠ R.actDacActive ch := by
  simp only [R.actDacActive, R.actDacMode]
  omega

theorem actDacActive_ne_code (ch k : Nat) : R.actDacCode k ≠ R.actDacActive ch := by
  simp only [R.actDacActive, R.actDacCode]
  omega

/-- A copy sets the active set from the shadow, and the phase accumulator. -/
theorem State.dacCopy_eq (s : State) (ch : Nat) : ∃ x : LckUnit, s.dacCopy ch =
    { s.dacSet ch (s.getF (R.actDacCode ch) F.actDacCodeValue) (s.getF (R.actDacMode ch) F.actDacModeSine)
        (s.getF (R.actDacMode ch) F.actDacModeGain2) with lck := x } := by
  have hsine (v : Nat) : (s.setF (R.actDacActive ch) F.actDacActiveCode v).getF (R.actDacMode ch) F.actDacModeSine =
      s.getF (R.actDacMode ch) F.actDacModeSine := State.getF_setF_ne _ _ _ _ (actDacActive_ne_mode ch ch)
  have hgain (v w : Nat) : ((s.setF (R.actDacActive ch) F.actDacActiveCode v).setF (R.actDacActive ch) F.actDacActiveSine w).getF
      (R.actDacMode ch) F.actDacModeGain2 = s.getF (R.actDacMode ch) F.actDacModeGain2 := by
    rw [State.getF_setF_ne _ _ _ _ (actDacActive_ne_mode ch ch), State.getF_setF_ne _ _ _ _ (actDacActive_ne_mode ch ch)]
  rw [State.dacSet, ← hsine (s.getF (R.actDacCode ch) F.actDacCodeValue), ← hgain (s.getF (R.actDacCode ch) F.actDacCodeValue)]
  exact ⟨_, rfl⟩

/-- The active set reads what was put there. -/
theorem State.dacSet_self (s : State) (ch : Nat) {code sine gain2 : Nat} (hcode : code < 2 ^ 20) (hsine : sine < 2) (hgain : gain2 < 2) :
    (s.dacSet ch code sine gain2).getF (R.actDacActive ch) F.actDacActiveCode = code ∧
    (s.dacSet ch code sine gain2).getF (R.actDacActive ch) F.actDacActiveSine = sine ∧
    (s.dacSet ch code sine gain2).getF (R.actDacActive ch) F.actDacActiveGain2 = gain2 := by
  unfold State.dacSet
  refine ⟨?_, ?_, ?_⟩
  · rw [State.getF_setF_field _ _ _ _ _ (by decide) (by decide), State.getF_setF_field _ _ _ _ _ (by decide) (by decide),
      State.getF_setF_self _ _ _ _ (by decide)]
    exact Nat.mod_eq_of_lt hcode
  · rw [State.getF_setF_field _ _ _ _ _ (by decide) (by decide), State.getF_setF_self _ _ _ _ (by decide)]
    exact Nat.mod_eq_of_lt hsine
  · rw [State.getF_setF_self _ _ _ _ (by decide)]
    exact Nat.mod_eq_of_lt hgain

theorem State.reg_dacSet_ne (s : State) {ch a : Nat} (h : a ≠ R.actDacActive ch) (code sine gain2 : Nat) :
    (s.dacSet ch code sine gain2).reg a = s.reg a := by
  rw [State.dacSet, State.reg_setF_ne _ _ _ h, State.reg_setF_ne _ _ _ h, State.reg_setF_ne _ _ _ h]

/-- The active set of a channel is the shadow set of `s`. -/
def State.IsShadow (s u : State) (ch : Nat) : Prop :=
  u.getF (R.actDacActive ch) F.actDacActiveCode = s.getF (R.actDacCode ch) F.actDacCodeValue ∧
  u.getF (R.actDacActive ch) F.actDacActiveSine = s.getF (R.actDacMode ch) F.actDacModeSine ∧
  u.getF (R.actDacActive ch) F.actDacActiveGain2 = s.getF (R.actDacMode ch) F.actDacModeGain2

theorem State.IsShadow.congr {t : State} (h : s.IsShadow u ch) (ht : t.reg (R.actDacActive ch) = u.reg (R.actDacActive ch)) :
    s.IsShadow t ch := by
  obtain ⟨hcode, hsine, hgain⟩ := h
  exact ⟨(State.getF_congr ht _).trans hcode, (State.getF_congr ht _).trans hsine, (State.getF_congr ht _).trans hgain⟩

theorem State.reg_dacCopy (s : State) (ch a : Nat) : (s.dacCopy ch).reg a =
    (s.dacSet ch (s.getF (R.actDacCode ch) F.actDacCodeValue) (s.getF (R.actDacMode ch) F.actDacModeSine)
      (s.getF (R.actDacMode ch) F.actDacModeGain2)).reg a := by
  obtain ⟨x, heq⟩ := s.dacCopy_eq ch
  rw [heq]
  exact ((State.LineOnly.refl _ []).lck x).regs a List.not_mem_nil

theorem State.lineOnly_dacCopy (s : State) (h : ch < 8) : s.LineOnly (s.dacCopy ch) activeRegs := by
  obtain ⟨x, heq⟩ := s.dacCopy_eq ch
  have hset (code sine gain2 : Nat) : s.LineOnly (s.dacSet ch code sine gain2) activeRegs :=
    (((State.LineOnly.refl s _).setF (actDacActive_mem h) _ _).setF (actDacActive_mem h) _ _).setF (actDacActive_mem h) _ _
  rw [heq]
  exact (hset _ _ _).lck x

/-- A copy of one channel gives it the shadow set, and leaves the others. -/
theorem State.isShadow_dacCopy (hu : s.LineOnly u activeRegs) : s.IsShadow (u.dacCopy ch) ch := by
  have hcode : R.actDacCode ch ∉ activeRegs := not_mem_activeRegs fun k _ => actDacActive_ne_code k ch
  have hmode : R.actDacMode ch ∉ activeRegs := not_mem_activeRegs fun k _ => actDacActive_ne_mode k ch
  obtain ⟨h1, h2, h3⟩ := u.dacSet_self ch (State.getF_lt u (R.actDacCode ch) F.actDacCodeValue)
    (State.getF_lt u (R.actDacMode ch) F.actDacModeSine) (State.getF_lt u (R.actDacMode ch) F.actDacModeGain2)
  have hset : u.IsShadow (u.dacCopy ch) ch := State.IsShadow.congr ⟨h1, h2, h3⟩ (u.reg_dacCopy ch _)
  obtain ⟨h1, h2, h3⟩ := hset
  exact ⟨h1.trans (State.getF_congr (hu.regs _ hcode) _), h2.trans (State.getF_congr (hu.regs _ hmode) _),
    h3.trans (State.getF_congr (hu.regs _ hmode) _)⟩

/-- Every channel has been copied. -/
def State.allCopied (s : State) : State := (List.range 8).foldl State.dacCopy s

theorem State.allCopied_spec (s : State) : s.LineOnly s.allCopied activeRegs ∧ ∀ ch, ch < 8 → s.IsShadow s.allCopied ch := by
  refine State.foldl_range_induction (P := fun n u => s.LineOnly u activeRegs ∧ ∀ ch, ch < n → s.IsShadow u ch)
    ⟨.refl s _, fun ch h => absurd h (Nat.not_lt_zero ch)⟩ fun n u hn ⟨hline, hdone⟩ => ⟨hline.trans (u.lineOnly_dacCopy hn), ?_⟩
  intro ch hch
  rcases Nat.lt_succ_iff_lt_or_eq.1 hch with hlt | rfl
  · refine (hdone ch hlt).congr ?_
    rw [State.reg_dacCopy, State.reg_dacSet_ne _ (actDacActive_ne (by omega) hn (by omega))]
  · exact State.isShadow_dacCopy hline

/-- A strobe copies, counts, and then samples: samples write ACT_STATUS and its counter alone. -/
theorem State.lineOnly_samples (u : State) : u.LineOnly ((List.range 8).foldl State.dacSample u) clipRegs :=
  State.foldl_induction (P := fun t => u.LineOnly t clipRegs) (State.LineOnly.refl u _) fun t ht ch _ =>
    ht.trans (t.lineOnly_dacSample ch)

theorem State.dacStrobe_eq (s : State) :
    s.dacStrobe = (List.range 8).foldl State.dacSample (s.allCopied.count R.actDacStrobes) := rfl

theorem actDacActive_not_mem_clipRegs (ch : Nat) : R.actDacActive ch ∉ clipRegs := by
  simp only [clipRegs, R.actDacActive, R.actStatus, R.actDclipEvt, List.mem_cons, List.not_mem_nil, or_false]
  omega

theorem actDacActive_ne_strobes (ch : Nat) : R.actDacActive ch ≠ R.actDacStrobes := by
  simp only [R.actDacActive, R.actDacStrobes]
  omega

theorem State.dacStrobe_spec (s : State) : s.dacStrobe.reg R.actDacStrobes = satInc (s.reg R.actDacStrobes) 1 ∧
    (∀ ch, ch < 8 → s.IsShadow s.dacStrobe ch) ∧ s.dacStrobe = { s with regs := s.dacStrobe.regs, lck := s.dacStrobe.lck } := by
  obtain ⟨hline, hcopied⟩ := s.allCopied_spec
  have hsamples := (s.allCopied.count R.actDacStrobes).lineOnly_samples
  have hcount := (State.LineOnly.refl s.allCopied [R.actDacStrobes]).count (List.mem_singleton_self _) 1
  rw [← State.dacStrobe_eq] at hsamples
  refine ⟨?_, fun ch hch => (hcopied ch hch).congr ?_, ?_⟩
  · rw [hsamples.regs _ (by decide), State.reg_count_self, hline.regs _ (by decide)]
  · rw [hsamples.regs _ (actDacActive_not_mem_clipRegs ch), State.reg_count_ne _ (actDacActive_ne_strobes ch)]
  · have hcopyCount : s.LineOnly (s.allCopied.count R.actDacStrobes) (activeRegs ++ R.actDacStrobes :: clipRegs) :=
      (hline.mono fun _ h => List.mem_append_left _ h).trans (hcount.mono (by simp))
    exact (hcopyCount.trans (hsamples.mono fun _ h => List.mem_append_right _ (List.mem_cons_of_mem _ h))).units

/-! ### Modulators (R324) -/

/-- A modulator that starts has its sine bit clear. -/
theorem State.sine_dacStart_self (s : State) (ch : Nat) :
    (s.dacStart ch).getF (R.actDacActive ch) F.actDacActiveSine = 0 := State.getF_setF_self _ _ _ _ (by decide)

theorem State.reg_dacStart_ne (s : State) {ch a : Nat} (h : a ≠ R.actDacActive ch) : (s.dacStart ch).reg a = s.reg a := by
  rw [State.dacStart, State.reg_setF_ne _ _ _ h, State.reg_setF_ne _ _ _ h, State.reg_setF_ne _ _ _ h]

theorem State.writesOnly_dacStart (s : State) (h : ch < 8) : s.WritesOnly (s.dacStart ch) activeRegs :=
  (((State.WritesOnly.refl s _).setF (actDacActive_mem h) _ _).setF (actDacActive_mem h) _ _).setF (actDacActive_mem h) _ _

/-- Once clear, a sine bit stays clear while other modulators start. -/
theorem State.sine_dacStarts_of_clear {a : Nat} {l : List Nat} (h : s.getF a F.actDacActiveSine = 0) :
    (l.foldl State.dacStart s).getF a F.actDacActiveSine = 0 := by
  refine State.foldl_induction (P := fun u => u.getF a F.actDacActiveSine = 0) h fun u hu k _ => ?_
  by_cases hk : a = R.actDacActive k
  · rw [hk]; exact State.sine_dacStart_self u k
  · exact (State.getF_congr (State.reg_dacStart_ne u hk) _).trans hu

theorem State.sine_dacStarts_of_mem {l : List Nat} (h : ch ∈ l) :
    (l.foldl State.dacStart s).getF (R.actDacActive ch) F.actDacActiveSine = 0 := by
  induction l generalizing s with
  | nil => exact absurd h List.not_mem_nil
  | cons k l ih =>
    rw [List.foldl_cons]
    by_cases hk : ch = k
    · subst hk; exact State.sine_dacStarts_of_clear (s.sine_dacStart_self ch)
    · exact ih ((List.mem_cons.1 h).resolve_left hk)

/-- The modulators that a write of ACT_DAC_CTRL.run starts. -/
def State.started (s : State) (run : Nat) : List Nat := (List.range 8).filter (fun ch => bit run ch && !s.dacRuns ch)

/-- They have started, and ACT_DAC_CTRL.run is written. -/
def State.runWritten (s : State) (run : Nat) : State :=
  ((s.started run).foldl State.dacStart s).setF R.actDacCtrl F.actDacCtrlRun run

theorem State.dacRun_eq (s : State) (run : Nat) : s.dacRun run = (s.runWritten run).refreshHold := rfl

theorem State.writesOnly_starts (s : State) (run : Nat) : s.WritesOnly ((s.started run).foldl State.dacStart s) activeRegs :=
  State.foldl_induction (P := fun u => s.WritesOnly u activeRegs) (State.WritesOnly.refl s _) fun u hu _ hch =>
    hu.trans (u.writesOnly_dacStart (List.mem_range.1 (List.mem_filter.1 hch).1))

theorem State.writesOnly_runWritten (s : State) (run : Nat) : s.WritesOnly (s.runWritten run) (R.actDacCtrl :: activeRegs) :=
  ((s.writesOnly_starts run).mono fun _ h => List.mem_cons_of_mem _ h).setF List.mem_cons_self _ _

theorem State.run_runWritten (s : State) {run : Nat} (h : run < 2 ^ 8) :
    (s.runWritten run).getF R.actDacCtrl F.actDacCtrlRun = run := by
  rw [State.runWritten, State.getF_setF_self _ _ _ _ (by decide)]
  exact Nat.mod_eq_of_lt h

end

/-- Settles O30: a strobe copies every channel before it counts, and a write of `run` starts modulators before the hold path is
renewed. -/
theorem dacChannels : Obligations.DacChannels := by
  intro s
  refine ⟨⟨s.dacStrobe, rfl, s.dacStrobe_spec⟩, fun run => ⟨s.dacRun run.toNat, rfl, ?_, fun ch hch => ?_, fun ch hch hrun hstood => ?_, ?_⟩⟩
  all_goals
    obtain ⟨hwrites, hhold⟩ := (s.runWritten run.toNat).refreshHold_spec
    rw [State.dacRun_eq]
  · rw [State.getF_congr (hwrites.regs _ actDacCtrl_not_mem_activeRegs), State.run_runWritten s run.isLt]
  · have hsafe : (s.runWritten run.toNat).inSafe = s.inSafe :=
      State.inSafe_congr ((s.writesOnly_runWritten run.toNat).regs _ (by decide))
    rw [hhold ch hch, hsafe, State.dacRuns, State.run_runWritten s run.isLt]
  · have hmem : ch ∈ s.started run.toNat := List.mem_filter.2 ⟨List.mem_range.2 hch, by rw [hrun, hstood]; rfl⟩
    have hne : R.actDacActive ch ≠ R.actDacCtrl := by simp only [R.actDacActive, R.actDacCtrl]; omega
    rw [State.isSet, State.getF_refreshHold _ _ _ (by decide), State.runWritten, State.getF_setF_ne _ _ _ _ hne,
      State.sine_dacStarts_of_mem hmem]
    rfl
  · exact (s.writesOnly_runWritten run.toNat).only.trans hwrites.only

end Sys2Proof.Machine
end


section
/-! PROOF. The ports (R333 to R346): what writing a port, a change of its state, TRAIN and DISCOVER leave of the registers and
of the port, what a frame that is delivered does, and O31 to O34 and O36. -/

namespace Sys2Proof.Machine

/-! ### Writing a port -/

section
variable (s : State) (p : Nat) (q : PortSt)

theorem State.port_congr {s u : State} (h : u.prt = s.prt) (p : Nat) : u.port p = s.port p := by simp only [State.port, h]

@[simp] theorem State.port_setPort_self : (s.setPort p q).port p = q := Tab.getD_set_self _ _ _ _

@[simp] theorem State.reg_setPort (a : Nat) : (s.setPort p q).reg a = s.reg a := rfl

@[simp] theorem State.getF_setPort (a : Nat) (f : Field) : (s.setPort p q).getF a f = s.getF a f := rfl

@[simp] theorem State.isSet_setPort (a : Nat) (f : Field) : (s.setPort p q).isSet a f = s.isSet a f := rfl

@[simp] theorem State.timeUs_setPort : (s.setPort p q).timeUs = s.timeUs := rfl

@[simp] theorem State.wire_setPort : (s.setPort p q).wire = s.wire := rfl

@[simp] theorem State.portState_setPort : (s.setPort p q).portState p = s.portState p := rfl

@[simp] theorem State.attached_setPort : (s.setPort p q).attached p = s.attached p := rfl

@[simp] theorem State.port_setF (a : Nat) (f : Field) (v : Nat) : (s.setF a f v).port p = s.port p :=
  State.port_congr (State.setF_prt s a f v) p

@[simp] theorem State.port_setReg (a : Nat) (v : Word) : (s.setReg a v).port p = s.port p :=
  State.port_congr (State.setReg_prt s a v) p

@[simp] theorem State.port_setNat (a v : Nat) : (s.setNat a v).port p = s.port p := State.port_setReg s p a _

@[simp] theorem State.port_count (a n : Nat) : (s.count a n).port p = s.port p := State.port_setReg s p a _

@[simp] theorem State.port_raise (a : Nat) (f : Field) (e : Nat) : (s.raise a f e).port p = s.port p :=
  State.port_congr (State.raise_prt s a f e) p

@[simp] theorem State.port_report (src code rep d : Nat) : (s.report src code rep d).port p = s.port p :=
  State.port_congr (State.report_prt s src code rep d) p

end

theorem State.regsBut.setPort {s u : State} {l : List Nat} (h : s.regsBut u l) (p : Nat) (q : PortSt) :
    s.regsBut (u.setPort p q) l := h

theorem State.portState_congr {s u : State} {p : Nat} (h : u.reg (R.prtState p) = s.reg (R.prtState p)) :
    u.portState p = s.portState p := State.getF_congr h _

theorem State.attached_congr {s u : State} {p : Nat} (h : u.reg (R.prtState p) = s.reg (R.prtState p)) :
    u.attached p = s.attached p := by rw [State.attached, State.portState_congr h, ← State.attached]

theorem State.attached_iff {s : State} {p : Nat} : s.attached p = true ↔ s.portState p = 4 := beq_iff_eq

/-- The registers of a port lie apart. -/
theorem prtState_ne (p : Nat) : R.prtState p ≠ R.prtCtrl p ∧ R.prtState p ≠ R.prtPartnerFw p ∧ R.prtState p ≠ R.prtStatus p ∧
    R.prtState p ≠ R.prtDetEvt p ∧ R.prtState p ≠ R.prtRefEvt p := by
  simp only [R.prtState, R.prtCtrl, R.prtPartnerFw, R.prtStatus, R.prtDetEvt, R.prtRefEvt]
  omega

/-- No register of a port is one that a report writes. -/
theorem prtRegs_report (p : Nat) : ∀ a ∈ [R.prtState p, R.prtCtrl p, R.prtPartnerFw p, R.prtStatus p, R.prtDetEvt p],
    a ≠ R.fltOpen ∧ a ≠ R.fltStatus ∧ a ≠ R.fltNewsrcEvt ∧ a ≠ R.fltOvfEvt := by
  intro a ha
  simp only [List.mem_cons, List.not_mem_nil, or_false, R.prtState, R.prtCtrl, R.prtPartnerFw, R.prtStatus, R.prtDetEvt] at ha
  simp only [R.fltOpen, R.fltStatus, R.fltNewsrcEvt, R.fltOvfEvt]
  omega

/-! ### A change of state (R333) -/

section
variable (s : State) (p : Nat)

theorem State.setPortState_eq (st : Nat) : s.setPortState p st =
    (s.setF (R.prtState p) F.prtStateState st).setPort p { s.port p with since := s.timeUs } := by
  rw [State.setPortState, State.port_setF, State.setF_timeUs]

theorem State.regsBut_setPortState (st : Nat) : s.regsBut (s.setPortState p st) [R.prtState p] := by
  rw [State.setPortState_eq]
  exact ((State.regsBut.refl s _).setF (List.mem_singleton_self _) _ _).setPort p _

@[simp] theorem State.port_setPortState (st : Nat) : (s.setPortState p st).port p = { s.port p with since := s.timeUs } := by
  rw [State.setPortState_eq, State.port_setPort_self]

@[simp] theorem State.timeUs_setPortState (st : Nat) : (s.setPortState p st).timeUs = s.timeUs := by
  rw [State.setPortState_eq, State.timeUs_setPort, State.setF_timeUs]

@[simp] theorem State.wire_setPortState (st : Nat) : (s.setPortState p st).wire = s.wire := by
  rw [State.setPortState_eq, State.wire_setPort, State.setF_wire]

theorem State.portState_setPortState {st : Nat} (h : st < 8) : (s.setPortState p st).portState p = st := by
  rw [State.setPortState_eq, State.portState_setPort, State.portState, State.getF_setF_self _ _ _ _ (by decide)]
  exact Nat.mod_eq_of_lt h

/-! ### TRAIN -/

/-- TRAIN forgets the partner in the registers. -/
def State.trainRegs : State :=
  ((s.setPortState p 1).setF (R.prtState p) F.prtStateKind 0).setReg (R.prtPartnerFw p) 0

theorem State.enterTrain_eq : ∃ q : PortSt, s.enterTrain p = (s.trainRegs p).setPort p q ∧ q.since = s.timeUs ∧
    q.fails = (s.port p).fails := by
  have hport : (s.trainRegs p).port p = { s.port p with since := s.timeUs } := by
    rw [State.trainRegs, State.port_setReg, State.port_setF, State.port_setPortState]
  exact ⟨_, rfl, congrArg PortSt.since hport, (congrArg PortSt.fails hport :)⟩

theorem State.regsBut_enterTrain : s.regsBut (s.enterTrain p) [R.prtState p, R.prtPartnerFw p] := by
  obtain ⟨q, heq, -⟩ := s.enterTrain_eq p
  rw [heq]
  exact ((((s.regsBut_setPortState p 1).mono (by simp)).setF (by simp) _ _).setReg (by simp) _).setPort p q

theorem State.portState_enterTrain : (s.enterTrain p).portState p = 1 := by
  obtain ⟨q, heq, -⟩ := s.enterTrain_eq p
  rw [heq, State.portState_setPort, State.trainRegs, State.portState, State.getF_setReg_ne _ _ _ (prtState_ne p).2.1,
    State.getF_setF_field _ _ _ _ _ (by decide) (by decide)]
  exact s.portState_setPortState p (by decide)

theorem State.port_enterTrain : ((s.enterTrain p).port p).since = s.timeUs ∧ ((s.enterTrain p).port p).fails = (s.port p).fails := by
  obtain ⟨q, heq, hsince, hfails⟩ := s.enterTrain_eq p
  rw [heq, State.port_setPort_self]
  exact ⟨hsince, hfails⟩

theorem State.portEn_enterTrain : (s.enterTrain p).portEn p = s.portEn p := by
  rw [State.portEn, State.isSet, State.getF_congr (s.regsBut_enterTrain p _ ?_), ← State.isSet, ← State.portEn]
  simp only [R.prtCtrl, R.prtState, R.prtPartnerFw, List.mem_cons, List.not_mem_nil, or_false]
  omega

/-! ### DISCOVER (R334) -/

/-- A frame that is put changes the transmit side of its port. -/
theorem State.port_putFrame (t : Nat) (payload ext : Bytes) : ∃ txs, (s.putFrame p t payload ext).port p =
    { s.port p with txs := txs, lastTxAt := s.timeUs } := ⟨_, State.port_setPort_self _ _ _⟩

theorem State.sendAccession_spec : ∃ f, (s.sendAccession p).wire = .tx f :: s.wire ∧ f.port = p ∧ f.type = 1 ∧
    ((s.sendAccession p).port p).accAt = s.timeUs ∧ (s.sendAccession p).regs = s.regs ∧
    ((s.sendAccession p).port p).recOk = (s.port p).recOk ∧ (s.sendAccession p).portState p = s.portState p := by
  obtain ⟨f, hwire, hport, htype, -⟩ := s.putFrame_wire p 0x01 (s.ownRecord p) []
  obtain ⟨txs, htx⟩ := s.port_putFrame p 0x01 (s.ownRecord p) []
  refine ⟨f, hwire, hport, htype, ?_, rfl, ?_, rfl⟩
  · rw [State.sendAccession, State.port_setPort_self]
    rfl
  · rw [State.sendAccession, State.port_setPort_self, htx]

/-- The port is in DISCOVER, and nothing of a former discovery stands. -/
def State.discovering : State :=
  (s.setPortState p 3).setPort p { (s.setPortState p 3).port p with recOk := false, ackOk := false, held := [] }

/-- DISCOVER with no record held sends Krein's own. -/
theorem State.enterDiscover_of_none (h : (s.port p).held = []) : s.enterDiscover p = (s.discovering p).sendAccession p := by
  have hheld : ((s.setPortState p 3).port p).held = [] := by rw [State.port_setPortState]; exact h
  rw [State.enterDiscover, hheld]
  rfl

theorem State.enterDiscover_spec (h : (s.port p).held = []) : ∃ f, (s.enterDiscover p).portState p = 3 ∧
    (s.enterDiscover p).wire = .tx f :: s.wire ∧ f.port = p ∧ f.type = 1 ∧ ((s.enterDiscover p).port p).recOk = false := by
  obtain ⟨f, hwire, hport, htype, -, -, hrec, hstate⟩ := (s.discovering p).sendAccession_spec p
  refine ⟨f, ?_, ?_, hport, htype, ?_⟩
  · rw [s.enterDiscover_of_none p h, hstate]
    exact s.portState_setPortState p (by decide)
  · rw [s.enterDiscover_of_none p h, hwire, State.discovering, State.wire_setPort, State.wire_setPortState]
  · rw [s.enterDiscover_of_none p h, hrec, State.discovering, State.port_setPort_self]

end

/-! ### Enable, disable and the time-outs of training (R333) -/

section
variable {s : State} {p : Nat}

theorem State.portSince_of {st us : Nat} (hst : s.portState p = st) (hus : (s.port p).since + us ≤ s.timeUs) :
    s.portSince p st us = true := by
  rw [State.portSince, hst, beq_self_eq_true, decide_eq_true hus]
  rfl

/-- The three registers that enabling and disabling write. -/
def enableRegs (p : Nat) : List Nat := [R.prtCtrl p, R.prtState p, R.prtPartnerFw p]

/-- PRT_CTRL.en is set, and the failures are counted anew. -/
def State.enabled (s : State) (p : Nat) : State :=
  (s.setF (R.prtCtrl p) F.prtCtrlEn 1).setPort p { (s.setF (R.prtCtrl p) F.prtCtrlEn 1).port p with fails := 0 }

theorem State.enablePort_of_down (hon : s.domOn (52 + p) = true) (hdown : s.portState p = 0) :
    s.enablePort p = (s.enabled p).enterTrain p := by
  have hstate : (s.setF (R.prtCtrl p) F.prtCtrlEn 1).portState p = 0 :=
    (State.portState_congr (State.reg_setF_ne s _ _ (prtState_ne p).1)).trans hdown
  rw [State.enablePort, if_pos hon]
  exact if_pos hstate

theorem State.regsBut_enabled (s : State) (p : Nat) : s.regsBut ((s.enabled p).enterTrain p) (enableRegs p) :=
  (((State.regsBut.refl s _).setF (by simp [enableRegs]) _ _).setPort p _).trans
    ((State.regsBut_enterTrain _ p).mono (by simp [enableRegs]))

theorem State.portEn_enabled (s : State) (p : Nat) : ((s.enabled p).enterTrain p).portEn p = true := by
  rw [State.portEn_enterTrain, State.enabled, State.portEn, State.isSet_setPort, State.isSet_setF_self _ _ _ _ (by decide)]
  rfl

/-- Disabling a port that has no partner. -/
theorem State.disablePort_of_detached (hatt : s.attached p = false) :
    s.disablePort p = (((s.setF (R.prtCtrl p) F.prtCtrlEn 0).enterTrain p).setPortState p 0) := by
  have hatt' : (s.setF (R.prtCtrl p) F.prtCtrlEn 0).attached p = false :=
    (State.attached_congr (State.reg_setF_ne s _ _ (prtState_ne p).1)).trans hatt
  have hdetach : (s.setF (R.prtCtrl p) F.prtCtrlEn 0).detach p 5 = s.setF (R.prtCtrl p) F.prtCtrlEn 0 :=
    if_neg (Bool.eq_false_iff.1 hatt')
  rw [State.disablePort, hatt, if_neg Bool.false_ne_true, hdetach]

theorem State.disabled_spec (s : State) (p : Nat) :
    let t := ((s.setF (R.prtCtrl p) F.prtCtrlEn 0).enterTrain p).setPortState p 0
    t.portEn p = false ∧ t.portState p = 0 ∧ s.regsBut t (enableRegs p) := by
  refine ⟨?_, State.portState_setPortState _ p (by decide), ?_⟩
  · have hne : R.prtCtrl p ∉ [R.prtState p] := by simpa using (prtState_ne p).1.symm
    rw [State.portEn, State.isSet, State.getF_congr (State.regsBut_setPortState _ p 0 _ hne), ← State.isSet, ← State.portEn,
      State.portEn_enterTrain, State.portEn, State.isSet_setF_self _ _ _ _ (by decide)]
    rfl
  · exact (((State.regsBut.refl s _).setF (by simp [enableRegs]) _ _).trans
      ((State.regsBut_enterTrain _ p).mono (by simp [enableRegs]))).trans
      ((State.regsBut_setPortState _ p 0).mono (by simp [enableRegs]))

/-- Block lock leaves TRAIN for ALIGN with every lane up. -/
def State.locked (s : State) (p : Nat) : State :=
  (s.setPortState p 2).setF (R.prtState p) F.prtStateLanesUp (2 ^ portLanes p - 1)

theorem State.gotLock_of_train (h : s.portState p = 1) :
    s.gotLock p = (s.locked p).setPort p { (s.locked p).port p with fails := 0 } := if_pos h

theorem portLanes_le (p : Nat) : portLanes p ≤ 8 := by
  unfold portLanes
  split
  · decide
  · split
    · decide
    · decide

theorem State.locked_spec (s : State) (p : Nat) : (s.locked p).portState p = 2 ∧
    (s.locked p).getF (R.prtState p) F.prtStateLanesUp = 2 ^ portLanes p - 1 ∧ s.regsBut (s.locked p) [R.prtState p] := by
  refine ⟨?_, ?_, ((s.regsBut_setPortState p 2).mono (by simp)).setF (by simp) _ _⟩
  · rw [State.locked, State.portState, State.getF_setF_field _ _ _ _ _ (by decide) (by decide)]
    exact s.portState_setPortState p (by decide)
  · have hlt : 2 ^ portLanes p - 1 < 2 ^ F.prtStateLanesUp.width := by
      have hle : 2 ^ portLanes p ≤ 2 ^ 8 := Nat.pow_le_pow_right (by decide) (portLanes_le p)
      have hpos : 0 < 2 ^ portLanes p := Nat.two_pow_pos _
      have hwidth : F.prtStateLanesUp.width = 8 := rfl
      rw [hwidth]
      omega
    rw [State.locked, State.getF_setF_self _ _ _ _ (by decide), Nat.mod_eq_of_lt hlt]

/-- A failed training is counted, and TRAIN begins anew. -/
def State.retrain (s : State) (p : Nat) : State :=
  (s.setPort p { s.port p with fails := (s.port p).fails + 1 }).enterTrain p

theorem State.trainLate_of_due (hst : s.portState p = 1) (hus : (s.port p).since + 2000 ≤ s.timeUs) : s.trainLate p =
    if (s.port p).fails + 1 = 10 then (s.retrain p).report (Src.port p) E.prtTrainFail (Rep.port p) else s.retrain p :=
  if_pos (State.portSince_of hst hus)

theorem State.retrain_spec (s : State) (p : Nat) : (s.retrain p).portState p = 1 ∧ ((s.retrain p).port p).since = s.timeUs ∧
    ((s.retrain p).port p).fails = (s.port p).fails + 1 := by
  obtain ⟨hsince, hfails⟩ := (s.setPort p { s.port p with fails := (s.port p).fails + 1 }).port_enterTrain p
  refine ⟨State.portState_enterTrain _ p, hsince, ?_⟩
  rw [State.retrain, hfails, State.port_setPort_self]

theorem State.portState_report (s : State) (p src code rep d : Nat) : (s.report src code rep d).portState p = s.portState p :=
  State.portState_congr (State.reg_report _ _ _ _ _ (prtRegs_report p _ (by simp)))

end

/-- Settles O31: each row leaves its state for the one that R333 names. -/
theorem portTraining : Obligations.PortTraining := by
  intro s p
  refine ⟨fun hon => ⟨fun hdown => ?enable, fun hatt => ?disable⟩, fun hst => ?lock, fun hst hus => ?late, fun hst hheld => ?deskew,
    fun hst hus => ?align, fun hst hus => ?discover, fun hst hus hheld => ?refused, fun hst hrec hus => ?again⟩
  case enable =>
    obtain ⟨hsince, hfails⟩ := (s.enabled p).port_enterTrain p
    refine ⟨_, congrArg Host.Outcome.next (State.enablePort_of_down hon hdown), s.portEn_enabled p, State.portState_enterTrain _ p,
      ?_, ?_, s.regsBut_enabled p⟩
    · rw [hfails, State.enabled, State.port_setPort_self]
    · rw [hsince, State.enabled, State.timeUs_setPort, State.setF_timeUs]
  case disable =>
    exact ⟨_, congrArg Host.Outcome.next ((if_pos hon).trans (State.disablePort_of_detached hatt)), s.disabled_spec p⟩
  case lock =>
    obtain ⟨hstate, hlanes, hregs⟩ := s.locked_spec p
    refine ⟨_, congrArg Host.Outcome.next (State.gotLock_of_train hst), hstate, ?_, hlanes, hregs⟩
    rw [State.port_setPort_self]
  case late =>
    obtain ⟨hstate, hsince, hfails⟩ := s.retrain_spec p
    refine ⟨_, congrArg Host.Outcome.next (State.trainLate_of_due hst hus), ?_⟩
    split
    · rw [State.portState_report, State.port_report]
      exact ⟨hstate, hsince, hfails⟩
    · exact ⟨hstate, hsince, hfails⟩
  case deskew =>
    obtain ⟨f, hspec⟩ := s.enterDiscover_spec p hheld
    exact ⟨_, f, congrArg Host.Outcome.next (if_pos hst), hspec⟩
  case align =>
    exact ⟨_, congrArg Host.Outcome.next (if_pos (State.portSince_of hst hus)), s.portState_enterTrain p⟩
  case discover =>
    exact ⟨_, congrArg Host.Outcome.next (if_pos (State.portSince_of hst hus)), s.portState_enterTrain p⟩
  case refused =>
    obtain ⟨f, hstate, -⟩ := s.enterDiscover_spec p hheld
    exact ⟨_, congrArg Host.Outcome.next (if_pos (State.portSince_of hst hus)), hstate⟩
  case again =>
    obtain ⟨f, hwire, hport, htype, hacc, hregs, -⟩ := s.sendAccession_spec p
    exact ⟨_, f, congrArg Host.Outcome.next (if_pos ⟨hst, hrec, hus⟩), hwire, hport, htype, hacc, hregs⟩

end Sys2Proof.Machine
end


section
/-! PROOF. Frames that the ports receive (R334 to R346): accession, detach, KEEPALIVE, the header check and the partners'
messages, and O32, O33, O34 and O36. -/

namespace Sys2Proof.Machine

section
variable {s u : State} {p : Nat} {f : Frame} {bs : Bytes}

/-- A message of its own type is what the frame delivers. -/
theorem State.rxType_of_type {t : Nat} (htype : f.hdr.type.toNat = t) : s.rxType p t f = s.rxFrame p f := if_pos htype

/-! ### Accession (R334, R336) -/

theorem State.rxAccession_of_record (hst : s.portState p = 3) (htype : f.hdr.type.toNat = 1)
    (hrx : s.rxFrame p f = (u, some bs)) (hrec : (u.port p).recOk = false) : s.rxAccession p f = u.gotRecord p bs := by
  rw [State.rxAccession, if_pos hst, State.rxType_of_type htype, hrx]
  exact if_neg (Bool.eq_false_iff.1 hrec)

theorem State.portState_refuse (s : State) (p code : Nat) : (s.refuse p code).portState p = 5 :=
  State.portState_setPortState _ p (by decide)

/-- A record that fails a check refuses the port. -/
theorem State.portState_gotRecord_of_bad (h : u.checkRecord p bs ≠ 0) : (u.gotRecord p bs).portState p = 5 := by
  rw [State.gotRecord, if_neg h]
  exact State.portState_refuse _ p _

theorem State.rxAck_of_message (hst : s.portState p = 3) (htype : f.hdr.type.toNat = 2) (hrx : s.rxFrame p f = (u, some bs)) :
    s.rxAck p f = if leAt bs 0 2 = 0 then (u.setPort p { u.port p with ackOk := true }).tryAttach p
      else u.refuse p (leAt bs 0 2) := by
  rw [State.rxAck, if_pos hst, State.rxType_of_type htype, hrx]

/-- The partner's kind, the count of attachments and its firmware are in the registers. -/
def State.attachRegs (s : State) (p : Nat) : State :=
  (((s.setPortState p 4).setF (R.prtState p) F.prtStateKind (leAt (s.port p).record 6 1)).countF (R.prtState p)
    F.prtStateAttachCount).setNat (R.prtPartnerFw p) (leAt (s.port p).record 0x38 4)

theorem State.attach_eq (s : State) (p : Nat) : s.attach p = (s.attachRegs p).setPort p
    { (s.attachRegs p).port p with last := some (takeAt (s.port p).record 0x28 16, leAt (s.port p).record 0x38 4),
                                   lastRxAt := (s.attachRegs p).timeUs } := rfl

theorem State.attach_spec (s : State) (p : Nat) : (s.attach p).portState p = 4 ∧
    (s.attach p).getF (R.prtState p) F.prtStateKind = leAt (s.port p).record 6 1 % 2 ^ F.prtStateKind.width ∧
    ((s.attach p).port p).lastRxAt = s.timeUs := by
  have hne := (prtState_ne p).2.1
  rw [State.attach_eq]
  refine ⟨?_, ?_, ?_⟩
  · rw [State.portState_setPort, State.attachRegs, State.portState, State.getF_setNat_ne _ _ _ hne, State.countF,
      State.getF_setF_field _ _ _ _ _ (by decide) (by decide), State.getF_setF_field _ _ _ _ _ (by decide) (by decide)]
    exact s.portState_setPortState p (by decide)
  · rw [State.getF_setPort, State.attachRegs, State.getF_setNat_ne _ _ _ hne, State.countF,
      State.getF_setF_field _ _ _ _ _ (by decide) (by decide), State.getF_setF_self _ _ _ _ (by decide)]
  · rw [State.port_setPort_self, State.attachRegs, State.setNat_timeUs, State.countF, State.setF_timeUs, State.setF_timeUs,
      State.timeUs_setPortState]

/-- The acknowledgement attaches a port whose record stands. -/
theorem State.tryAttach_of_record (hrec : (u.port p).recOk = true) :
    (u.setPort p { u.port p with ackOk := true }).tryAttach p = (u.setPort p { u.port p with ackOk := true }).attach p := by
  have hboth : (((u.setPort p { u.port p with ackOk := true }).port p).recOk &&
      ((u.setPort p { u.port p with ackOk := true }).port p).ackOk) = true := by
    rw [State.port_setPort_self, hrec]
    rfl
  exact if_pos hboth

end

/-- Settles O32: a delivered record is judged, and a delivered acknowledgement attaches or refuses. -/
theorem portAccession : Obligations.PortAccession := by
  intro s u p f bs hst hrx
  refine ⟨fun htype hrec => ?record, fun htype hcode hrec => ?accepted, fun htype hcode => ?refused⟩
  case record =>
    exact ⟨_, congrArg Host.Outcome.next (State.rxAccession_of_record hst (by rw [htype]; rfl) hrx hrec), rfl,
      State.portState_gotRecord_of_bad⟩
  case accepted =>
    have hack := (State.rxAck_of_message hst (by rw [htype]; rfl) hrx).trans (if_pos hcode)
    rw [State.tryAttach_of_record hrec] at hack
    obtain ⟨hstate, hkind, hlast⟩ := (u.setPort p { u.port p with ackOk := true }).attach_spec p
    rw [State.port_setPort_self] at hkind
    exact ⟨_, congrArg Host.Outcome.next hack, hstate, hkind, hlast⟩
  case refused =>
    have hack := (State.rxAck_of_message hst (by rw [htype]; rfl) hrx).trans (if_neg hcode)
    exact ⟨_, congrArg Host.Outcome.next hack, State.portState_refuse u p _⟩

/-! ### Detach (R343, R344) -/

section
variable {s u : State} {p : Nat} {f : Frame} {bs : Bytes}

theorem State.lockLost_of_attached (hatt : s.attached p = true) {up : Nat}
    (hup : Nat.land up (2 ^ portLanes p - 1) ≠ 2 ^ portLanes p - 1) : s.lockLost p up =
      (s.setF (R.prtState p) F.prtStateLanesUp (Nat.land up (2 ^ portLanes p - 1))).detach p 1 := by
  have hst := State.attached_iff.1 hatt
  have hgo : ¬ (Nat.land up (2 ^ portLanes p - 1) = 2 ^ portLanes p - 1 ∨ s.portState p < 2) := by
    rw [hst]
    exact not_or.2 ⟨hup, by decide⟩
  have hatt' : (s.setF (R.prtState p) F.prtStateLanesUp (Nat.land up (2 ^ portLanes p - 1))).attached p = true := by
    rw [State.attached_iff, State.portState, State.getF_setF_field _ _ _ _ _ (by decide) (by decide)]
    exact hst
  exact (if_neg hgo).trans (if_pos hatt')

theorem State.keepTimeout_of_due (hatt : s.attached p = true) (hus : (s.port p).lastRxAt + s.keepUs p ≤ s.timeUs) :
    (s.attached p && decide ((s.port p).lastRxAt + s.keepUs p ≤ s.timeUs)) = true := by
  rw [hatt, decide_eq_true hus]
  rfl

/-- The detach of an attached partner on an enabled peer port, once it is counted and reported, is a new TRAIN. -/
def State.detachNoted (s : State) (p d : Nat) : State :=
  (s.raise (R.prtStatus p) F.prtStatusDetach (R.prtDetEvt p)).report (Src.port p) E.prtDetached (Rep.fw 3) d

theorem prtCtrl_not_mem (p : Nat) : R.prtCtrl p ≠ R.prtStatus p ∧ R.prtCtrl p ≠ R.prtDetEvt p ∧ R.prtStatus p ≠ R.prtDetEvt p ∧
    R.prtStatus p ∉ [R.prtState p, R.prtPartnerFw p] ∧ R.prtDetEvt p ∉ [R.prtState p, R.prtPartnerFw p] := by
  simp only [R.prtCtrl, R.prtStatus, R.prtDetEvt, R.prtState, R.prtPartnerFw, List.mem_cons, List.not_mem_nil, or_false]
  omega

theorem State.portEn_detachNoted (s : State) (p d : Nat) : (s.detachNoted p d).portEn p = s.portEn p := by
  obtain ⟨hstatus, hevt, -⟩ := prtCtrl_not_mem p
  rw [State.portEn, State.detachNoted, State.isSet_report _ _ _ _ _ _ (prtRegs_report p _ (by simp)),
    State.isSet_raise_ne _ _ _ _ _ hstatus hevt, ← State.portEn]

theorem State.detach_of_peer (hpeer : p = 4 ∨ p = 5) (hatt : s.attached p = true) (hen : s.portEn p = true) (cause : Nat) :
    s.detach p cause = (s.detachNoted p (cause + 65536 * 0)).enterTrain p := by
  have hen' : ((s.detachNoted p (cause + 65536 * 0)).enterTrain p).portEn p = true := by
    rw [State.portEn_enterTrain, State.portEn_detachNoted, hen]
  have heffects (t : State) : t.detachEffects p = t :=
    (if_neg (show ¬ p < 4 by omega)).trans (if_pos (show p < 6 by omega))
  rw [State.detach, if_pos hatt]
  refine (heffects _).trans ?_
  exact if_pos hen'

theorem State.detachNoted_spec (s : State) (p d : Nat) :
    ((s.detachNoted p d).enterTrain p).isSet (R.prtStatus p) F.prtStatusDetach = true ∧
    ((s.detachNoted p d).enterTrain p).reg (R.prtDetEvt p) = satInc (s.reg (R.prtDetEvt p)) 1 := by
  obtain ⟨-, -, hne, hstatus, hevt⟩ := prtCtrl_not_mem p
  refine ⟨?_, ?_⟩
  · rw [State.isSet, State.getF_congr (State.regsBut_enterTrain _ p _ hstatus), ← State.isSet, State.detachNoted,
      State.isSet_report _ _ _ _ _ _ (prtRegs_report p _ (by simp))]
    exact State.isSet_raise_self _ _ _ _ hne (by decide) (by decide)
  · rw [State.regsBut_enterTrain _ p _ hevt, State.detachNoted, State.reg_report _ _ _ _ _ (prtRegs_report p _ (by simp)),
      State.reg_raise_evt _ _ _ _ hne.symm]

end

/-- Settles O33: each cause leads to `detach`, which on a peer port is a new TRAIN. -/
theorem portDetaches : Obligations.PortDetaches := by
  intro s p hatt
  refine ⟨fun up hup => congrArg Host.Outcome.next (State.lockLost_of_attached hatt hup),
    fun hus => congrArg Host.Outcome.next (if_pos (State.keepTimeout_of_due hatt hus)), fun f u bs htype hrx => ?message,
    fun hpeer hen hus => ?peer⟩
  case message =>
    have hdetach : s.rxDetach p f = u.detach p 3 (leAt bs 0 2) := by
      rw [State.rxDetach, if_pos hatt, State.rxType_of_type (by rw [htype]; rfl), hrx]
    exact congrArg Host.Outcome.next hdetach
  case peer =>
    have hdetach := State.detach_of_peer hpeer hatt hen 2
    exact ⟨_, congrArg Host.Outcome.next ((if_pos (State.keepTimeout_of_due hatt hus)).trans hdetach),
      State.portState_enterTrain _ p, s.detachNoted_spec p _⟩

/-! ### KEEPALIVE and the header check (R338 to R340) -/

section
variable {s u : State} {p : Nat} {f : Frame} {bs : Bytes}

/-- The receive stream that a frame names. -/
def State.rxStream (s : State) (p : Nat) (f : Frame) : RxStream := (s.port p).rx.getD f.hdr.stream.toNat RxStream.init

/-- The check value of a single frame's payload. -/
def State.checkValue (s : State) (p : Nat) (f : Frame) : Nat :=
  Nat.xor (crcRun (s.port p).alg ((s.rxStream p f).seed.getD (crcInit (s.port p).alg)) f.payload) (crcXor (s.port p).alg)

/-- A single-frame message with its check value is delivered: the port hears it and counts it. -/
theorem State.rxFrame_of_single (hok : s.hdrCheck p f = .ok) (hfirst : bit f.hdr.flags.toNat 0 = true)
    (hlast : bit f.hdr.flags.toNat 1 = true) (hcv : f.cv = some (s.checkValue p f)) : ∃ rx,
    (s.rxFrame p f).1 = (s.setPort p { s.port p with lastRxAt := s.timeUs, rx := rx }).count (R.prtRxMsgs p) := by
  have hcv' : f.cv = some (Nat.xor (crcRun (s.port p).alg (((s.port p).rx.getD f.hdr.stream.toNat RxStream.init).seed.getD
      (crcInit (s.port p).alg)) f.payload) (crcXor (s.port p).alg)) := hcv
  unfold State.rxFrame
  simp only [hok, hfirst, hlast, if_true, ← hcv']
  exact ⟨_, rfl⟩

/-- A frame that fails the header check is noted on the port and raises hdr_err. -/
theorem State.rxFrame_of_hdr (hhdr : s.hdrCheck p f = .hdr) : ∃ q,
    (s.rxFrame p f).1 = (s.setPort p q).raise (R.prtStatus p) F.prtStatusHdrErr (R.prtHdrEvt p) := by
  unfold State.rxFrame
  simp only [hhdr]
  exact ⟨_, rfl⟩

theorem prtStatus_ne_hdrEvt (p : Nat) : R.prtStatus p ≠ R.prtHdrEvt p := by
  simp only [R.prtStatus, R.prtHdrEvt]
  omega

end

/-- Settles O34: a KEEPALIVE is a frame put on the port; one received is delivered or fails the header check. -/
theorem portKeepalive : Obligations.PortKeepalive := by
  intro s p hatt
  refine ⟨fun hen hus => ?sent, fun f htype hok hfirst hlast hcv => ?heard, fun f htype hhdr => ?bad⟩
  case sent =>
    have hdue : (s.attached p && decide ((s.port p).lastTxAt + 100 ≤ s.timeUs)) = true := by
      rw [hatt, decide_eq_true hus]
      rfl
    have hsend : s.sendFrame p 0x04 [] = s.putFrame p 0x04 [] := (if_pos hen).trans (if_pos hatt)
    obtain ⟨f, hwire, hport, hkind, -⟩ := s.putFrame_wire p 0x04 [] []
    obtain ⟨txs, htx⟩ := s.port_putFrame p 0x04 [] []
    exact ⟨_, f, congrArg Host.Outcome.next ((if_pos hdue).trans hsend), hwire, hport, hkind, by rw [htx], rfl⟩
  case heard =>
    obtain ⟨rx, heq⟩ := State.rxFrame_of_single hok hfirst hlast hcv
    have hrow : exec (.keepaliveReceived p f) s =
        .next ((s.setPort p { s.port p with lastRxAt := s.timeUs, rx := rx }).count (R.prtRxMsgs p)) := by
      refine congrArg Host.Outcome.next ((if_pos hatt).trans ?_)
      rw [State.rxType_of_type (by rw [htype]; rfl), heq]
    refine ⟨_, hrow, ?_, State.reg_count_self _ _ _, (((State.regsBut.refl s _).setPort p _).count (by simp) 1)⟩
    rw [State.port_count, State.port_setPort_self]
  case bad =>
    obtain ⟨q, heq⟩ := State.rxFrame_of_hdr hhdr
    have hrow : exec (.keepaliveReceived p f) s =
        .next ((s.setPort p q).raise (R.prtStatus p) F.prtStatusHdrErr (R.prtHdrEvt p)) := by
      refine congrArg Host.Outcome.next ((if_pos hatt).trans ?_)
      rw [State.rxType_of_type (by rw [htype]; rfl), heq]
    exact ⟨_, hrow, State.isSet_raise_self _ _ _ _ (prtStatus_ne_hdrEvt p) (by decide) (by decide),
      State.reg_raise_evt _ _ _ _ (prtStatus_ne_hdrEvt p).symm,
      ((State.regsBut.refl s _).setPort p q).raise (by simp) (by simp) _⟩

/-! ### Messages of the partners (R275, R315, R338) -/

/-- Settles O36: each message acts on the state that its frame leaves. -/
theorem partnerMessages : Obligations.PartnerMessages := by
  intro s u p f bs hatt hrx
  refine ⟨fun hp htype => ?line, fun hp htype => ?head, fun hp htype => ?board⟩
  case line =>
    have hgo : (s.attached p && decide (p.val < 4)) = true := by rw [hatt, decide_eq_true hp]; rfl
    refine congrArg Host.Outcome.next ?_
    rw [State.rxLine, if_pos hgo, State.rxType_of_type (by rw [htype]; rfl), hrx]
    rfl
  case head =>
    have hgo : (s.attached p && decide (p.val < 4)) = true := by rw [hatt, decide_eq_true hp]; rfl
    refine congrArg Host.Outcome.next ?_
    rw [State.rxHead, if_pos hgo, State.rxType_of_type (by rw [htype]; rfl), hrx]
  case board =>
    have hgo : (s.attached p && decide (6 ≤ p.val)) = true := by rw [hatt, decide_eq_true hp]; rfl
    have hrow : s.rxStatus p f = (u.raise R.actStatus F.actStatusBoardReport R.actBoardEvt).report (Src.port p)
        E.actBoardReport (Rep.fw 3) (leAt bs 0 4) := by
      rw [State.rxStatus, if_pos hgo, State.rxType_of_type (by rw [htype]; rfl), hrx]
    refine ⟨_, congrArg Host.Outcome.next hrow, ?_, ?_, rfl⟩
    · rw [State.isSet_report _ _ _ _ _ _ (by decide)]
      exact State.isSet_raise_self _ _ _ _ (by decide) (by decide) (by decide)
    · rw [State.reg_report _ _ _ _ _ (by decide), State.reg_raise_evt _ _ _ _ (by decide)]

end Sys2Proof.Machine
end


section
/-! PROOF. The fabric's members (R350, R351): what knowing a member anew leaves of the role, the heartbeats of a period, a missed
member and a notice, and O39. -/

namespace Sys2Proof.Machine

/-! ### Bounds of little-endian numbers -/

theorem leNat_lt : ∀ bs : Bytes, leNat bs < 256 ^ bs.length
  | [] => by decide
  | b :: bs => by
    have hrest := leNat_lt bs
    have hb := b.isLt
    rw [leNat, List.length_cons, Nat.pow_succ]
    omega

theorem length_takeAt (bs : Bytes) (off n : Nat) : (takeAt bs off n).length = n := by
  have hle : ((bs.drop off).take n).length ≤ n := List.length_take_le _ _
  simp only [takeAt, List.length_append, List.length_replicate]
  omega

theorem leAt_lt (bs : Bytes) (off n : Nat) : leAt bs off n < 256 ^ n := by
  have h := leNat_lt (takeAt bs off n)
  rwa [length_takeAt] at h

section
variable {s : State} {i : Nat}

theorem State.actingFm_setMember (s : State) (i : Nat) (m : Member) : (s.setMember i m).actingFm = s.actingFm := rfl

theorem State.fabDev_setMember (s : State) (i : Nat) (m : Member) (k : Nat) : (s.setMember i m).fabDev k = s.fabDev k := rfl

theorem State.isFm_setMember (s : State) (i : Nat) (m : Member) : (s.setMember i m).isFm = s.isFm := by
  rw [State.isFm, State.isFm, State.inFabric, State.inFabric, State.actingFm_setMember, State.fabIndex_setMember,
    State.fabDev_setMember]

theorem State.regsBut_setMember (s : State) (i : Nat) (m : Member) : s.regsBut (s.setMember i m) [R.prtFab] :=
  fun _ ha => State.reg_setMember_ne s i m (by simpa using ha)

/-- Another device than the acting manager notes the heartbeat of a member. -/
theorem State.gotHeartbeat_of_member (h : s.isFm = false) (st fenced shelves : Nat) : ∃ run,
    s.gotHeartbeat i st fenced shelves = s.setMember i ⟨s.timeUs, false, st, fenced, shelves, run⟩ := by
  refine ⟨_, if_neg ?_⟩
  rw [State.isFm_setMember, h]
  exact Bool.false_ne_true

/-- Sending the heartbeats of a period takes no time. -/
theorem State.sendHeartbeats_timeUs (s : State) : s.sendHeartbeats.timeUs = s.timeUs :=
  State.foldl_induction (P := fun u => u.timeUs = s.timeUs) rfl fun _ hu _ _ => (State.sendFrame_timeUs _ _ _ _ _).trans hu

theorem State.heartbeatDue_of_due (hin : s.inFabric = true) (hus : s.prt.fab.lastHbAt + s.hbPeriod ≤ s.timeUs) :
    s.heartbeatDue = { s.sendHeartbeats with
      prt := { s.sendHeartbeats.prt with fab := { s.sendHeartbeats.prt.fab with lastHbAt := s.sendHeartbeats.timeUs } } } := by
  have hdue : (s.inFabric && decide (s.prt.fab.lastHbAt + s.hbPeriod ≤ s.timeUs)) = true := by
    rw [hin, decide_eq_true hus]
    rfl
  exact if_pos hdue

/-- The acting manager gives notice of a member that it misses. -/
theorem State.missed_of_manager (hfm : s.isFm = true) (hother : i ≠ s.fabIndex) (hpresent : (s.member i).lost = false)
    (hlisted : s.fabDev i ≠ 0) (hsilent : (s.member i).hbAt + s.fabP P.fabHbMiss * s.hbPeriod ≤ s.timeUs) :
    s.missed i = (s.lose i).notice i 1 := by
  have hin : s.inFabric = true := (Bool.and_eq_true_iff.1 hfm).2
  have hdue : ¬ (¬ s.inFabric ∨ i = s.fabIndex ∨ (s.member i).lost ∨ s.fabDev i = 0
      ∨ s.timeUs < (s.member i).hbAt + s.fabP P.fabHbMiss * s.hbPeriod) := by
    simp [hin, hother, hpresent, hlisted, hsilent]
  exact (if_neg hdue).trans (if_pos hfm)

theorem State.lost_notice_lose (s : State) (i reason : Nat) : (((s.lose i).notice i reason).member i).lost = true := by
  rw [State.member_congr (State.members_notice _ _ _), State.lose, State.member_setMember_self]

/-- What a notice of reason 1 makes of the member that it names. -/
def Member.noticed (m : Member) (fenced shelves : Nat) : Member := { m with lost := true, fenced := fenced, shelves := shelves }

/-- A notice of reason 1 about another member is noted and raises FLT_HOST_STATUS.peer. -/
theorem State.applyNotice_lost {dev seq fenced shelves : Nat} (hdev : s.fabOf dev = some i) (hother : i ≠ s.fabIndex) :
    s.applyNotice dev seq 1 fenced shelves =
      ((s.setMember i ((s.member i).noticed fenced shelves)).setNat R.prtFabSeq seq).raise R.fltHostStatus
        F.fltHostStatusPeer R.fltHperEvt := by
  have hindex : i ≠ ((s.setMember i ((s.member i).noticed fenced shelves)).setNat R.prtFabSeq seq).fabIndex := by
    rw [State.fabIndex_congr (State.reg_setNat_ne _ _ (by decide)), State.fabIndex_setMember]
    exact hother
  rw [State.applyNotice, hdev]
  exact if_neg hindex

end

/-- Settles O39: a heartbeat and a notice write their member, and a missed member is lost and noticed. -/
theorem fabricMembers : Obligations.FabricMembers := by
  intro s
  refine ⟨fun u p f e bs i hrx hdev hfm => ?heard, fun hin hus => ?period, fun i hfm hother hpresent hlisted hsilent => ?missed,
    fun u p f e bs i hrx hdev hother hreason => ?notice⟩
  case heard =>
    obtain ⟨run, heq⟩ := State.gotHeartbeat_of_member hfm (i := i) (leAt bs 0x14 1) (leAt bs 0x16 2) (leAt bs 0x18 8)
    have hrow : s.rxHeartbeat p f = u.setMember i ⟨u.timeUs, false, leAt bs 0x14 1, leAt bs 0x16 2, leAt bs 0x18 8, run⟩ := by
      rw [State.rxHeartbeat, hrx]
      dsimp only
      rw [hdev]
      exact heq
    refine ⟨_, congrArg Host.Outcome.next hrow, ?_, ?_, ?_, ?_, u.regsBut_setMember i _⟩
    all_goals rw [State.member_setMember_self]
  case period =>
    exact ⟨_, congrArg Host.Outcome.next (State.heartbeatDue_of_due hin hus), s.sendHeartbeats_timeUs, rfl⟩
  case missed =>
    exact ⟨_, congrArg Host.Outcome.next (State.missed_of_manager hfm hother hpresent hlisted hsilent), rfl,
      s.lost_notice_lose i 1⟩
  case notice =>
    have hrow : s.rxNotice p f = ((u.setMember i ((u.member i).noticed (leAt bs 0x16 2) (leAt bs 0x18 8))).setNat R.prtFabSeq
        (leAt bs 0x10 4)).raise R.fltHostStatus F.fltHostStatusPeer R.fltHperEvt := by
      rw [State.rxNotice, hrx]
      dsimp only
      rw [hreason, State.applyNotice_lost hdev hother]
    have hmember : ∀ t : State, t.prt = (u.setMember i ((u.member i).noticed (leAt bs 0x16 2) (leAt bs 0x18 8))).prt →
        t.member i = (u.member i).noticed (leAt bs 0x16 2) (leAt bs 0x18 8) := by
      intro t ht
      rw [State.member_congr (congrArg (fun x => x.fab.members) ht), State.member_setMember_self]
    have hprt := hmember _ ((State.raise_prt _ R.fltHostStatus F.fltHostStatusPeer R.fltHperEvt).trans
      (State.setNat_prt _ R.prtFabSeq (leAt bs 0x10 4)))
    refine ⟨_, congrArg Host.Outcome.next hrow, congrArg Member.lost hprt, congrArg Member.fenced hprt, ?_, ?_⟩
    · exact State.isSet_raise_self _ _ _ _ (by decide) (by decide) (by decide)
    · rw [State.regNat, State.reg_raise_ne _ _ _ _ (by decide) (by decide), State.reg_setNat_self, BitVec.toNat_ofNat]
      exact Nat.mod_eq_of_lt (leAt_lt bs 0x10 4)

end Sys2Proof.Machine
end


section
/-! PROOF. Tile control and tests (R48, R76, R194): what a write of TIL_CTRL takes or discards, the start and the sums of a test,
and O41. -/

namespace Sys2Proof.Machine

theorem State.isSet_congr {s u : State} {a : Nat} (h : u.reg a = s.reg a) (f : Field) : u.isSet a f = s.isSet a f := by
  rw [State.isSet, State.getF_congr h, ← State.isSet]

/-- The step shown in TIL_STATE is all that follows the step of the next input. -/
theorem State.writesOnly_syncStep (s : State) (c t : Nat) : s.WritesOnly (s.syncStep c t) [R.tilState c t] :=
  (State.WritesOnly.refl s _).setF (List.mem_singleton_self _) _ _

theorem State.reg_syncStep_ne (s : State) {c t a : Nat} (h : a ≠ R.tilState c t) : (s.syncStep c t).reg a = s.reg a :=
  State.reg_setF_ne s _ _ h

/-! ### TIL_CTRL (R48) -/

section
variable {s : State} {c t : Nat} {w : Word}

theorem tilCtrl_ne (c t : Nat) : R.tilCtrl c t ≠ R.tilState c t ∧ R.tilCtrl c t ≠ R.tilStatus c t ∧ R.tilCtrl c t ≠ R.tilCfgEvt c t ∧
    R.tilStatus c t ≠ R.tilState c t ∧ R.tilCfgEvt c t ≠ R.tilState c t ∧ R.tilStatus c t ≠ R.tilCfgEvt c t := by
  simp only [R.tilCtrl, R.tilState, R.tilStatus, R.tilCfgEvt]
  omega

theorem tilRegs_report (c t : Nat) : ∀ a ∈ [R.tilCtrl c t, R.tilStatus c t, R.tilCfgEvt c t],
    a ≠ R.fltOpen ∧ a ≠ R.fltStatus ∧ a ≠ R.fltNewsrcEvt ∧ a ≠ R.fltOvfEvt := by
  intro a ha
  simp only [List.mem_cons, List.not_mem_nil, or_false, R.tilCtrl, R.tilStatus, R.tilCfgEvt] at ha
  simp only [R.fltOpen, R.fltStatus, R.fltNewsrcEvt, R.fltOvfEvt]
  omega

/-- The write is taken: the group size is no reserved one, and does not change while the tile issues. -/
def State.GrpTaken (s : State) (c t : Nat) (w : Word) : Prop :=
  F.tilCtrlGrpSize.get w ≠ 3 ∧
    (F.tilCtrlGrpSize.get w = s.getF (R.tilCtrl c t) F.tilCtrlGrpSize ∨ s.isSet (R.tilCtrl c t) F.tilCtrlIssueEn = false)

theorem State.not_grpTaken_iff : ¬ s.GrpTaken c t w ↔ (F.tilCtrlGrpSize.get w = 3 ∨
    (F.tilCtrlGrpSize.get w ≠ s.getF (R.tilCtrl c t) F.tilCtrlGrpSize ∧ s.isSet (R.tilCtrl c t) F.tilCtrlIssueEn = true)) := by
  rw [State.GrpTaken, not_and_or, not_not, not_or, Bool.not_eq_false]

/-- The fields that a write of TIL_CTRL always takes. -/
def State.ctrlTaken (s : State) (c t : Nat) (w : Word) : State :=
  ((s.setF (R.tilCtrl c t) F.tilCtrlTrkEn (F.tilCtrlTrkEn.get w)).setF (R.tilCtrl c t) F.tilCtrlGainFix
    (F.tilCtrlGainFix.get w)).setF (R.tilCtrl c t) F.tilCtrlIssueEn (F.tilCtrlIssueEn.get w)

theorem State.tilCtrlWrite_of_taken (h : s.GrpTaken c t w) : s.tilCtrlWrite c t w =
    ((s.ctrlTaken c t w).setF (R.tilCtrl c t) F.tilCtrlGrpSize (F.tilCtrlGrpSize.get w)).syncStep c t := by
  have hbad := decide_eq_false (mt State.not_grpTaken_iff.2 (not_not.2 h))
  simp only [State.tilCtrlWrite, hbad, Bool.false_eq_true, if_false, State.ctrlTaken]

/-- The write's group size is discarded with TIL_STATUS.cfg_err. -/
def State.cfgErr (s : State) (c t : Nat) : State :=
  (s.raise (R.tilStatus c t) F.tilStatusCfgErr (R.tilCfgEvt c t)).report (Src.tile c t) E.tilCfgWhileIssuing (Rep.fw 2)

theorem State.tilCtrlWrite_of_not_taken (h : ¬ s.GrpTaken c t w) :
    s.tilCtrlWrite c t w = ((s.ctrlTaken c t w).cfgErr c t).syncStep c t := by
  have hbad := decide_eq_true (State.not_grpTaken_iff.1 h)
  simp only [State.tilCtrlWrite, hbad, if_true, State.ctrlTaken, State.cfgErr]

theorem State.reg_cfgErr_ctrl (s : State) (c t : Nat) : (s.cfgErr c t).reg (R.tilCtrl c t) = s.reg (R.tilCtrl c t) := by
  obtain ⟨-, hstatus, hevt, -⟩ := tilCtrl_ne c t
  rw [State.cfgErr, State.reg_report _ _ _ _ _ (tilRegs_report c t _ (by simp)), State.reg_raise_ne _ _ _ _ hstatus hevt]

/-- The fields taken read what was written, and the group size is untouched by them. -/
theorem State.ctrlTaken_spec (s : State) (c t : Nat) (w : Word) :
    (s.ctrlTaken c t w).getF (R.tilCtrl c t) F.tilCtrlTrkEn = F.tilCtrlTrkEn.get w ∧
    (s.ctrlTaken c t w).getF (R.tilCtrl c t) F.tilCtrlGainFix = F.tilCtrlGainFix.get w ∧
    (s.ctrlTaken c t w).getF (R.tilCtrl c t) F.tilCtrlIssueEn = F.tilCtrlIssueEn.get w ∧
    (s.ctrlTaken c t w).getF (R.tilCtrl c t) F.tilCtrlGrpSize = s.getF (R.tilCtrl c t) F.tilCtrlGrpSize := by
  unfold State.ctrlTaken
  refine ⟨?_, ?_, ?_, ?_⟩
  · rw [State.getF_setF_field _ _ _ _ _ (by decide) (by decide), State.getF_setF_field _ _ _ _ _ (by decide) (by decide),
      State.getF_setF_self _ _ _ _ (by decide)]
    exact Nat.mod_eq_of_lt (Field.get_lt _ _)
  · rw [State.getF_setF_field _ _ _ _ _ (by decide) (by decide), State.getF_setF_self _ _ _ _ (by decide)]
    exact Nat.mod_eq_of_lt (Field.get_lt _ _)
  · rw [State.getF_setF_self _ _ _ _ (by decide)]
    exact Nat.mod_eq_of_lt (Field.get_lt _ _)
  · rw [State.getF_setF_field _ _ _ _ _ (by decide) (by decide), State.getF_setF_field _ _ _ _ _ (by decide) (by decide),
      State.getF_setF_field _ _ _ _ _ (by decide) (by decide)]

theorem State.writesOnly_ctrlTaken (s : State) (c t : Nat) (w : Word) (l : List Nat) (h : R.tilCtrl c t ∈ l) :
    s.WritesOnly (s.ctrlTaken c t w) l :=
  (((State.WritesOnly.refl s _).setF h _ _).setF h _ _).setF h _ _

/-- A field of TIL_CTRL apart from the group size, after the write. -/
theorem State.getF_tilCtrlWrite {f : Field} (hf : f.lo + f.width ≤ F.tilCtrlGrpSize.lo ∨
    F.tilCtrlGrpSize.lo + F.tilCtrlGrpSize.width ≤ f.lo) :
    (s.tilCtrlWrite c t w).getF (R.tilCtrl c t) f = (s.ctrlTaken c t w).getF (R.tilCtrl c t) f := by
  have hne := (tilCtrl_ne c t).1
  by_cases h : s.GrpTaken c t w
  · rw [State.tilCtrlWrite_of_taken h, State.getF_congr (State.reg_syncStep_ne _ hne),
      State.getF_setF_field _ _ _ _ _ (by decide) hf]
  · rw [State.tilCtrlWrite_of_not_taken h, State.getF_congr (State.reg_syncStep_ne _ hne), State.getF_congr (State.reg_cfgErr_ctrl ..)]

theorem State.grpSize_of_taken (h : s.GrpTaken c t w) :
    (s.tilCtrlWrite c t w).getF (R.tilCtrl c t) F.tilCtrlGrpSize = F.tilCtrlGrpSize.get w ∧
    s.WritesOnly (s.tilCtrlWrite c t w) [R.tilCtrl c t, R.tilState c t] := by
  rw [State.tilCtrlWrite_of_taken h]
  refine ⟨?_, ((s.writesOnly_ctrlTaken c t w _ (by simp)).setF (by simp) _ _).trans ((State.writesOnly_syncStep _ c t).mono (by simp))⟩
  rw [State.getF_congr (State.reg_syncStep_ne _ (tilCtrl_ne c t).1), State.getF_setF_self _ _ _ _ (by decide)]
  exact Nat.mod_eq_of_lt (Field.get_lt _ _)

theorem State.grpSize_of_not_taken (h : ¬ s.GrpTaken c t w) :
    (s.tilCtrlWrite c t w).getF (R.tilCtrl c t) F.tilCtrlGrpSize = s.getF (R.tilCtrl c t) F.tilCtrlGrpSize ∧
    (s.tilCtrlWrite c t w).isSet (R.tilStatus c t) F.tilStatusCfgErr = true ∧
    (s.tilCtrlWrite c t w).reg (R.tilCfgEvt c t) = satInc (s.reg (R.tilCfgEvt c t)) 1 := by
  obtain ⟨hstate, hstatus, hevt, hstatusState, hevtState, hne⟩ := tilCtrl_ne c t
  rw [State.tilCtrlWrite_of_not_taken h]
  refine ⟨?_, ?_, ?_⟩
  · rw [State.getF_congr (State.reg_syncStep_ne _ hstate), State.getF_congr (State.reg_cfgErr_ctrl ..)]
    exact (s.ctrlTaken_spec c t w).2.2.2
  · rw [State.isSet_congr (State.reg_syncStep_ne _ hstatusState), State.cfgErr,
      State.isSet_report _ _ _ _ _ _ (tilRegs_report c t _ (by simp))]
    exact State.isSet_raise_self _ _ _ _ hne (by decide) (by decide)
  · rw [State.reg_syncStep_ne _ hevtState, State.cfgErr, State.reg_report _ _ _ _ _ (tilRegs_report c t _ (by simp)),
      State.reg_raise_evt _ _ _ _ hne.symm, (s.writesOnly_ctrlTaken c t w [R.tilCtrl c t] (by simp)).regs _ (by simpa using hevt.symm)]

end

/-! ### Tests (R76) -/

section
variable {s : State} {c : Nat} {w : Word}

/-- The fields of a test are in TIL_TEST_CTRL. -/
def State.testSet (s : State) (c : Nat) (w : Word) : State :=
  (((s.setF (R.tilTestCtrl c) F.tilTestCtrlTile (F.tilTestCtrlTile.get w)).setF (R.tilTestCtrl c) F.tilTestCtrlMode
    (F.tilTestCtrlMode.get w)).setF (R.tilTestCtrl c) F.tilTestCtrlStep (F.tilTestCtrlStep.get w)).setF (R.tilTestCtrl c)
    F.tilTestCtrlRuns (F.tilTestCtrlRuns.get w)

theorem State.writesOnly_testSet (s : State) (c : Nat) (w : Word) : s.WritesOnly (s.testSet c w) [R.tilTestCtrl c] :=
  ((((State.WritesOnly.refl s _).setF (List.mem_singleton_self _) _ _).setF (List.mem_singleton_self _) _ _).setF
    (List.mem_singleton_self _) _ _).setF (List.mem_singleton_self _) _ _

theorem tilCtrl_ne_testCtrl (c t : Nat) : R.tilCtrl c t ≠ R.tilTestCtrl c := by
  simp only [R.tilCtrl, R.tilTestCtrl]
  omega

/-- A test of a tile that is not issued starts. -/
theorem State.testStart_of_ready (hidle : s.isSet (R.tilTestCtrl c) F.tilTestCtrlStart = false)
    (hstart : F.tilTestCtrlStart.get w = 1) (htile : F.tilTestCtrlTile.get w ≤ 67)
    (hmode : F.tilTestCtrlMode.get w = 1 ∨ F.tilTestCtrlMode.get w = 2)
    (hissue : s.isSet (R.tilCtrl c (F.tilTestCtrlTile.get w)) F.tilCtrlIssueEn = false) :
    s.testStart c w = (s.testSet c w).setF (R.tilTestCtrl c) F.tilTestCtrlStart 1 := by
  have hissue' : (s.testSet c w).isSet (R.tilCtrl c (F.tilTestCtrlTile.get w)) F.tilCtrlIssueEn = false := by
    rw [State.isSet_congr ((s.writesOnly_testSet c w).regs _ (by simpa using tilCtrl_ne_testCtrl c _)), hissue]
  have hgo : ¬ F.tilTestCtrlStart.get w = 0 := by rw [hstart]; decide
  rw [State.testStart, if_neg (Bool.eq_false_iff.1 hidle)]
  exact (if_neg hgo).trans (if_pos ⟨htile, hmode, hissue'⟩)

theorem State.testSet_spec (s : State) (c : Nat) (w : Word) :
    (s.testSet c w).getF (R.tilTestCtrl c) F.tilTestCtrlTile = F.tilTestCtrlTile.get w ∧
    (s.testSet c w).getF (R.tilTestCtrl c) F.tilTestCtrlMode = F.tilTestCtrlMode.get w ∧
    (s.testSet c w).getF (R.tilTestCtrl c) F.tilTestCtrlRuns = F.tilTestCtrlRuns.get w := by
  unfold State.testSet
  refine ⟨?_, ?_, ?_⟩
  · rw [State.getF_setF_field _ _ _ _ _ (by decide) (by decide), State.getF_setF_field _ _ _ _ _ (by decide) (by decide),
      State.getF_setF_field _ _ _ _ _ (by decide) (by decide), State.getF_setF_self _ _ _ _ (by decide)]
    exact Nat.mod_eq_of_lt (Field.get_lt _ _)
  · rw [State.getF_setF_field _ _ _ _ _ (by decide) (by decide), State.getF_setF_field _ _ _ _ _ (by decide) (by decide),
      State.getF_setF_self _ _ _ _ (by decide)]
    exact Nat.mod_eq_of_lt (Field.get_lt _ _)
  · rw [State.getF_setF_self _ _ _ _ (by decide)]
    exact Nat.mod_eq_of_lt (Field.get_lt _ _)

/-- The registers of a test's results. -/
def testRegs (c : Nat) : List Nat :=
  [R.tilTestCtrl c, R.tilTestCount c, R.tilTestSum c, R.tilTestSsqLo c, R.tilTestSsqHi c]

theorem testRegs_nodup (c : Nat) : (testRegs c).Nodup := by
  simp only [testRegs, R.tilTestCtrl, R.tilTestCount, R.tilTestSum, R.tilTestSsqLo, R.tilTestSsqHi, List.nodup_cons, List.mem_cons,
    List.not_mem_nil, or_false, not_or, not_false_eq_true, List.nodup_nil, and_true]
  omega

/-- Count and sums of the values `vs` of a test. -/
def State.testSums (s : State) (c : Nat) (vs : List Int) : State :=
  (((s.setNat (R.tilTestCount c) vs.length).setNat (R.tilTestSum c) (ofInt 32 (vs.foldl (· + ·) 0))).setNat (R.tilTestSsqLo c)
    ((vs.foldl (fun n v => n + v * v) 0).toNat % 2 ^ 32)).setNat (R.tilTestSsqHi c) ((vs.foldl (fun n v => n + v * v) 0).toNat / 2 ^ 32)

theorem State.testDone_of_run {reps : List (List Int)} (hrun : s.isSet (R.tilTestCtrl c) F.tilTestCtrlStart = true)
    (hlen : reps.length = 16 * (s.getF (R.tilTestCtrl c) F.tilTestCtrlRuns + 1)) : s.testDone c reps =
      (s.testSums c (testVals (s.getF (R.tilTestCtrl c) F.tilTestCtrlMode) reps)).setF (R.tilTestCtrl c) F.tilTestCtrlStart 0 :=
  if_pos ⟨hrun, hlen⟩

theorem State.writesOnly_testSums (s : State) (c : Nat) (vs : List Int) : s.WritesOnly (s.testSums c vs) (testRegs c) :=
  ((((State.WritesOnly.refl s _).setNat (by simp [testRegs]) _).setNat (by simp [testRegs]) _).setNat (by simp [testRegs]) _).setNat
    (by simp [testRegs]) _

theorem foldl_sq (vs : List Int) : ∀ n : Int,
    vs.foldl (fun n v => n + v * v) n = n + (((vs.map (fun v => v.natAbs ^ 2)).sum : Nat) : Int) := by
  induction vs with
  | nil => intro n; simp
  | cons v vs ih =>
    intro n
    have hsq : ((v.natAbs ^ 2 : Nat) : Int) = v * v := by rw [Nat.cast_pow, Int.natAbs_sq, pow_two]
    rw [List.foldl_cons, ih, List.map_cons, List.sum_cons, Nat.cast_add, hsq, Int.add_assoc]

theorem sq_sum (vs : List Int) : (vs.foldl (fun n v => n + v * v) 0).toNat = (vs.map (fun v => v.natAbs ^ 2)).sum := by
  rw [foldl_sq, Int.zero_add, Int.toNat_natCast]

theorem ofNat_ofInt (i : Int) : BitVec.ofNat 32 (ofInt 32 i) = BitVec.ofInt 32 i := by
  apply BitVec.eq_of_toNat_eq
  have hlt : (i % (2 ^ 32 : Int)).toNat < 2 ^ 32 := by omega
  rw [BitVec.toNat_ofNat, BitVec.toNat_ofInt, ofInt, Nat.mod_eq_of_lt hlt]
  rfl

theorem State.testSums_spec (s : State) (c : Nat) (vs : List Int) :
    (s.testSums c vs).regNat (R.tilTestCount c) = vs.length % 2 ^ 32 ∧
    (s.testSums c vs).reg (R.tilTestSum c) = BitVec.ofInt 32 vs.sum ∧
    (s.testSums c vs).regNat (R.tilTestSsqLo c) + 2 ^ 32 * (s.testSums c vs).regNat (R.tilTestSsqHi c) =
      (vs.map (fun v => v.natAbs ^ 2)).sum % 2 ^ 64 := by
  have hnodup := testRegs_nodup c
  simp only [testRegs, List.nodup_cons, List.mem_cons, List.not_mem_nil, or_false, not_or] at hnodup
  obtain ⟨-, ⟨hcountSum, hcountLo, hcountHi⟩, ⟨hsumLo, hsumHi⟩, hloHi, -⟩ := hnodup
  unfold State.testSums
  refine ⟨?_, ?_, ?_⟩
  · rw [State.regNat, State.reg_setNat_ne _ _ hcountHi, State.reg_setNat_ne _ _ hcountLo, State.reg_setNat_ne _ _ hcountSum,
      State.reg_setNat_self, BitVec.toNat_ofNat]
  · rw [State.reg_setNat_ne _ _ hsumHi, State.reg_setNat_ne _ _ hsumLo, State.reg_setNat_self, ofNat_ofInt, List.sum_eq_foldl]
  · rw [State.regNat, State.regNat, State.reg_setNat_ne _ _ hloHi, State.reg_setNat_self, State.reg_setNat_self, BitVec.toNat_ofNat,
      BitVec.toNat_ofNat, sq_sum]
    omega

end

/-- Settles O41: the group size is taken or discarded apart from the other fields; a test that is ready starts, one that has run
leaves its count and sums. -/
theorem tileControl : Obligations.TileControl := by
  intro s c t w
  refine ⟨⟨fun hoff => ?off, fun hon => ?write⟩, fun hon hidle hstart htile hmode hissue => ?start, fun reps hrun hlen => ?done, ?clear⟩
  case off => exact congrArg Host.Outcome.next (if_neg (Bool.eq_false_iff.1 hoff))
  case write =>
    obtain ⟨htrk, hgain, hissue, -⟩ := s.ctrlTaken_spec c t w
    refine ⟨_, congrArg Host.Outcome.next (if_pos hon), (State.getF_tilCtrlWrite (by decide)).trans htrk,
      (State.getF_tilCtrlWrite (by decide)).trans hgain, (State.getF_tilCtrlWrite (by decide)).trans hissue, fun htaken => ?_,
      State.grpSize_of_not_taken⟩
    obtain ⟨hgrp, hwrites⟩ := State.grpSize_of_taken htaken
    exact ⟨hgrp, hwrites.regs, hwrites.only⟩
  case start =>
    obtain ⟨htile', hmode', hruns⟩ := s.testSet_spec c w
    have hwrites := (s.writesOnly_testSet c w).setF (List.mem_singleton_self _) F.tilTestCtrlStart 1
    refine ⟨_, congrArg Host.Outcome.next ((if_pos hon).trans (State.testStart_of_ready hidle hstart htile hmode hissue)), ?_, ?_, ?_, ?_,
      hwrites.regs, hwrites.only⟩
    · rw [State.isSet_setF_self _ _ _ _ (by decide)]; rfl
    · rw [State.getF_setF_field _ _ _ _ _ (by decide) (by decide), htile']
    · rw [State.getF_setF_field _ _ _ _ _ (by decide) (by decide), hmode']
    · rw [State.getF_setF_field _ _ _ _ _ (by decide) (by decide), hruns]
  case done =>
    have hnodup := testRegs_nodup c
    simp only [testRegs, List.nodup_cons, List.mem_cons, List.not_mem_nil, or_false, not_or] at hnodup
    obtain ⟨⟨hcount, hsum, hlo, hhi⟩, -⟩ := hnodup
    have hwrites := (s.writesOnly_testSums c (testVals (s.getF (R.tilTestCtrl c) F.tilTestCtrlMode) reps)).setF
      (show R.tilTestCtrl c ∈ testRegs c by simp [testRegs]) F.tilTestCtrlStart 0
    have hspec := s.testSums_spec c (testVals (s.getF (R.tilTestCtrl c) F.tilTestCtrlMode) reps)
    refine ⟨_, congrArg Host.Outcome.next (State.testDone_of_run hrun hlen), ?_, ?_, ?_, ?_, hwrites.regs, hwrites.only⟩
    · rw [State.isSet_setF_self _ _ _ _ (by decide)]; rfl
    · rw [State.regNat, State.reg_setF_ne _ _ _ (Ne.symm hcount), ← State.regNat, hspec.1]
    · rw [State.reg_setF_ne _ _ _ (Ne.symm hsum), hspec.2.1]
    · rw [State.regNat, State.regNat, State.reg_setF_ne _ _ _ (Ne.symm hlo), State.reg_setF_ne _ _ _ (Ne.symm hhi), ← State.regNat,
        ← State.regNat, hspec.2.2]
  case clear =>
    have hwrites := (State.WritesOnly.refl s _).setF (List.mem_singleton_self (R.accOcc c)) F.accOccHighWater
      (s.getF (R.accOcc c) F.accOccInUse)
    refine ⟨_, rfl, ?_, ?_, hwrites.regs, hwrites.only⟩
    · rw [State.getF_setF_self _ _ _ _ (by decide)]
      exact State.getF_mod s _ F.accOccInUse
    · exact State.getF_setF_field _ _ _ _ _ (by decide) (by decide)

end Sys2Proof.Machine
end


section
/-! PROOF. MVM cycles and slices (R42 to R63, R169 to R177, R385, R390): what issues a slice, what a conversion leaves, what a
partial over the mesh does, and O42 to O44. -/

namespace Sys2Proof.Machine

/-! ### Accumulator entries (R169, R170) -/

section
variable {s : State} {c e : Nat}

theorem State.writesOnly_syncOcc (s : State) (c : Nat) : s.WritesOnly (s.syncOcc c) [R.accOcc c] :=
  ((State.WritesOnly.refl s _).setF (List.mem_singleton_self _) _ _).setF (List.mem_singleton_self _) _ _

theorem State.accEntry_congr {u : State} (h : u.mc = s.mc) (c e : Nat) : u.accEntry c e = s.accEntry c e := by
  simp only [State.accEntry, h]

theorem State.syncOcc_mc (s : State) (c : Nat) : (s.syncOcc c).mc = s.mc := (s.writesOnly_syncOcc c).mc

theorem State.syncOcc_pwr (s : State) (c : Nat) : (s.syncOcc c).pwr = s.pwr :=
  (s.writesOnly_syncOcc c).keeps State.pwr fun _ => rfl

theorem State.regsBut_setAcc (s : State) (c e : Nat) (x : AccEntry) : s.regsBut (s.setAcc c e x) [R.accOcc c] :=
  (State.writesOnly_syncOcc { s with mc := { s.mc with acc := s.mc.acc.put (accKey c e) x } } c).regs

theorem State.setAcc_mc (s : State) (c e : Nat) (x : AccEntry) :
    (s.setAcc c e x).mc = { s.mc with acc := s.mc.acc.put (accKey c e) x } := by
  rw [State.setAcc, State.syncOcc_mc]

theorem State.setAcc_pwr (s : State) (c e : Nat) (x : AccEntry) : (s.setAcc c e x).pwr = s.pwr := by
  rw [State.setAcc, State.syncOcc_pwr]

theorem State.freeAcc_pwr (s : State) (c e : Nat) : (s.freeAcc c e).pwr = s.pwr := by
  rw [State.freeAcc, State.syncOcc_pwr]

theorem State.allocAcc_of_full (x : AccEntry) (h : s.freeAccs c = []) : s.allocAcc c x = (s, none) := by
  unfold State.allocAcc
  rw [h]

theorem State.allocAcc_of_free (x : AccEntry) (h : s.freeAccs c ≠ []) : s.allocAcc c x =
    ((s.choose (s.freeAccs c)).2.setAcc c (s.choose (s.freeAccs c)).1 x, some (s.choose (s.freeAccs c)).1) := by
  unfold State.allocAcc
  cases hfree : s.freeAccs c with
  | nil => exact absurd hfree h
  | cons e es => rfl

/-- A new entry is written into a free one, and ACC_OCC follows. -/
theorem State.allocAcc_cases (s : State) (c : Nat) (x : AccEntry) : s.allocAcc c x = (s, none) ∨
    ∃ u e, s.allocAcc c x = (u.setAcc c e x, some e) ∧ u = { s with fresh := s.fresh + 1 } ∧ e ∈ s.freeAccs c := by
  by_cases h : s.freeAccs c = []
  · exact .inl (State.allocAcc_of_full x h)
  · exact .inr ⟨_, _, State.allocAcc_of_free x h, rfl, State.choose_mem h⟩

theorem State.allocAcc_pwr (s : State) (c : Nat) (x : AccEntry) : (s.allocAcc c x).1.pwr = s.pwr := by
  rcases s.allocAcc_cases c x with h | ⟨u, e, h, rfl, -⟩
  · rw [h]
  · rw [h, State.setAcc_pwr]

theorem State.regsBut_allocAcc (s : State) (c : Nat) (x : AccEntry) : s.regsBut (s.allocAcc c x).1 [R.accOcc c] := by
  rcases s.allocAcc_cases c x with h | ⟨u, e, h, rfl, -⟩
  · rw [h]; exact .refl s _
  · rw [h]; exact (State.regsBut_setAcc _ c e x)

end

/-! ### The slew guard (R385, R390): what a tile does at a boundary leaves the cycle counter alone -/

section
variable (s : State) (c t : Nat)

theorem State.setTile_pwr (x : TileRt) : (s.setTile c t x).pwr = s.pwr := rfl

theorem State.trackRange_pwr (r : InRun) : (s.trackRange c t r).pwr = s.pwr := by
  have hmem : R.tilRange c t ∈ [R.tilRange c t, R.tilState c t] := List.mem_cons_self
  have hwrites : s.WritesOnly (s.trackRange c t r) [R.tilRange c t, R.tilState c t] :=
    .setF (.ite (.setF (.refl s _) hmem _ _) (.ite (.setF (.setF (.setF (.refl s _) hmem _ _) hmem _ _) hmem _ _)
      (.ite (.setF (.setF (.refl s _) hmem _ _) hmem _ _) (.setF (.setF (.refl s _) hmem _ _) hmem _ _))))
      (by simp) _ _
  exact hwrites.keeps State.pwr fun _ => rfl

theorem State.countOut_pwr (x : Nat) (up : Bool) : (s.countOut x up).pwr = s.pwr := rfl

/-- The state of a tile whose input has ended, before its entry is looked at. -/
def State.runEnded (s : State) (c t n : Nat) (r : InRun) : State :=
  ((s.setTile c t { s.tile c t with runs := (s.tile c t).runs.del n }).countOut r.inp.ctx false).trackRange c t r

theorem State.endRun_of_entry {r : InRun} {e : Nat} (n : Nat) (h : r.entry = some e) : s.endRun c t n r =
    if (s.runEnded c t n r).genOk r.inp.ctx r.inp.gen && ((s.runEnded c t n r).dsp.tokens.get? r.inp.token).isSome
    then s.runEnded c t n r else (s.runEnded c t n r).freeAcc c e := by
  unfold State.endRun
  rw [h]
  rfl

theorem State.endRun_of_no_entry {r : InRun} (n : Nat) (h : r.entry = none) : s.endRun c t n r =
    s.setTile c t { s.tile c t with runs := (s.tile c t).runs.del n } := by
  unfold State.endRun
  rw [h]

theorem State.runEnded_pwr (n : Nat) (r : InRun) : (s.runEnded c t n r).pwr = s.pwr := by
  rw [State.runEnded, State.trackRange_pwr, State.countOut_pwr, State.setTile_pwr]

theorem State.endRun_pwr (n : Nat) (r : InRun) : (s.endRun c t n r).pwr = s.pwr := by
  cases h : r.entry with
  | none => rw [State.endRun_of_no_entry s c t n h, State.setTile_pwr]
  | some e =>
    rw [State.endRun_of_entry s c t n h]
    split
    · rw [State.runEnded_pwr]
    · rw [State.freeAcc_pwr, State.runEnded_pwr]

/-- The entry of an input counts a slice that is complete or skipped. -/
def State.entryDone (s : State) (c : Nat) (r : InRun) : State :=
  match r.entry with
  | some e => s.modAcc c e AccEntry.sliceDone
  | none => s

theorem State.entryDone_pwr (r : InRun) : (s.entryDone c r).pwr = s.pwr := by
  unfold State.entryDone
  split <;> rfl

theorem State.sliceGone_of_run {n : Nat} {r : InRun} (h : (s.tile c t).runs.get? n = some r) : s.sliceGone c t n =
    if r.left - 1 = 0 then (s.entryDone c r).endRun c t n { r with left := r.left - 1 }
    else (s.entryDone c r).setTile c t { (s.entryDone c r).tile c t with
      runs := ((s.entryDone c r).tile c t).runs.put n { r with left := r.left - 1 } } := by
  unfold State.sliceGone
  rw [h]
  rfl

theorem State.sliceGone_of_no_run {n : Nat} (h : (s.tile c t).runs.get? n = none) : s.sliceGone c t n = s := by
  unfold State.sliceGone
  rw [h]

theorem State.sliceGone_pwr (n : Nat) : (s.sliceGone c t n).pwr = s.pwr := by
  cases h : (s.tile c t).runs.get? n with
  | none => rw [State.sliceGone_of_no_run s c t h]
  | some r =>
    rw [State.sliceGone_of_run s c t h]
    split
    · rw [State.endRun_pwr, State.entryDone_pwr]
    · rw [State.setTile_pwr, State.entryDone_pwr]

theorem State.issueSlice_pwr (n : Nat) (r : InRun) : (s.issueSlice c t n r).pwr = s.pwr := rfl

theorem State.tryIssue_pwr (n : Nat) (r : InRun) (room : Bool) : (s.tryIssue c t n r room).1.pwr = s.pwr := by
  unfold State.tryIssue
  dsimp only
  split
  · exact State.sliceGone_pwr _ c t n
  split
  · rw [State.setTile_pwr, State.raise_pwr]
  split
  · rfl
  split
  · rw [State.setTile_pwr, State.raise_pwr]
  cases r.entry with
  | some e => rfl
  | none =>
    rcases s.allocAcc_cases c (newEntry c t r) with h | ⟨u, e, h, rfl, -⟩
    · rw [h]
      dsimp only
      rw [State.setTile_pwr, State.raise_pwr]
    · rw [h]
      dsimp only
      rw [State.issueSlice_pwr, State.countOut_pwr, State.setAcc_pwr]

theorem State.startInput_pwr : (s.startInput c t).1.pwr = s.pwr := by
  unfold State.startInput
  cases hstarted : (s.tile c t).started with
  | some e => simp only [hstarted]
  | none =>
    cases hnext : s.nextInput (s.tile c t).q with
    | none => simp only [hstarted, hnext]
    | some i => simp only [hstarted, hnext, State.setTile_pwr]

theorem State.tileBoundary_pwr (open_ room : Bool) : (s.tileBoundary c t open_ room).1.pwr = s.pwr := by
  unfold State.tileBoundary
  dsimp only
  split
  · rw [State.count_pwr, State.setTile_pwr]
  split
  · rfl
  have hstart := s.startInput_pwr c t
  split
  · rename_i u h
    rw [h] at hstart
    exact hstart
  · rename_i u n r h
    rw [h] at hstart
    exact (State.tryIssue_pwr u c t n r room).trans hstart

end

section
variable {s : State} {c t : Nat}

/-- No slice is issued where the slew guard leaves no room. -/
theorem State.tryIssue_no_room (s : State) (c t n : Nat) (r : InRun) : (s.tryIssue c t n r false).2 = false := by
  unfold State.tryIssue
  dsimp only
  split
  · rfl
  split
  · rfl
  split
  · rfl
  · rfl

theorem State.tileBoundary_no_room (s : State) (c t : Nat) (open_ : Bool) : (s.tileBoundary c t open_ false).2 = false := by
  unfold State.tileBoundary
  dsimp only
  split
  · rfl
  split
  · rfl
  split
  · rfl
  · exact State.tryIssue_no_room _ c t _ _

/-- No slice is issued in a cycle that the throttle withholds. -/
theorem State.tileBoundary_closed (s : State) (c t : Nat) (room : Bool) : (s.tileBoundary c t false room).2 = false := by
  unfold State.tileBoundary
  dsimp only
  split
  · rfl
  · rfl

theorem b2n_le (b : Bool) : b2n b ≤ 1 := by cases b <;> decide

/-- One tile's part of a boundary: the state, and how many slices were issued so far. -/
def issueAt (open_ : Bool) (allow : Nat) (a : State × Nat) (w : Nat × Nat) : State × Nat :=
  ((a.1.tileBoundary w.1 w.2 open_ (decide (a.2 < allow))).1,
    a.2 + b2n (a.1.tileBoundary w.1 w.2 open_ (decide (a.2 < allow))).2)

/-- What every tile of a boundary keeps: the cycle counter, the bound of the slew guard, and nothing issued while withheld. -/
structure IssueBound (p : PwrUnit) (open_ : Bool) (allow : Nat) (a : State × Nat) : Prop where
  pwr : a.1.pwr = p
  le : a.2 ≤ allow
  closed : open_ = false → a.2 = 0

theorem IssueBound.issueAt {p : PwrUnit} {open_ : Bool} {allow : Nat} {a : State × Nat} (h : IssueBound p open_ allow a)
    (w : Nat × Nat) : IssueBound p open_ allow (issueAt open_ allow a w) where
  pwr := (State.tileBoundary_pwr a.1 w.1 w.2 _ _).trans h.pwr
  le := by
    simp only [Machine.issueAt]
    by_cases hroom : a.2 < allow
    · have hone : b2n (a.1.tileBoundary w.1 w.2 open_ (decide (a.2 < allow))).2 ≤ 1 := b2n_le _
      omega
    · simp only [hroom, decide_false, State.tileBoundary_no_room]
      exact h.le
  closed := by
    rintro rfl
    simp only [Machine.issueAt, State.tileBoundary_closed]
    exact h.closed rfl

/-- Entries that wait on the mesh change no register that decides on the issue. -/
theorem State.meshRetry_spec (s : State) : s.meshRetry.pwr = s.pwr ∧
    ∀ a, (∀ c, a ≠ R.accOcc c) → s.meshRetry.reg a = s.reg a := by
  refine State.foldl_induction (P := fun u => u.pwr = s.pwr ∧ ∀ a, (∀ c, a ≠ R.accOcc c) → u.reg a = s.reg a)
    ⟨rfl, fun _ _ => rfl⟩ fun u hu w _ => ?_
  obtain ⟨hpwr, hreg⟩ := hu
  rcases u.allocAcc_cases w.1 w.2 with h | ⟨v, e, h, hv, -⟩
  · rw [h]; exact ⟨hpwr, hreg⟩
  · have hset : (u.allocAcc w.1 w.2).1 = v.setAcc w.1 e w.2 := by rw [h]
    have hp := u.allocAcc_pwr w.1 w.2
    have hr := u.regsBut_allocAcc w.1 w.2
    rw [hset] at hp hr
    rw [h]
    exact ⟨hp.trans hpwr, fun a ha => (hr a (by simpa using ha w.1)).trans (hreg a ha)⟩

theorem State.slewStep_congr {u : State} (hreg : u.reg R.pwrSlew = s.reg R.pwrSlew) (hpwr : u.pwr = s.pwr) :
    u.slewStep = s.slewStep := by
  simp only [State.slewStep, State.getF_congr hreg, hpwr]

theorem State.divider_congr {u : State} (hreg : u.reg R.thmLevel = s.reg R.thmLevel) : u.divider = s.divider := by
  simp only [State.divider, State.getF_congr hreg]

/-- The tiles of a boundary in the order of R385, from the cycle's first core. -/
def State.issueWork (s : State) : List (Nat × Nat) :=
  ((List.range 16).map (fun i => (s.pwr.cycle + i) % 16)).flatMap (fun c => (s.issueOrder c).map (fun t => (c, t)))

/-- The states of a boundary's tiles, from the state in which the mesh's waiting entries are written. -/
def State.issueRun (s : State) : State × Nat :=
  s.issueWork.foldl (issueAt (s.pwr.cycle % s.divider == 0) (min 1088 (s.pwr.issued + s.slewStep))) (s, 0)

theorem State.mvmBoundary_eq (s : State) : s.mvmBoundary = { s.meshRetry.issueRun.1 with
    pwr := { s.meshRetry.issueRun.1.pwr with
      cycle := s.meshRetry.issueRun.1.pwr.cycle + 1, issued := s.meshRetry.issueRun.2 } } := rfl

theorem State.issueRun_bound (s : State) :
    IssueBound s.pwr (s.pwr.cycle % s.divider == 0) (min 1088 (s.pwr.issued + s.slewStep)) s.issueRun :=
  List.foldlRecOn s.issueWork _ ⟨rfl, Nat.zero_le _, fun _ => rfl⟩ fun _ h w _ => h.issueAt w

/-- Settles O42: each tile of the boundary keeps the bound, and nothing is issued while the throttle withholds the cycle. -/
theorem slewGuardHolds : Obligations.SlewGuardHolds := by
  intro s
  obtain ⟨hpwr, hreg⟩ := s.meshRetry_spec
  have hslew : s.meshRetry.slewStep = s.slewStep :=
    State.slewStep_congr (hreg _ fun c => by simp only [R.pwrSlew, R.accOcc]; omega) hpwr
  have hdiv : s.meshRetry.divider = s.divider :=
    State.divider_congr (hreg _ fun c => by simp only [R.thmLevel, R.accOcc]; omega)
  have hbound := s.meshRetry.issueRun_bound
  rw [hpwr, hslew, hdiv] at hbound
  refine ⟨s.mvmBoundary, rfl, ?_, ?_, fun hheld => ?_⟩
  · rw [State.mvmBoundary_eq, hbound.pwr]
  · rw [State.mvmBoundary_eq]; exact hbound.le
  · rw [State.mvmBoundary_eq]; exact hbound.closed (by simpa using hheld)

end

/-! ### One slice whose last column is converted (R49, R54, R171 to R173) -/

theorem Tab.get?_modify_self {α : Type} {tab : Tab α} {k : Nat} {v : α} (f : α → α) (h : tab.get? k = some v) :
    (tab.modify k f).get? k = some (f v) := by
  simp only [Tab.modify, h, Tab.get?_put_self]

section
variable {s : State} {c t e : Nat} {sl : SliceRun} {r : InRun} {y : AccEntry} {k : ColCode}

theorem State.accEntry_modAcc (f : AccEntry → AccEntry) (h : s.accEntry c e = some y) :
    (s.modAcc c e f).accEntry c e = some (f y) := Tab.get?_modify_self f h

theorem State.tile_modAcc (s : State) (c e : Nat) (f : AccEntry → AccEntry) (c' t : Nat) :
    (s.modAcc c e f).tile c' t = s.tile c' t := rfl

theorem State.accEntry_setTile (s : State) (c t : Nat) (x : TileRt) (c' e : Nat) :
    (s.setTile c t x).accEntry c' e = s.accEntry c' e := rfl

theorem oldest_of_single {x : TileRt} (h : x.slices = [sl]) (htodo : sl.todo ≠ []) : x.oldest = some sl := by
  simp [TileRt.oldest, h, htodo]

/-- What a conversion leaves of the tile, before a complete slice is taken off. -/
def State.delivered (s : State) (c t n : Nat) (sl : SliceRun) (r : InRun) : State :=
  s.setTile c t { s.tile c t with slices := putSlice sl (s.tile c t).slices, runs := (s.tile c t).runs.put n r }

/-- The slice has no column left to convert. -/
def SliceRun.fin (sl : SliceRun) : Bool := sl.todo.isEmpty && sl.wait.isEmpty && sl.serv.isEmpty

theorem State.deliver_one {sl' : SliceRun} {r' : InRun} {code : Option (Int × Nat × Bool)} {first reconv : Bool}
    (hold : (s.tile c t).oldest = some sl) (hrun : (s.tile c t).runs.get? sl.run = some r)
    (hone : convOne sl r k = ⟨sl', r', code, first, reconv⟩) (hpips : sl'.pips = sl.pips) : s.deliver c t [k] [] =
    if sl'.fin then
      ((s.convEffect c t sl r k.col.val ⟨sl', r', code, first, reconv⟩).delivered c t sl.run sl' r').sliceGone c t sl.run
    else (s.convEffect c t sl r k.col.val ⟨sl', r', code, first, reconv⟩).delivered c t sl.run sl' r' := by
  have hslice : { sl' with pips := sl.pips || !([] : List PipCode).isEmpty } = sl' := by
    simp only [List.isEmpty_nil, Bool.not_true, Bool.or_false, ← hpips]
  unfold State.deliver
  simp only [hold, hrun, State.convAll, List.isEmpty_nil, Bool.or_true, if_true, hone]
  rw [← hslice]
  rfl

/-- The slice once its last column has left the columns to convert. -/
theorem convOne_in_range (htodo : sl.todo = [k.col.val]) (hovr : k.ovr = false) : convOne sl r k =
    ⟨{ sl with todo := [] }, r.note (codeClamp k.code) sl.step false false, some (codeClamp k.code, sl.step, false),
      false, false⟩ := by
  simp [convOne, htodo, hovr]

theorem convOne_over_range (htodo : sl.todo = [k.col.val]) (hwait : sl.wait = []) (hovr : k.ovr = true) (hstep : sl.step ≠ 0) :
    convOne sl r k = ⟨{ sl with todo := [], wait := [k.col.val] }, { r with ovr := true }, none, true, false⟩ := by
  simp [convOne, htodo, hwait, hovr, hstep]

theorem putSlice_done {sl' : SliceRun} (h : sl'.fin = true) (hrun : sl.run = sl'.run) (hidx : sl.idx = sl'.idx) :
    putSlice sl' [sl] = [] := by
  refine (if_pos h).trans ?_
  simp [hrun, hidx]

theorem putSlice_waiting {sl' : SliceRun} (h : sl'.fin = false) (hrun : sl.run = sl'.run) (hidx : sl.idx = sl'.idx) :
    putSlice sl' [sl] = [sl'] := by
  refine (if_neg (Bool.eq_false_iff.1 h)).trans ?_
  simp [hrun, hidx]

theorem State.convEffect_in_range (hentry : r.entry = some e) (v : Int) (g : Nat) (sl' : SliceRun) (r' : InRun) (col : Nat) :
    s.convEffect c t sl r col ⟨sl', r', some (v, g, false), false, false⟩ = s.addCode c e sl.idx g col v false := by
  simp only [State.convEffect, hentry, Bool.false_eq_true, if_false]

theorem State.convEffect_over_range (sl' : SliceRun) (r' : InRun) (col : Nat) :
    s.convEffect c t sl r col ⟨sl', r', none, true, false⟩ = s.raise (R.tilStatus c t) F.tilStatusOvr (R.tilOvrEvt c t) := by
  simp only [State.convEffect, if_true, Bool.false_eq_true, if_false]

/-- A slice that is complete with one more to follow: its entry counts it, and its input stays. -/
theorem State.sliceGone_not_last {n : Nat} (hrun : (s.tile c t).runs.get? n = some r) (hentry : r.entry = some e)
    (hleft : r.left = 2) : s.sliceGone c t n =
    (s.modAcc c e AccEntry.sliceDone).setTile c t { s.tile c t with
      runs := (s.tile c t).runs.put n { r with left := 1 } } := by
  have hdone : s.entryDone c r = s.modAcc c e AccEntry.sliceDone := by
    unfold State.entryDone
    rw [hentry]
  rw [State.sliceGone_of_run s c t hrun, hleft, hdone, State.tile_modAcc]
  exact if_neg (by decide)

/-- A code in range is added to its entry, which counts the slice. -/
theorem State.deliver_in_range (hslices : (s.tile c t).slices = [sl]) (htodo : sl.todo = [k.col.val]) (hwait : sl.wait = [])
    (hserv : sl.serv = []) (hrun : (s.tile c t).runs.get? sl.run = some r) (hentry : r.entry = some e) (hleft : r.left = 2)
    (hovr : k.ovr = false) : ∃ x x' : TileRt, x'.slices = [] ∧ s.deliver c t [k] [] =
      (((s.addCode c e sl.idx sl.step k.col.val (codeClamp k.code) false).setTile c t x).modAcc c e
        AccEntry.sliceDone).setTile c t x' := by
  have hfin : ({ sl with todo := [] } : SliceRun).fin = true := by simp [SliceRun.fin, hwait, hserv]
  have htile : (s.addCode c e sl.idx sl.step k.col.val (codeClamp k.code) false).tile c t = s.tile c t := rfl
  have hput : putSlice { sl with todo := [] } (s.tile c t).slices = [] := by rw [hslices]; exact putSlice_done hfin rfl rfl
  have hdeliver := State.deliver_one (oldest_of_single hslices (by simp [htodo])) hrun
    (convOne_in_range (r := r) htodo hovr) rfl
  rw [State.convEffect_in_range hentry, if_pos hfin, State.delivered, htile, hput] at hdeliver
  refine ⟨_, _, ?_, hdeliver.trans (State.sliceGone_not_last
    (r := r.note (codeClamp k.code) sl.step false false) ?_ hentry hleft)⟩
  · rw [State.tile_setTile]
  · rw [State.tile_setTile]; exact Tab.get?_put_self _ _ _

/-- A code over range leaves its column to be converted again. -/
theorem State.deliver_over_range (hslices : (s.tile c t).slices = [sl]) (htodo : sl.todo = [k.col.val]) (hwait : sl.wait = [])
    (hrun : (s.tile c t).runs.get? sl.run = some r) (hovr : k.ovr = true) (hstep : sl.step ≠ 0) :
    ∃ x : TileRt, x.slices = [{ sl with todo := [], wait := [k.col.val] }] ∧ s.deliver c t [k] [] =
      (s.raise (R.tilStatus c t) F.tilStatusOvr (R.tilOvrEvt c t)).setTile c t x := by
  have hfin : ({ sl with todo := [], wait := [k.col.val] } : SliceRun).fin = false := rfl
  have htile : (s.raise (R.tilStatus c t) F.tilStatusOvr (R.tilOvrEvt c t)).tile c t = s.tile c t :=
    State.tile_congr (State.raise_mc s _ _ _) c t
  have hdeliver := State.deliver_one (oldest_of_single hslices (by simp [htodo])) hrun
    (convOne_over_range (r := r) htodo hwait hovr hstep) rfl
  rw [State.convEffect_over_range, if_neg (Bool.eq_false_iff.1 hfin), State.delivered, htile] at hdeliver
  refine ⟨_, ?_, hdeliver⟩
  rw [hslices]
  exact putSlice_waiting hfin rfl rfl

/-- Settles O43: a code in range completes the slice and goes to its entry; one over range waits to be converted again. -/
theorem sliceAccumulates : Obligations.SliceAccumulates := by
  intro s c t sl r e y k hslices htodo hwait hserv hrun hentry hleft hacc
  have hstatus : R.tilStatus c t ≠ R.tilOvrEvt c t := by simp only [R.tilStatus, R.tilOvrEvt]; omega
  refine ⟨fun hovr => ?_, fun hovr hstep => ?_⟩
  · obtain ⟨x, x', hx, hdeliver⟩ := State.deliver_in_range hslices htodo hwait hserv hrun hentry hleft hovr
    have hsat : (y.sat || false) = y.sat := Bool.or_false _
    refine ⟨_, congrArg Host.Outcome.next hdeliver, ?_, ?_, rfl⟩
    · rw [State.tile_setTile, hx]
    · rw [State.accEntry_setTile]
      refine (State.accEntry_modAcc _ ((State.accEntry_setTile _ _ _ _ _ _).trans (State.accEntry_modAcc _ hacc))).trans ?_
      simp only [AccEntry.sliceDone, hsat]
      rfl
  · obtain ⟨x, hx, hdeliver⟩ := State.deliver_over_range hslices htodo hwait hrun hovr hstep
    refine ⟨_, congrArg Host.Outcome.next hdeliver, ?_, ?_, ?_, ?_, ?_⟩
    · rw [State.tile_setTile, hx]
    · rw [State.accEntry_setTile, State.accEntry_congr (State.raise_mc s _ _ _)]
      exact hacc
    · rw [State.isSet_setTile]
      exact State.isSet_raise_self s _ _ _ hstatus (by decide) (by decide)
    · rw [State.reg_setTile]
      exact State.reg_raise_evt s _ _ _ hstatus.symm
    · intro a ha
      rw [State.reg_setTile]
      exact ((State.regsBut.refl s _).raise (by simp) (by simp) _) a ha

end

/-! ### The range step, pip windows and partials over the mesh (R60, R63, R176, R177) -/

section
variable {s u w : State} {c t : Nat}

theorem tilRange_ne_tilState (c t : Nat) : R.tilRange c t ≠ R.tilState c t := by
  simp only [R.tilRange, R.tilState]; omega

/-- After 256 quiet inputs at a step below 3 the step rises by one and the count restarts. -/
theorem State.stepRise_spec (hquiet : s.getF (R.tilRange c t) F.tilRangeQuiet = 256)
    (hstep : s.getF (R.tilRange c t) F.tilRangeStep < 3) :
    (s.stepRise c t).getF (R.tilRange c t) F.tilRangeStep = s.getF (R.tilRange c t) F.tilRangeStep + 1 ∧
    (s.stepRise c t).getF (R.tilRange c t) F.tilRangeQuiet = 0 ∧
    s.WritesOnly (s.stepRise c t) [R.tilRange c t, R.tilState c t] := by
  have heq : s.stepRise c t = ((s.setF (R.tilRange c t) F.tilRangeStep (s.getF (R.tilRange c t) F.tilRangeStep + 1)).setF
      (R.tilRange c t) F.tilRangeQuiet 0).syncStep c t := if_pos ⟨hquiet, hstep⟩
  rw [heq]
  refine ⟨?_, ?_, ?_⟩
  · rw [State.getF_congr (State.reg_syncStep_ne _ (tilRange_ne_tilState c t)), State.getF_setF_field _ _ _ _ _ (by decide) (by decide),
      State.getF_setF_self _ _ _ _ (by decide)]
    exact Nat.mod_eq_of_lt (show _ < 4 by omega)
  · rw [State.getF_congr (State.reg_syncStep_ne _ (tilRange_ne_tilState c t)), State.getF_setF_self _ _ _ _ (by decide)]
    decide
  · exact (((State.WritesOnly.refl s _).setF (by simp) _ _).setF (by simp) _ _).trans
      ((State.writesOnly_syncStep _ c t).mono (by simp))

/-- What a new fidelity estimate writes once TIL_FIDELITY and the BELOW status are written. -/
def summaryRegs (c t : Nat) : List Nat := [R.tilState c t, R.tilSummary c, R.calWorst, R.calCounts, R.calSummary]

theorem State.writesOnly_renewSummary (s : State) (c t : Nat) : s.WritesOnly s.renewSummary (summaryRegs c t) := by
  have hworst : R.calWorst ∈ summaryRegs c t := by simp [summaryRegs]
  have hcounts : R.calCounts ∈ summaryRegs c t := by simp [summaryRegs]
  have hsum : R.calSummary ∈ summaryRegs c t := by simp [summaryRegs]
  exact (((((((((State.WritesOnly.refl s _).setF hworst _ _).setF hworst _ _).setF hworst _ _).setF hcounts _ _).setF hcounts _ _).setF
    hcounts _ _).setF hsum _ _).setF hsum _ _).setF hsum _ _

theorem State.writesOnly_setTileState (s : State) (c t st : Nat) : s.WritesOnly (s.setTileState c t st) (summaryRegs c t) := by
  have hstate : R.tilState c t ∈ summaryRegs c t := by simp [summaryRegs]
  have hsum : R.tilSummary c ∈ summaryRegs c t := by simp [summaryRegs]
  exact (((State.WritesOnly.refl s _).setF hstate _ _).setF hsum _ _).setF hsum _ _

/-- TIL_FIDELITY with a new estimate. -/
def State.fidWritten (s : State) (c t fid : Nat) : State :=
  (s.setF (R.tilFidelity c t) F.tilFidelityFid fid).setF (R.tilFidelity c t) F.tilFidelityValid 1

/-- A new estimate is written, raises BELOW where it is low, and renews the tile's state and the summary. -/
theorem State.writeFid_cases (s : State) (c t fid : Nat) : ∃ v : State,
    (v = s.fidWritten c t fid ∨ v = (s.fidWritten c t fid).raise (R.tilStatus c t) F.tilStatusBelow (R.tilBelowEvt c t)) ∧
    v.WritesOnly (s.writeFid c t fid) (summaryRegs c t) := by
  unfold State.writeFid
  refine ⟨_, ?_, .trans (.ite (State.writesOnly_setTileState _ c t 3) (.ite (State.writesOnly_setTileState _ c t 2) (.refl _ _)))
    (State.writesOnly_renewSummary _ c t)⟩
  split
  · exact .inr rfl
  · exact .inl rfl

theorem tilStatus_not_mem_summaryRegs (c t : Nat) : R.tilStatus c t ∉ summaryRegs c t := by
  simp only [summaryRegs, List.mem_cons, List.not_mem_nil, or_false, not_or, R.tilStatus, R.tilState, R.tilSummary, R.calWorst,
    R.calCounts, R.calSummary]
  omega

/-- A new estimate leaves the other status bits of the tile. -/
theorem State.isSet_writeFid (s : State) (c t fid : Nat) {f : Field} (hf : f.lo + f.width ≤ F.tilStatusBelow.lo ∨
    F.tilStatusBelow.lo + F.tilStatusBelow.width ≤ f.lo) :
    (s.writeFid c t fid).isSet (R.tilStatus c t) f = s.isSet (R.tilStatus c t) f := by
  have hfid : R.tilStatus c t ≠ R.tilFidelity c t := by simp only [R.tilStatus, R.tilFidelity]; omega
  have hevt : R.tilStatus c t ≠ R.tilBelowEvt c t := by simp only [R.tilStatus, R.tilBelowEvt]; omega
  have hwritten : (s.fidWritten c t fid).isSet (R.tilStatus c t) f = s.isSet (R.tilStatus c t) f :=
    (State.isSet_setF_ne _ _ _ _ hfid).trans (State.isSet_setF_ne _ _ _ _ hfid)
  obtain ⟨v, hv, hwrites⟩ := s.writeFid_cases c t fid
  rw [State.isSet_congr (hwrites.regs _ (tilStatus_not_mem_summaryRegs c t)) f]
  rcases hv with rfl | rfl
  · exact hwritten
  · rw [State.raise, State.isSet_count_ne _ _ _ hevt, State.isSet_setF_field _ _ _ _ _ (by decide) hf]
    exact hwritten

/-! #### The pip window (R63) -/

/-- The sums of the tile's pip window and TIL_PIP_GAIN are in `u` as in `s`. -/
structure State.SamePips (s u : State) (c t : Nat) : Prop where
  num : (u.tile c t).pipNum = (s.tile c t).pipNum
  den : (u.tile c t).pipDen = (s.tile c t).pipDen
  gain : u.reg (R.tilPipGain c t) = s.reg (R.tilPipGain c t)

namespace State.SamePips

theorem refl (s : State) (c t : Nat) : s.SamePips s c t := ⟨rfl, rfl, rfl⟩

theorem trans (h : s.SamePips u c t) (k : u.SamePips w c t) : s.SamePips w c t :=
  ⟨k.num.trans h.num, k.den.trans h.den, k.gain.trans h.gain⟩

theorem setTile (s : State) (c t : Nat) {x : TileRt} (hnum : x.pipNum = (s.tile c t).pipNum)
    (hden : x.pipDen = (s.tile c t).pipDen) : s.SamePips (s.setTile c t x) c t := by
  refine ⟨?_, ?_, rfl⟩ <;> rw [State.tile_setTile] <;> assumption

theorem writes {l : List Nat} (h : s.WritesOnly u l) (hl : R.tilPipGain c t ∉ l) : s.SamePips u c t where
  num := by rw [State.tile_congr h.mc]
  den := by rw [State.tile_congr h.mc]
  gain := h.regs _ hl

theorem report (s : State) (c t src code rep d : Nat) : s.SamePips (s.report src code rep d) c t where
  num := by rw [State.tile_congr (State.report_mc s src code rep d)]
  den := by rw [State.tile_congr (State.report_mc s src code rep d)]
  gain := State.reg_report s src code rep d (by
    simp only [R.tilPipGain, R.fltOpen, R.fltStatus, R.fltNewsrcEvt, R.fltOvfEvt]; omega)

theorem commit (s : State) (c t : Nat) : s.SamePips (s.commit c t) c t := by
  cases h : s.commitPending c t with
  | true => rw [State.commit_of_pending h]; exact refl s c t
  | false =>
    rw [State.commit_of_not_pending h]
    have hset : s.SamePips (s.setF (R.calTileCtrl c t) F.calTileCtrlCommit 1) c t :=
      writes ((State.WritesOnly.refl s _).setF (List.mem_singleton_self _) _ _) (by
        simp only [List.mem_singleton, R.tilPipGain, R.calTileCtrl]; omega)
    exact hset.trans (setTile _ c t rfl rfl)

theorem commitVread (s : State) (c t ratio : Nat) : s.SamePips (s.commitVread c t ratio) c t := by
  unfold State.commitVread
  have hset (u : State) (shd : Tab Nat) (temp : Int) : u.SamePips (u.setTile c t { u.tile c t with
      shd := shd, wantRatio := none, tempRef := temp }) c t := setTile u c t rfl rfl
  refine trans (trans ?_ (hset _ _ _)) (commit _ c t)
  split
  · exact report s c t _ _ _ _
  · exact refl s c t

end State.SamePips

/-- The window's ratio lies within 0.8 to 1.25. -/
abbrev TileRt.pipsOk (x : TileRt) : Prop := 0 < x.pipDen ∧ 4 * x.pipDen ≤ 5 * x.pipNum ∧ 4 * x.pipNum ≤ 5 * x.pipDen

/-- The ratio of the window's sums, to 14 fraction bits. -/
def TileRt.pipRatio (x : TileRt) : Nat := (roundQ (x.pipNum * 2 ^ 14) x.pipDen.toNat).toNat

/-- The restarted window with its ratio published. -/
def State.pipsPublished (s : State) (c t : Nat) : State :=
  (s.restartPips c t).setF (R.tilPipGain c t) F.tilPipGainRatio (s.tile c t).pipRatio

/-- A ratio in range is published and committed, at once or when a commit is free. -/
theorem State.closePips_of_ok (h : (s.tile c t).pipsOk) : s.closePips c t =
    (let u := (s.pipsPublished c t).setTile c t { (s.pipsPublished c t).tile c t with rejects := 0 }
     if u.commitFree c t then u.commitVread c t (s.tile c t).pipRatio
     else u.setTile c t { u.tile c t with wantRatio := some (s.tile c t).pipRatio }) :=
  if_pos (decide_eq_true h)

theorem State.SamePips.closePips (h : (s.tile c t).pipsOk) : (s.pipsPublished c t).SamePips (s.closePips c t) c t := by
  rw [State.closePips_of_ok h]
  generalize s.pipsPublished c t = v
  dsimp only
  split
  · refine .trans ?_ (.commitVread _ c t _)
    exact .setTile v c t rfl rfl
  · have hfirst : v.SamePips (v.setTile c t { v.tile c t with rejects := 0 }) c t := .setTile v c t rfl rfl
    have hsecond (u : State) : u.SamePips (u.setTile c t { u.tile c t with wantRatio := some (s.tile c t).pipRatio }) c t :=
      .setTile u c t rfl rfl
    exact hfirst.trans (hsecond _)

/-- The state in which a failed pip window is shown. -/
def State.pipsFailed (s : State) (c t : Nat) : State :=
  (s.restartPips c t).raise (R.tilStatus c t) F.tilStatusPipFail (R.tilPipfEvt c t)

/-- A failed window is raised; then it is counted, or the fidelity estimate is lowered. -/
theorem State.closePips_of_not_ok (h : ¬ (s.tile c t).pipsOk) : s.closePips c t =
    if 2 ≤ (s.tile c t).rejects then
      ((s.pipsFailed c t).setTile c t { (s.pipsFailed c t).tile c t with rejects := 0 }).writeFid c t
        ((s.pipsFailed c t).thresh c - 1)
    else (s.pipsFailed c t).setTile c t { (s.pipsFailed c t).tile c t with rejects := (s.tile c t).rejects + 1 } :=
  if_neg (by rw [decide_eq_false h]; exact Bool.false_ne_true)

/-- The window's registers and sums, and the status that shows its failure, stay as a failed window left them. -/
theorem State.closePips_failed (h : ¬ (s.tile c t).pipsOk) : (s.pipsFailed c t).SamePips (s.closePips c t) c t ∧
    (s.closePips c t).isSet (R.tilStatus c t) F.tilStatusPipFail = (s.pipsFailed c t).isSet (R.tilStatus c t) F.tilStatusPipFail ∧
    (s.closePips c t).reg (R.tilPipfEvt c t) = (s.pipsFailed c t).reg (R.tilPipfEvt c t) := by
  have hgain : R.tilPipGain c t ∉ fidRegs c t := by
    simp only [fidRegs, List.mem_cons, List.not_mem_nil, or_false, not_or, R.tilPipGain, R.tilFidelity, R.tilStatus,
      R.tilBelowEvt, R.tilState, R.tilSummary, R.calWorst, R.calCounts, R.calSummary]
    omega
  have hevt : R.tilPipfEvt c t ∉ fidRegs c t := by
    simp only [fidRegs, List.mem_cons, List.not_mem_nil, or_false, not_or, R.tilPipfEvt, R.tilFidelity, R.tilStatus,
      R.tilBelowEvt, R.tilState, R.tilSummary, R.calWorst, R.calCounts, R.calSummary]
    omega
  rw [State.closePips_of_not_ok h]
  generalize s.pipsFailed c t = v
  split
  · have hwrites := State.WritesOnly.writeFid (v.setTile c t { v.tile c t with rejects := 0 }) c t (v.thresh c - 1)
    have hset : v.SamePips (v.setTile c t { v.tile c t with rejects := 0 }) c t := .setTile v c t rfl rfl
    exact ⟨hset.trans (.writes hwrites hgain),
      (State.isSet_writeFid _ c t _ (by decide)).trans (State.isSet_setTile v c t _ _ _),
      (hwrites.regs _ hevt).trans (State.reg_setTile v c t _ _)⟩
  · exact ⟨.setTile v c t rfl rfl, State.isSet_setTile v c t _ _ _, State.reg_setTile v c t _ _⟩

/-- A restarted window has no sums and no slices. -/
theorem State.restartPips_spec (s : State) (c t : Nat) : ((s.restartPips c t).tile c t).pipNum = 0 ∧
    ((s.restartPips c t).tile c t).pipDen = 0 ∧ (s.restartPips c t).getF (R.tilPipGain c t) F.tilPipGainUsed = 0 ∧
    s.regsBut (s.restartPips c t) [R.tilPipGain c t] := by
  unfold State.restartPips
  refine ⟨?_, ?_, ?_, ?_⟩
  · rw [State.tile_setF, State.tile_setTile]
  · rw [State.tile_setF, State.tile_setTile]
  · rw [State.getF_setF_self _ _ _ _ (by decide)]; rfl
  · exact ((State.WritesOnly.refl (s.setTile c t _) _).setF (List.mem_singleton_self _) _ _).regs

/-- Closing the window: the sums restart, and the ratio is published or the failure shown. -/
theorem State.closePips_spec (s : State) (c t : Nat) : (s.closePips c t).getF (R.tilPipGain c t) F.tilPipGainUsed = 0 ∧
    ((s.closePips c t).tile c t).pipNum = 0 ∧ ((s.closePips c t).tile c t).pipDen = 0 ∧
    ((s.tile c t).pipsOk → (s.closePips c t).getF (R.tilPipGain c t) F.tilPipGainRatio = (s.tile c t).pipRatio % 2 ^ 16) ∧
    (¬ (s.tile c t).pipsOk → (s.closePips c t).isSet (R.tilStatus c t) F.tilStatusPipFail = true ∧
      (s.closePips c t).reg (R.tilPipfEvt c t) = satInc (s.reg (R.tilPipfEvt c t)) 1) := by
  obtain ⟨hnum, hden, hused, hregs⟩ := s.restartPips_spec c t
  have hne : R.tilPipGain c t ≠ R.tilStatus c t ∧ R.tilPipGain c t ≠ R.tilPipfEvt c t ∧ R.tilStatus c t ≠ R.tilPipfEvt c t := by
    simp only [R.tilPipGain, R.tilStatus, R.tilPipfEvt]; omega
  obtain ⟨hstatus, hevt, hpair⟩ := hne
  by_cases hok : (s.tile c t).pipsOk
  · have hsame := State.SamePips.closePips hok
    refine ⟨?_, ?_, ?_, fun _ => ?_, fun hnot => absurd hok hnot⟩
    · rw [State.getF_congr hsame.gain, State.pipsPublished, State.getF_setF_field _ _ _ _ _ (by decide) (by decide), hused]
    · rw [hsame.num, State.pipsPublished, State.tile_setF, hnum]
    · rw [hsame.den, State.pipsPublished, State.tile_setF, hden]
    · rw [State.getF_congr hsame.gain, State.pipsPublished, State.getF_setF_self _ _ _ _ (by decide)]
      rfl
  · obtain ⟨hsame, hset, hcount⟩ := State.closePips_failed hok
    refine ⟨?_, ?_, ?_, fun hyes => absurd hyes hok, fun _ => ⟨?_, ?_⟩⟩
    · rw [State.getF_congr hsame.gain, State.pipsFailed, State.getF_raise_ne _ _ _ _ _ hstatus hevt, hused]
    · rw [hsame.num, State.pipsFailed, State.tile_congr (State.raise_mc _ _ _ _), hnum]
    · rw [hsame.den, State.pipsFailed, State.tile_congr (State.raise_mc _ _ _ _), hden]
    · rw [hset]
      exact State.isSet_raise_self _ _ _ _ hpair (by decide) (by decide)
    · rw [hcount, State.pipsFailed, State.reg_raise_evt _ _ _ _ hpair.symm,
        hregs _ (by rw [List.mem_singleton]; exact hevt.symm)]

/-! #### Partials over the mesh (R176, R177) -/

theorem State.accEntry_setAcc (s : State) (c e : Nat) (x : AccEntry) : (s.setAcc c e x).accEntry c e = some x := by
  rw [State.accEntry, State.setAcc_mc]
  exact Tab.get?_put_self _ _ _

theorem State.accEntry_setAcc_ne (s : State) {c e c' e' : Nat} (x : AccEntry) (h : accKey c' e' ≠ accKey c e) :
    (s.setAcc c e x).accEntry c' e' = s.accEntry c' e' := by
  rw [State.accEntry, State.setAcc_mc]
  exact Tab.get?_put_ne _ _ h

/-- The entry that an arriving partial becomes. -/
def AccEntry.arrived (x : AccEntry) (vals : List Int) : AccEntry :=
  { x with moved := true, token := 0, vals := (List.range 512).map (fun i => vals.getD i 0) }

/-- The state in which a stale partial is shown. -/
def State.staleShown (s : State) (c : Nat) : State :=
  (s.raise (R.accStatus c) F.accStatusStale (R.accStaleEvt c)).raise R.dspStatus F.dspStatusStale R.dspStaleEvt

variable {hdr : Nat} {vals : List Int}

theorem State.meshArrive_of_fresh (hsrc : s.meshSource (hdrEntry hdr vals) = none)
    (hgen : s.genOk (hdrEntry hdr vals).ctx (hdrEntry hdr vals).gen = true) (hfree : s.freeAccs c ≠ []) :
    ∃ e ∈ s.freeAccs c, s.meshArrive c hdr vals =
      (s.choose (s.freeAccs c)).2.setAcc c e ((hdrEntry hdr vals).arrived vals) := by
  refine ⟨_, State.choose_mem (s := s) hfree, ?_⟩
  simp only [State.meshArrive, hsrc, hgen, if_true, State.allocAcc_of_free _ hfree, AccEntry.arrived]

theorem State.meshArrive_of_stale (hsrc : s.meshSource (hdrEntry hdr vals) = none)
    (hgen : s.genOk (hdrEntry hdr vals).ctx (hdrEntry hdr vals).gen = false) : s.meshArrive c hdr vals = s.staleShown c := by
  simp only [State.meshArrive, hsrc, hgen, Bool.false_eq_true, if_false, State.staleShown]

theorem State.staleShown_spec (s : State) (c : Nat) : (s.staleShown c).isSet (R.accStatus c) F.accStatusStale = true ∧
    (s.staleShown c).isSet R.dspStatus F.dspStatusStale = true ∧
    (s.staleShown c).reg (R.accStaleEvt c) = satInc (s.reg (R.accStaleEvt c)) 1 ∧
    (s.staleShown c).reg R.dspStaleEvt = satInc (s.reg R.dspStaleEvt) 1 ∧ s.regsOnly (s.staleShown c) := by
  have hne : R.accStatus c ≠ R.accStaleEvt c ∧ R.accStatus c ≠ R.dspStatus ∧ R.accStatus c ≠ R.dspStaleEvt ∧
      R.accStaleEvt c ≠ R.dspStatus ∧ R.accStaleEvt c ≠ R.dspStaleEvt := by
    simp only [R.accStatus, R.accStaleEvt, R.dspStatus, R.dspStaleEvt]; omega
  obtain ⟨hpair, hstatus, hstatus', hevt, hevt'⟩ := hne
  have hwrites (u : State) (a : Nat) (f : Field) (e : Nat) : u.WritesOnly (u.raise a f e) [a, e] :=
    (State.WritesOnly.refl u _).raise (by simp) (by simp) f
  refine ⟨?_, ?_, ?_, ?_, ?_⟩
  · rw [State.staleShown, State.isSet_raise_ne _ _ _ _ _ hstatus hstatus']
    exact State.isSet_raise_self _ _ _ _ hpair (by decide) (by decide)
  · exact State.isSet_raise_self _ _ _ _ (by decide) (by decide) (by decide)
  · rw [State.staleShown, State.reg_raise_ne _ _ _ _ hevt hevt', State.reg_raise_evt _ _ _ _ hpair.symm]
  · rw [State.staleShown, State.reg_raise_evt _ _ _ _ (by decide), State.reg_raise_ne _ _ _ _ hstatus'.symm hevt'.symm]
  · exact (hwrites s _ _ _).only.trans (hwrites _ _ _ _).only

/-- Settles O44: `stepRise`, `closePips` and `meshArrive` in the cases of the statement. -/
theorem tileEvents : Obligations.TileEvents := by
  intro s c t
  refine ⟨fun hquiet hstep => ?rises, fun hused => ?closes, fun hdr vals hsrc => ⟨fun hgen hfree => ?arrives, fun hgen => ?stale⟩⟩
  case rises =>
    obtain ⟨hrises, hrestarts, hwrites⟩ := State.stepRise_spec hquiet hstep
    exact ⟨_, rfl, hrises, hrestarts, hwrites.regs, hwrites.only⟩
  case closes =>
    obtain ⟨huse, hnum, hden, hok, hfail⟩ := s.closePips_spec c t
    exact ⟨s.closePips c t, congrArg Host.Outcome.next (if_pos hused), huse, hnum, hden, hok, hfail⟩
  case arrives =>
    obtain ⟨e, he, heq⟩ := State.meshArrive_of_fresh hsrc hgen hfree
    refine ⟨_, e, congrArg Host.Outcome.next heq, he, State.accEntry_setAcc _ _ _ _,
      fun c' e' h => State.accEntry_setAcc_ne _ _ h, State.regsBut_setAcc _ _ _ _⟩
  case stale =>
    obtain ⟨hacc, hdsp, haccEvt, hdspEvt, honly⟩ := s.staleShown_spec c
    exact ⟨_, congrArg Host.Outcome.next (State.meshArrive_of_stale hsrc hgen), hacc, hdsp, haccEvt, hdspEvt, honly⟩

end

end Sys2Proof.Machine
end


section
/-! PROOF. Gap tasks (R134 to R136, R139): what starts one, what its end leaves of the tile, and O46. -/

namespace Sys2Proof.Machine

section
variable {s : State} {c t : Nat}

/-! ### The start of a gap task (R134, R136) -/

/-- No task of the kind collects gaps on the tile, and its period has passed. -/
abbrev State.GapDue (s : State) (c t k : Nat) : Prop :=
  (s.tile c t).gaps.any (fun g => g.kind == k) = false ∧ (s.tile c t).gapStart.getD k 0 + s.gapPeriod k ≤ s.timeUs

/-- The tile when a task of the kind starts to collect its gaps. -/
def TileRt.withGapTask (x : TileRt) (k at_ : Nat) : TileRt :=
  { x with gaps := x.gaps ++ [⟨k, gapsOf k⟩], gapStart := x.gapStart.put k at_ }

theorem State.startGaps_of_due {k : Nat} (htrack : s.tileTracked c t = true) (hdue : s.GapDue c t k) :
    s.startGaps c t k = s.setTile c t ((s.tile c t).withGapTask k s.timeUs) := by
  obtain ⟨hnone, hperiod⟩ := hdue
  exact if_pos (by simp only [htrack, hnone, hperiod, Bool.not_false, decide_true, Bool.and_self])

/-- What a started task shows: one more gap task, and the time at which it started. -/
theorem State.startGaps_spec {k : Nat} (htrack : s.tileTracked c t = true) (hdue : s.GapDue c t k) :
    s.startGaps c t k = { s with mc := (s.startGaps c t k).mc } ∧
    (s.startGaps c t k).tile c t = { s.tile c t with
      gaps := (s.tile c t).gaps ++ [⟨k, gapsOf k⟩], gapStart := ((s.startGaps c t k).tile c t).gapStart } ∧
    ((s.startGaps c t k).tile c t).gapStart.getD k 0 = s.timeUs := by
  have htile : (s.startGaps c t k).tile c t = (s.tile c t).withGapTask k s.timeUs := by
    rw [State.startGaps_of_due htrack hdue, State.tile_setTile]
  refine ⟨by rw [State.startGaps_of_due htrack hdue]; rfl, by rw [htile]; rfl, ?_⟩
  rw [htile]
  exact Tab.getD_put_self _ _ _ _

/-! ### The end of a gap task (R132, R134) -/

/-- The tile once gap task `g` has its gaps: its trims are in the shadow set, and its times restart. -/
def TileRt.gapTaskDone (x : TileRt) (g : GapRun) (trims : List TrimVal) (at_ : Nat) (late : Bool) : TileRt :=
  { x with
    gaps := x.gaps.filter (fun h => h.kind != g.kind), shd := putTrims x.shd (trims.filter (trimOfKind g.kind)),
    gapDone := x.gapDone.put g.kind at_, gapStart := if late then x.gapStart.put g.kind at_ else x.gapStart }

theorem State.endGaps_of_done {g : GapRun} {trims : List TrimVal} (hdone : (s.tile c t).gaps.find? (fun g => g.left == 0) = some g)
    (hpend : s.commitPending c t = false) : ∃ late, s.endGaps c t trims false =
      (s.setTile c t ((s.tile c t).gapTaskDone g trims s.timeUs late)).commitWhenFree c t := by
  refine ⟨decide ((s.tile c t).gapStart.getD g.kind 0 + s.gapPeriod g.kind ≤ s.timeUs), ?_⟩
  simp only [State.endGaps, hdone, hpend, Bool.false_eq_true, if_false]
  rfl

/-- Whether a commit is free depends on the tile by the time of its last commit alone. -/
theorem State.commitFree_setTile (s : State) (c t : Nat) {x : TileRt} (h : x.commitAt = (s.tile c t).commitAt) :
    (s.setTile c t x).commitFree c t = s.commitFree c t := by
  unfold State.commitFree
  rw [State.tile_setTile, h]
  rfl

theorem State.commitWhenFree_of_free (h : s.commitFree c t = true) : s.commitWhenFree c t = s.commit c t := if_pos h

theorem State.commitWhenFree_of_not_free (h : s.commitFree c t = false) :
    s.commitWhenFree c t = s.setTile c t { s.tile c t with wantCommit := true } := if_neg (Bool.eq_false_iff.1 h)

/-- A commit when free, of a tile written before: what it leaves of the tile, and the commit made or wanted. -/
theorem State.commitWhenFree_spec (s : State) (c t : Nat) {x : TileRt} (h : x.commitAt = (s.tile c t).commitAt) :
    (∃ at_ want, ((s.setTile c t x).commitWhenFree c t).tile c t = { x with commitAt := at_, wantCommit := want }) ∧
    (s.commitFree c t = true → ((s.setTile c t x).commitWhenFree c t).commitPending c t = true) ∧
    (s.commitFree c t = false → (((s.setTile c t x).commitWhenFree c t).tile c t).wantCommit = true) := by
  have hfree := s.commitFree_setTile c t h
  cases hcase : s.commitFree c t with
  | true =>
    rw [hcase] at hfree
    rw [State.commitWhenFree_of_free hfree, State.tile_commit_setTile (State.not_commitPending_of_commitFree hcase)]
    exact ⟨⟨_, _, rfl⟩, fun _ => State.commitPending_commit _ c t, fun hno => absurd hno (by decide)⟩
  | false =>
    rw [hcase] at hfree
    rw [State.commitWhenFree_of_not_free hfree]
    simp only [State.tile_setTile]
    exact ⟨⟨x.commitAt, true, rfl⟩, fun hno => absurd hno (by decide), fun _ => trivial⟩

end

/-- Settles O46: `startGaps`, a forced gap, and `endGaps` on a task that has its gaps. -/
theorem gapTasks : Obligations.GapTasks := by
  intro s c t htrack
  refine ⟨fun hdue => ?offsets, fun hdue => ?references, fun hdue hflash => ?gains, fun hflash => ?postponed,
    fun hage => ?forced, fun g trims hdone hpend => ?ends⟩
  case offsets => exact ⟨_, rfl, State.startGaps_spec htrack hdue⟩
  case references => exact ⟨_, rfl, State.startGaps_spec htrack hdue⟩
  case gains =>
    exact ⟨_, congrArg Host.Outcome.next (if_neg (Bool.eq_false_iff.1 hflash)), State.startGaps_spec htrack hdue⟩
  case postponed => exact congrArg Host.Outcome.next (if_pos hflash)
  case forced =>
    refine ⟨_, congrArg Host.Outcome.next (if_pos ?_), State.tile_setTile _ _ _ _, rfl⟩
    rw [htrack, decide_eq_true hage]
    rfl
  case ends =>
    obtain ⟨late, hends⟩ := State.endGaps_of_done (trims := trims) hdone hpend
    obtain ⟨⟨at_, want, htile⟩, hfree, hwant⟩ := s.commitWhenFree_spec c t
      (x := (s.tile c t).gapTaskDone g trims s.timeUs late) rfl
    refine ⟨_, congrArg Host.Outcome.next hends, ?_, ?_, ?_, ?_, hfree, hwant⟩
    · rw [htile]; rfl
    · rw [htile]; rfl
    · rw [htile]; rfl
    · rw [htile]
      exact Tab.getD_put_self _ _ _ _

end Sys2Proof.Machine
end


section
/-! PROOF. Programming (R79 to R88, R98 to R100, R110): refresh, the pump arbiter, batches and passes, mapping switches and
archive slots, and O48. -/

namespace Sys2Proof.Machine

/-! ### Physical tiles -/

section
variable {s u : State} {c t : Nat}

theorem tileKey_div (ht : t < 128) : tileKey c t / 128 = c := by simp only [tileKey]; omega

theorem tileKey_mod (ht : t < 128) : tileKey c t % 128 = t := by simp only [tileKey]; omega

theorem State.pTile_tileKey (s : State) (c : Nat) (ht : t < 128) : s.pTile (tileKey c t) = s.tile c t := by
  rw [State.pTile, tileKey_div ht, tileKey_mod ht]

theorem State.setPTile_tileKey (s : State) (c : Nat) (ht : t < 128) (x : TileRt) :
    s.setPTile (tileKey c t) x = s.setTile c t x := by
  rw [State.setPTile, tileKey_div ht, tileKey_mod ht]

theorem State.setIssue_tileKey (s : State) (c : Nat) (ht : t < 128) (b : Bool) :
    s.setIssue (tileKey c t) b = s.setF (R.tilCtrl c t) F.tilCtrlIssueEn (b2n b) := by
  rw [State.setIssue, tileKey_div ht, tileKey_mod ht]

theorem tileIx_lt (t : TileIx) : t.val < 128 := by omega

/-! ### States of a tile (R67, R76) -/

theorem State.WritesOnly.enterState {l : List Nat} (h : s.WritesOnly u l) (hstate : R.tilState c t ∈ l)
    (hsum : R.tilSummary c ∈ l) (st : Nat) : s.WritesOnly (u.setTileState c t st) l :=
  ((h.setF hstate _ _).setF hsum _ _).setF hsum _ _

theorem State.tileState_congr (h : u.reg (R.tilState c t) = s.reg (R.tilState c t)) : u.tileState c t = s.tileState c t :=
  State.getF_congr h _

theorem State.tileState_setTileState (s : State) (c t : Nat) {st : Nat} (h : st < 8) : (s.setTileState c t st).tileState c t = st := by
  have hne : R.tilState c t ≠ R.tilSummary c := by simp only [R.tilState, R.tilSummary]; omega
  have hset : (s.setF (R.tilState c t) F.tilStateState st).tileState c t = st :=
    (State.getF_setF_self s _ _ _ (by decide)).trans (Nat.mod_eq_of_lt h)
  unfold State.setTileState
  rw [State.tileState_congr (State.reg_setF_ne _ _ _ hne), State.tileState_congr (State.reg_setF_ne _ _ _ hne), hset]

/-! ### What holds programming (R88) -/

/-- Programming is held by the level of the throttle and by the temperatures alone. -/
theorem State.progHeld_congr {l : List Nat} (h : s.WritesOnly u l) (hlevel : R.thmLevel ∉ l) (htemp : ∀ i, R.thmTemp i ∉ l) :
    u.progHeld = s.progHeld := by
  have hcal : u.cal = s.cal := h.keeps State.cal fun _ => rfl
  have hfw (i : Nat) : u.fwTemp i = s.fwTemp i := by
    simp only [State.fwTemp, State.sensor, State.graftOffset, State.getF_congr (h.regs _ (htemp i)), hcal]
  simp only [State.progHeld, State.isSet_congr (h.regs _ hlevel), State.isSet_congr (h.regs _ (htemp _)), hfw]

/-! ### A refresh starts (R98, R99) -/

theorem State.refreshStart_of_pick {x y : Nat} (hpick : s.refreshPick = some (x, y))
    (hroom : s.refreshes none < s.tuneP P.tuneRefreshMaxDev) (hheld : s.progHeld = false) (hrelief : ∀ c, c < 16 → s.reliefUsed c < 4) :
    s.refreshStart = (s.setPTile y { s.pTile y with fails := 0 }).openJob (.refresh x y) [y, x] := by
  have hnone : (List.range 16).foldl
      (fun s c => if s.belowTiles.any (fun x => x / 128 == c) && decide (4 ≤ s.reliefUsed c) then
        s.report (Src.core c) E.calReliefExhausted (Rep.fw 2) else s) s = s :=
    State.foldl_induction (P := fun u => u = s) rfl fun u hu c hc => by
      have hlt : ¬ 4 ≤ s.reliefUsed c := Nat.not_le.2 (hrelief c (List.mem_range.1 hc))
      simp only [hu, decide_eq_false hlt, Bool.and_false, Bool.false_eq_true, if_false]
  unfold State.refreshStart
  rw [hnone]
  refine (if_pos ?_).trans ?_
  · simp only [hroom, hheld, decide_true, Bool.not_false, Bool.and_self]
  · rw [hpick]

/-! ### The pump arbiter (R86, R87) -/

theorem State.pumpAdmit_of_held {p : Nat} {r : ProgRun} (hhead : s.pumpHead = some (p, r))
    (h : s.pumpFits p r = false ∨ s.progHeld = true) : s.pumpAdmit = s := by
  unfold State.pumpAdmit
  rw [hhead]
  refine if_neg ?_
  rcases h with h | h <;> simp [h]

theorem State.pumpAdmit_of_fits {p : Nat} {r : ProgRun} (hhead : s.pumpHead = some (p, r)) (hfits : s.pumpFits p r = true)
    (hheld : s.progHeld = false) : s.pumpAdmit = if r.phase = 0 then s.beginWrite p r
      else s.setPTile p { s.pTile p with prog := some { r with phase := 4, batch := 0, failed := 0, running := true } } := by
  unfold State.pumpAdmit
  rw [hhead]
  exact if_pos (by simp only [hfits, hheld, Bool.not_false, Bool.and_self])

/-- The registers when a tile enters its write pass. -/
def State.writeRegs (s : State) (c t : Nat) (hdr : Bytes) : State :=
  (((s.setF (R.tilCtrl c t) F.tilCtrlIssueEn (b2n false)).setTileState c t 4).setF (R.calTileCtrl c t) F.calTileCtrlCommit 0).setF
    (R.tilCtrl c t) F.tilCtrlGrpSize (leAt hdr 8 1)

/-- The tile when it enters its write pass for logical tile `l`. -/
def TileRt.writing (x : TileRt) (l : Nat) (r : ProgRun) (running : Bool) : TileRt :=
  { x with q := [], wantRatio := none, wantCommit := false, gaps := [], forced := false, holds := some l, stale := true,
           prog := some { r with phase := 1, batch := 0, running := running } }

/-- The registers that entering a write pass may change. -/
def writeRegList (c t : Nat) : List Nat := [R.tilCtrl c t, R.tilState c t, R.tilSummary c, R.calTileCtrl c t]

theorem State.writesOnly_writeRegs (s : State) (c t : Nat) (hdr : Bytes) :
    s.WritesOnly (s.writeRegs c t hdr) (writeRegList c t) := by
  have hctrl : R.tilCtrl c t ∈ writeRegList c t := by simp [writeRegList]
  have hcal : R.calTileCtrl c t ∈ writeRegList c t := by simp [writeRegList]
  exact (((((State.WritesOnly.refl s _).setF hctrl _ _).enterState (by simp [writeRegList]) (by simp [writeRegList]) 4).setF
    hcal _ _).setF hctrl _ _)

theorem thermal_not_mem_writeRegList (c t : Nat) : R.thmLevel ∉ writeRegList c t ∧ ∀ i, R.thmTemp i ∉ writeRegList c t := by
  refine ⟨?_, fun i => ?_⟩
  all_goals
    simp only [writeRegList, List.mem_cons, List.not_mem_nil, or_false, not_or, R.thmLevel, R.thmTemp, R.tilCtrl, R.tilState,
      R.tilSummary, R.calTileCtrl]
    omega

/-- The tile is in PROG, is not issued, and has no commit pending. -/
theorem State.writeRegs_spec (s : State) (c t : Nat) (hdr : Bytes) : (s.writeRegs c t hdr).tileState c t = 4 ∧
    (s.writeRegs c t hdr).isSet (R.tilCtrl c t) F.tilCtrlIssueEn = false ∧ (s.writeRegs c t hdr).commitPending c t = false := by
  have hne : R.tilState c t ≠ R.calTileCtrl c t ∧ R.tilState c t ≠ R.tilCtrl c t ∧ R.tilCtrl c t ≠ R.calTileCtrl c t ∧
      R.tilCtrl c t ≠ R.tilState c t ∧ R.tilCtrl c t ≠ R.tilSummary c := by
    simp only [R.tilState, R.calTileCtrl, R.tilCtrl, R.tilSummary]; omega
  obtain ⟨hcal, hstate, hctrl, hctrlState, hctrlSum⟩ := hne
  have henter (u : State) : (u.setTileState c t 4).reg (R.tilCtrl c t) = u.reg (R.tilCtrl c t) :=
    ((State.WritesOnly.refl u [R.tilState c t, R.tilSummary c]).enterState (by simp) (by simp) 4).regs _ (by simp [hctrlState, hctrlSum])
  refine ⟨?_, ?_, ?_⟩
  · rw [State.writeRegs, State.tileState_congr (State.reg_setF_ne _ _ _ hstate),
      State.tileState_congr (State.reg_setF_ne _ _ _ hcal), State.tileState_setTileState _ _ _ (by decide)]
  · rw [State.writeRegs, State.isSet_setF_field _ _ _ _ _ (by decide) (by decide), State.isSet_setF_ne _ _ _ _ hctrl,
      State.isSet_congr (henter _), State.isSet_setF_self _ _ _ _ (by decide)]
    decide
  · rw [State.commitPending, State.writeRegs, State.isSet_setF_ne _ _ _ _ hctrl.symm, State.isSet_setF_self _ _ _ _ (by decide)]
    decide

theorem State.beginWrite_of_slot (ht : t < 128) {r : ProgRun} {n l : Nat} {j : Job} {a : ArcSlot}
    (hjob : s.jobOf (tileKey c t) = some (n, j)) (hlog : s.jobLogical j (tileKey c t) = some l)
    (hslot : s.slotReady l = some a) : s.beginWrite (tileKey c t) r = (s.writeRegs c t a.hdr).setTile c t
      ((((s.writeRegs c t a.hdr).tile c t).load a.hdr).writing l r (!(s.writeRegs c t a.hdr).progHeld)) := by
  unfold State.beginWrite
  rw [tileKey_div ht, tileKey_mod ht]
  simp only [hjob, hlog, hslot, State.setIssue_tileKey s c ht]
  rfl

/-- What a tile shows that enters its write pass. -/
theorem State.beginWrite_spec (ht : t < 128) {r : ProgRun} {n l : Nat} {j : Job} {a : ArcSlot}
    (hjob : s.jobOf (tileKey c t) = some (n, j)) (hlog : s.jobLogical j (tileKey c t) = some l) (hslot : s.slotReady l = some a)
    (hheld : s.progHeld = false) :
    (s.beginWrite (tileKey c t) r).tileState c t = 4 ∧
    (s.beginWrite (tileKey c t) r).isSet (R.tilCtrl c t) F.tilCtrlIssueEn = false ∧
    (s.beginWrite (tileKey c t) r).commitPending c t = false ∧
    (∃ x : TileRt, (s.beginWrite (tileKey c t) r).tile c t = x.writing l r true) ∧
    s.regsBut (s.beginWrite (tileKey c t) r) (writeRegList c t) := by
  obtain ⟨hstate, hissue, hcommit⟩ := s.writeRegs_spec c t a.hdr
  obtain ⟨hlevel, htemp⟩ := thermal_not_mem_writeRegList c t
  have hheld' := (State.progHeld_congr (s.writesOnly_writeRegs c t a.hdr) hlevel htemp).trans hheld
  rw [State.beginWrite_of_slot ht hjob hlog hslot, hheld']
  have hregs (x : TileRt) (b : Nat) := State.reg_setTile (s.writeRegs c t a.hdr) c t x b
  exact ⟨(State.tileState_congr (hregs _ _)).trans hstate, (State.isSet_congr (hregs _ _) _).trans hissue,
    (State.commitPending_congr (hregs _ _)).trans hcommit, ⟨_, State.tile_setTile _ _ _ _⟩,
    fun b hb => (hregs _ b).trans ((s.writesOnly_writeRegs c t a.hdr).regs b hb)⟩

/-! ### Batches and passes (R79 to R84) -/

/-- The run once a batch of it has ended. -/
def ProgRun.batched (r : ProgRun) (failed : Nat) (running : Bool) : ProgRun :=
  { r with batch := r.batch + 1, failed := if r.phase = 4 then r.failed + failed else r.failed, running := running }

/-- A write pass of the tile has ended: one more cycle, and the tile settles from `at_` on. -/
def TileRt.written (x : TileRt) (at_ : Nat) : TileRt := { x with cycles := x.cycles + 1, prog := some ⟨2, 0, 0, at_, false⟩ }

/-- A settle-and-reverify pass of the tile has ended with the parameter of its cells `sp`. -/
def TileRt.verified (x : TileRt) (sp failed : Nat) : TileRt :=
  { x with prog := none, sp := sp, stale := decide (64 < failed) }

section
variable {r : ProgRun} (hprog : (s.tile c t).prog = some r) (hrun : r.running = true) (ht : t < 128) (failed : Nat)
include hprog hrun ht

theorem State.batchDone_of_more (hmore : r.batch + 1 < 2176) : s.batchDone (tileKey c t) failed =
    s.setTile c t { s.tile c t with prog := some (r.batched failed (!s.progHeld)) } := by
  simp only [State.batchDone, State.pTile_tileKey s c ht, hprog, hrun, Bool.not_true, Bool.false_eq_true, if_false]
  exact (if_pos hmore).trans (State.setPTile_tileKey s c ht _)

theorem State.batchDone_of_written (hlast : r.batch + 1 = 2176) (hphase : r.phase = 1) : s.batchDone (tileKey c t) failed =
    if (s.tile c t).cycles + 1 = s.tuneP P.tuneWearWarn then
      (s.setTile c t ((s.tile c t).written s.timeUs)).report (Src.tile c t) E.calWearWarn (Rep.fw 2) ((s.tile c t).cycles + 1)
    else s.setTile c t ((s.tile c t).written s.timeUs) := by
  have hfull : ¬ r.batch + 1 < batchesPerPass := by rw [hlast]; decide
  simp only [State.batchDone, State.pTile_tileKey s c ht, State.setPTile_tileKey s c ht, tileKey_div ht, tileKey_mod ht, hprog,
    hrun, hfull, hphase, Bool.not_true, Bool.false_eq_true, if_false, if_true]
  rfl

theorem State.batchDone_of_verified (hlast : r.batch + 1 = 2176) (hphase : r.phase = 4) (hfew : r.failed + failed ≤ 64) :
    ∃ (v : State) (sp : Nat), v.regs = s.regs ∧ v.part = s.part ∧ v.mc = s.mc ∧ s.batchDone (tileKey c t) failed =
      (v.setTile c t ((s.tile c t).verified sp (r.failed + failed))).setTileState c t 1 := by
  have hfull : ¬ r.batch + 1 < batchesPerPass := by rw [hlast]; decide
  have hnot : ¬ (4 : Nat) = 1 := by decide
  refine ⟨{ s with fresh := s.fresh + 1 }, Config.freeValue s.fresh % 256, rfl, rfl, rfl, ?_⟩
  simp only [State.batchDone, State.pTile_tileKey s c ht, tileKey_div ht, tileKey_mod ht, hprog, hrun, hfull, hphase, hfew, hnot,
    Bool.not_true, Bool.false_eq_true, if_false, if_true]
  rw [State.setPTile_tileKey _ c ht]
  rfl

end

/-! ### Settling (R83, R87) -/

/-- The settled tile waits for its second pass. -/
def State.settled (s : State) (c t : Nat) (r : ProgRun) : State :=
  s.setTile c t { s.tile c t with prog := some { r with phase := 3, since := s.timeUs } }

section
variable {r : ProgRun} (ht : t < 128) (hprog : (s.tile c t).prog = some r)
include ht hprog

theorem State.settle2_of_early (hearly : s.timeUs < r.since + 100000) : s.settle2 (tileKey c t) = s := by
  simp only [State.settle2, State.pTile_tileKey s c ht, hprog]
  exact if_neg fun h => by omega

variable (hphase : r.phase = 2) (hdue : r.since + 100000 ≤ s.timeUs)
include hphase hdue

/-- The settled tile starts its second pass where it is the oldest that waits. -/
theorem State.settle2_of_head {q : ProgRun} (hhead : (s.settled c t r).pumpHead = some (tileKey c t, q)) :
    s.settle2 (tileKey c t) = (s.settled c t r).pumpAdmit := by
  unfold State.settled at hhead ⊢
  simp only [State.settle2, State.pTile_tileKey s c ht, hprog, hphase, hdue, and_self, if_true, State.setPTile_tileKey s c ht,
    hhead]

theorem State.settle2_of_not_head (hhead : ∀ q, (s.settled c t r).pumpHead ≠ some (tileKey c t, q)) :
    s.settle2 (tileKey c t) = s.settled c t r := by
  unfold State.settled at hhead ⊢
  simp only [State.settle2, State.pTile_tileKey s c ht, hprog, hphase, hdue, and_self, if_true, State.setPTile_tileKey s c ht]
  split
  · rename_i h q heq
    exact if_neg fun hh => hhead q (by rw [heq, hh])
  · rfl

end

/-! ### Mapping switches (R61, R99, R100) -/

/-- The running package's home of the logical tile. -/
theorem State.placeL_setPlace (s : State) (l p : Nat) : (s.setPlace l p).placeL l = p := by
  have hpkg : (s.setPlace l p).runPkg = s.runPkg := rfl
  unfold State.placeL
  rw [hpkg]
  unfold State.setPlace
  cases hrun : s.runPkg with
  | none => simp only [Bool.false_eq_true, if_false, Tab.get?_put_self]
  | some k =>
    by_cases hhome : tileKey (k.dir.homes.getD l (0, 0)).1 (k.dir.homes.getD l (0, 0)).2 = p
    · simp only [hhome, beq_self_eq_true, if_true, Tab.get?_del_self]
    · simp only [beq_eq_false_iff_ne.2 hhome, Bool.false_eq_true, if_false, Tab.get?_put_self]

theorem State.tile_setPlace (s : State) (l p c t : Nat) : (s.setPlace l p).tile c t = s.tile c t := rfl

theorem State.getF_setPlace (s : State) (l p a : Nat) (f : Field) : (s.setPlace l p).getF a f = s.getF a f := rfl

theorem State.isSet_setPlace (s : State) (l p a : Nat) (f : Field) : (s.setPlace l p).isSet a f = s.isSet a f := rfl

theorem State.cal_setPlace (s : State) (l p : Nat) : (s.setPlace l p).cal = s.cal := rfl

/-- The new tile inherits the gain step and the quiet count. -/
def State.rangeTaken (s : State) (c t c' t' : Nat) : State :=
  let u := s.setF (R.tilRange c' t') F.tilRangeStep (s.getF (R.tilRange c t) F.tilRangeStep)
  u.setF (R.tilRange c' t') F.tilRangeQuiet (u.getF (R.tilRange c t) F.tilRangeQuiet)

/-- The new tile inherits the queue. -/
def State.queueTaken (s : State) (c t c' t' : Nat) : State :=
  let u := s.setTile c' t' { s.tile c' t' with q := (s.tile c' t').q ++ (s.tile c t).q }
  u.setTile c t { u.tile c t with q := [] }

theorem State.reg_queueTaken (s : State) (c t c' t' a : Nat) : (s.queueTaken c t c' t').reg a = s.reg a := rfl

theorem State.cal_queueTaken (s : State) (c t c' t' : Nat) : (s.queueTaken c t c' t').cal = s.cal := rfl

/-- The new tile is issued from now on, and the old one no longer. -/
def State.issueTaken (s : State) (c t c' t' : Nat) : State :=
  ((s.setF (R.tilCtrl c' t') F.tilCtrlIssueEn (b2n true)).setF (R.tilCtrl c t) F.tilCtrlIssueEn (b2n false)).syncStep c' t'

theorem State.takeOver_tileKey {c' t' : Nat} (ht : t < 128) (ht' : t' < 128) (l : Nat) :
    s.takeOver l (tileKey c t) (tileKey c' t') =
      (((s.rangeTaken c t c' t').queueTaken c t c' t').issueTaken c t c' t').setPlace l (tileKey c' t') := by
  unfold State.takeOver
  simp only [tileKey_div ht, tileKey_mod ht, tileKey_div ht', tileKey_mod ht', State.pTile_tileKey _ _ ht, State.pTile_tileKey _ _ ht',
    State.setPTile_tileKey _ _ ht, State.setPTile_tileKey _ _ ht', State.setIssue_tileKey _ _ ht, State.setIssue_tileKey _ _ ht']
  rfl

theorem State.writesOnly_rangeTaken (s : State) (c t c' t' : Nat) :
    s.WritesOnly (s.rangeTaken c t c' t') [R.tilRange c' t'] :=
  ((State.WritesOnly.refl s _).setF (List.mem_singleton_self _) _ _).setF (List.mem_singleton_self _) _ _

theorem State.writesOnly_issueTaken (s : State) (c t c' t' : Nat) :
    s.WritesOnly (s.issueTaken c t c' t') [R.tilCtrl c' t', R.tilCtrl c t, R.tilState c' t'] :=
  (((State.WritesOnly.refl s _).setF (by simp) _ _).setF (by simp) _ _).trans ((State.writesOnly_syncStep _ c' t').mono (by simp))

theorem State.getF_rangeTaken (s : State) (c t c' t' : Nat) :
    (s.rangeTaken c t c' t').getF (R.tilRange c' t') F.tilRangeStep = s.getF (R.tilRange c t) F.tilRangeStep := by
  rw [State.rangeTaken, State.getF_setF_field _ _ _ _ _ (by decide) (by decide), State.getF_setF_self _ _ _ _ (by decide)]
  exact State.getF_mod s _ _

theorem State.tile_queueTaken {c' t' : Nat} (hne : tileKey c t ≠ tileKey c' t') :
    ((s.queueTaken c t c' t').tile c' t').q = (s.tile c' t').q ++ (s.tile c t).q ∧ ((s.queueTaken c t c' t').tile c t).q = [] := by
  refine ⟨?_, ?_⟩
  · rw [State.queueTaken, State.tile_setTile_ne _ _ hne.symm, State.tile_setTile]
  · rw [State.queueTaken, State.tile_setTile]

theorem State.isSet_issueTaken {c' t' : Nat} (hne : R.tilCtrl c t ≠ R.tilCtrl c' t') :
    (s.issueTaken c t c' t').isSet (R.tilCtrl c' t') F.tilCtrlIssueEn = true ∧
    (s.issueTaken c t c' t').isSet (R.tilCtrl c t) F.tilCtrlIssueEn = false := by
  have hstate (c₁ t₁ : Nat) : R.tilCtrl c₁ t₁ ≠ R.tilState c' t' := by simp only [R.tilCtrl, R.tilState]; omega
  unfold State.issueTaken
  refine ⟨?_, ?_⟩
  · rw [State.isSet_congr (State.reg_syncStep_ne _ (hstate _ _)), State.isSet_setF_ne _ _ _ _ hne.symm,
      State.isSet_setF_self _ _ _ _ (by decide)]
    decide
  · rw [State.isSet_congr (State.reg_syncStep_ne _ (hstate _ _)), State.isSet_setF_self _ _ _ _ (by decide)]
    decide

theorem tilCtrl_ne_of_tileKey_ne (c c' : CoreIx) (t t' : TileIx) (h : tileKey c t ≠ tileKey c' t') :
    R.tilCtrl c t ≠ R.tilCtrl c' t' := by
  simp only [tileKey, R.tilCtrl] at *
  omega

/-- The requested switch is off the list of those that wait. -/
def State.unswitched (s : State) (e : Nat × Nat) : State :=
  { s with cal := { s.cal with switches := s.cal.switches.filter (fun w => w != e) } }

section
variable {l new : Nat} (hfind : s.cal.switches.find? (fun e => s.placeL e.1 == tileKey c t) = some (l, new)) (ht : t < 128)
include hfind ht

theorem State.doSwitch_of_part (hpart : (s.tile c t).whole = false) : s.doSwitch (tileKey c t) = s := by
  simp only [State.doSwitch, hfind, State.pTile_tileKey s c ht, hpart, Bool.not_false, if_true]

/-- A switch that no job asked for is a take-over. -/
theorem State.doSwitch_of_whole (hwhole : (s.tile c t).whole = true)
    (hjobs : ((s.unswitched (l, new)).takeOver l (tileKey c t) new).cal.jobs = []) :
    s.doSwitch (tileKey c t) = (s.unswitched (l, new)).takeOver l (tileKey c t) new := by
  unfold State.unswitched at hjobs ⊢
  simp only [State.doSwitch, hfind, State.pTile_tileKey s c ht, hwhole, Bool.not_true, Bool.false_eq_true, if_false, hjobs,
    List.find?_nil]

end

/-- What a take-over leaves: the place, the queues, issue_en, the gain step, and the calibration data. -/
theorem State.takeOver_spec (s : State) (c c' : CoreIx) (t t' : TileIx) (l : Nat) (hne : tileKey c t ≠ tileKey c' t') :
    let u := s.takeOver l (tileKey c t) (tileKey c' t')
    u.placeL l = tileKey c' t' ∧ (u.tile c' t').q = (s.tile c' t').q ++ (s.tile c t).q ∧ (u.tile c t).q = [] ∧
    u.isSet (R.tilCtrl c' t') F.tilCtrlIssueEn = true ∧ u.isSet (R.tilCtrl c t) F.tilCtrlIssueEn = false ∧
    u.getF (R.tilRange c' t') F.tilRangeStep = s.getF (R.tilRange c t) F.tilRangeStep ∧ u.cal = s.cal := by
  intro u
  have hu : u = ((((s.rangeTaken c t c' t').queueTaken c t c' t').issueTaken c t c' t').setPlace l (tileKey c' t')) :=
    State.takeOver_tileKey (tileIx_lt t) (tileIx_lt t') l
  have hrange := s.writesOnly_rangeTaken c t c' t'
  have hissue := ((s.rangeTaken c t c' t').queueTaken c t c' t').writesOnly_issueTaken c t c' t'
  have htile (c₁ t₁ : Nat) : u.tile c₁ t₁ = ((s.rangeTaken c t c' t').queueTaken c t c' t').tile c₁ t₁ := by
    rw [hu, State.tile_setPlace, State.tile_congr hissue.mc]
  have hold (c₁ t₁ : Nat) : (s.rangeTaken c t c' t').tile c₁ t₁ = s.tile c₁ t₁ := State.tile_congr hrange.mc c₁ t₁
  obtain ⟨hq, hempty⟩ := State.tile_queueTaken (s := s.rangeTaken c t c' t') hne
  obtain ⟨hnew, hdone⟩ := State.isSet_issueTaken (s := (s.rangeTaken c t c' t').queueTaken c t c' t')
    (tilCtrl_ne_of_tileKey_ne c c' t t' hne)
  refine ⟨?_, ?_, ?_, ?_, ?_, ?_, ?_⟩
  · rw [hu]; exact State.placeL_setPlace _ _ _
  · rw [htile, hq, hold, hold]
  · rw [htile, hempty]
  · rw [hu, State.isSet_setPlace, hnew]
  · rw [hu, State.isSet_setPlace, hdone]
  · rw [hu, State.getF_setPlace, ← State.getF_rangeTaken s c t c' t']
    refine State.getF_congr ((hissue.regs _ ?_).trans (State.reg_queueTaken _ _ _ _ _ _)) _
    simp only [List.mem_cons, List.not_mem_nil, or_false, not_or, R.tilRange, R.tilCtrl, R.tilState]
    omega
  · rw [hu, State.cal_setPlace, hissue.keeps State.cal fun _ => rfl, State.cal_queueTaken, hrange.keeps State.cal fun _ => rfl]

/-! ### Archive slots (R110) -/

/-- Slot `l` holds what the flash has of it, checked. -/
def State.slotLoaded (s : State) (k l : Nat) : State :=
  { s with stk := { s.stk with slots := s.stk.slots.put l ⟨true, true, s.flashTile k l⟩ } }

/-- Every slot of the archive is loaded and verified. -/
def State.slotsVerified (s : State) : Bool :=
  (List.range s.arcTiles).all (fun i => match s.stk.slots.get? i with | some x => x.verified | none => false)

theorem State.slotsVerified_of_missing {i : Nat} (hlt : i < s.arcTiles) (hmissing : s.stk.slots.get? i = none) :
    s.slotsVerified = false := by
  refine List.all_eq_false.2 ⟨i, List.mem_range.2 hlt, ?_⟩
  rw [hmissing]
  exact Bool.false_ne_true

theorem State.archiveBad_of_none (hwait : s.cal.modelWait = none) (code : Nat) : s.archiveBad code = s :=
  if_neg (by rw [hwait]; simp)

/-- A slot that passes its checks is loaded; a slot that is still missing keeps the archive open. -/
theorem State.loadSlot_of_ok {l k i : Nat} (hpkg : s.stk.arcPkg = some k) (hnext : s.nextSlot = some l) (hbuilt : s.stk.built = true)
    (hwait : s.cal.modelWait = none) (hcode : slotCode true true (s.flashTile k l) l = 0) (hlt : i < s.arcTiles) (hne : i ≠ l)
    (hmissing : s.stk.slots.get? i = none) : s.loadSlot l true true true = s.slotLoaded k l := by
  have hopen : (s.slotLoaded k l).slotsVerified = false :=
    State.slotsVerified_of_missing (i := i) hlt ((Tab.get?_put_ne _ _ hne).trans hmissing)
  have hgo : ¬ (s.nextSlot ≠ some l ∨ ¬ s.stk.built) := by simp [hnext, hbuilt]
  have hnot : ¬ ((s.slotLoaded k l).nextSlot.isNone && (s.slotLoaded k l).slotsVerified) = true := by rw [hopen]; simp
  unfold State.loadSlot
  split
  · rename_i hnone
    rw [hpkg] at hnone
    cases hnone
  · rename_i k' hsome
    cases hpkg.symm.trans hsome
    refine (if_neg hgo).trans ?_
    dsimp only
    rw [hcode, if_pos rfl]
    exact (if_neg hnot).trans (State.archiveBad_of_none (s := s.slotLoaded k l) hwait _)

end

/-! ### The statement -/

section
variable {s : State} {c : CoreIx} {t : TileIx} {r : ProgRun}

/-- The oldest waiting tile that had its write pass is admitted to its second pass. -/
theorem pumpAdmission_second (hhead : s.pumpHead = some (tileKey c t, r)) (hfits : s.pumpFits (tileKey c t) r = true)
    (hheld : s.progHeld = false) (hphase : r.phase ≠ 0) : s.pumpAdmit =
    s.setTile c t { s.tile c t with prog := some { r with phase := 4, batch := 0, failed := 0, running := true } } := by
  rw [State.pumpAdmit_of_fits hhead hfits hheld, if_neg hphase, State.setPTile_tileKey s c (tileIx_lt t),
    State.pTile_tileKey s c (tileIx_lt t)]

theorem pumpAdmission_first (hhead : s.pumpHead = some (tileKey c t, r)) (hfits : s.pumpFits (tileKey c t) r = true)
    (hheld : s.progHeld = false) (hphase : r.phase = 0) : s.pumpAdmit = s.beginWrite (tileKey c t) r := by
  rw [State.pumpAdmit_of_fits hhead hfits hheld, if_pos hphase]

/-- What a tile shows whose second pass has ended with few failed cells. -/
theorem batchDone_verified_spec {failed : Nat} (hprog : (s.tile c t).prog = some r) (hrun : r.running = true)
    (hlast : r.batch + 1 = 2176) (hphase : r.phase = 4) (hfew : r.failed + failed ≤ 64) :
    let u := s.batchDone (tileKey c t) failed
    u.tileState c t = 1 ∧ (u.tile c t).prog = none ∧ (u.tile c t).stale = false ∧ s.regsBut u [R.tilState c t, R.tilSummary c] := by
  intro u
  have hu : u = s.batchDone (tileKey c t) failed := rfl
  obtain ⟨v, sp, hregs, hpart, -, heq⟩ := State.batchDone_of_verified hprog hrun (tileIx_lt t) failed hlast hphase hfew
  have hwrites := (State.WritesOnly.refl (v.setTile c t ((s.tile c t).verified sp (r.failed + failed)))
    [R.tilState c t, R.tilSummary c]).enterState (c := c) (t := t) (by simp) (by simp) 1
  have htile : u.tile c t = (s.tile c t).verified sp (r.failed + failed) := by
    rw [hu, heq, State.tile_congr hwrites.mc, State.tile_setTile]
  refine ⟨?_, ?_, ?_, ?_⟩
  · rw [hu, heq, State.tileState_setTileState _ _ _ (by decide)]
  · rw [htile]; rfl
  · rw [htile]; exact decide_eq_false (Nat.not_lt.2 hfew)
  · intro a ha
    rw [hu, heq, hwrites.regs a ha, State.reg_setTile]
    exact State.reg_congr hregs hpart a

end

/-- Settles O48: each programming row in the cases of the statement. -/
theorem programmingRows : Obligations.ProgrammingRows := by
  intro s
  refine ⟨fun x y hpick hroom hheld hrelief => ?refresh, fun c t r hhead => ⟨fun hno => ?waits, fun hfits hheld hphase => ?second,
    fun n j l a hfits hheld hphase hjob hlog hslot => ?first⟩, fun c t failed r hprog hrun => ⟨fun hmore hphase => ?write,
    fun hmore hphase => ?verify, fun hlast hphase => ?written, fun hlast hphase hfew => ?verified⟩,
    fun c t r hprog hphase => ⟨fun hearly => ?early, fun hdue => ⟨fun q hhead => ?head, fun hhead => ?notHead⟩⟩,
    fun c c' t t' l hne hfind => ⟨fun hpart => ?part, fun hwhole hjobs => ?switch⟩,
    fun l k hpkg hnext hbuilt hwait hcode hmissing => ?slot⟩
  case refresh => exact congrArg Host.Outcome.next (State.refreshStart_of_pick hpick hroom hheld hrelief)
  case waits => exact congrArg Host.Outcome.next (State.pumpAdmit_of_held hhead hno)
  case second =>
    exact ⟨_, congrArg Host.Outcome.next (pumpAdmission_second hhead hfits hheld hphase), by rw [State.tile_setTile], rfl⟩
  case first =>
    obtain ⟨hstate, hissue, hcommit, ⟨x, htile⟩, hregs⟩ :=
      State.beginWrite_spec (r := r) (tileIx_lt t) hjob hlog hslot hheld
    refine ⟨_, congrArg Host.Outcome.next (pumpAdmission_first hhead hfits hheld hphase), hstate, hissue, hcommit,
      ?_, ?_, ?_, ?_, hregs⟩
    all_goals rw [htile]; rfl
  case write =>
    refine ⟨_, congrArg Host.Outcome.next (State.batchDone_of_more hprog hrun (tileIx_lt t) failed hmore), ?_, rfl⟩
    rw [State.tile_setTile, ProgRun.batched, hphase]
    rfl
  case verify =>
    refine ⟨_, congrArg Host.Outcome.next (State.batchDone_of_more hprog hrun (tileIx_lt t) failed hmore), ?_, rfl⟩
    rw [State.tile_setTile, ProgRun.batched, if_pos hphase]
  case written =>
    refine ⟨_, congrArg Host.Outcome.next (State.batchDone_of_written hprog hrun (tileIx_lt t) failed hlast hphase), ?_⟩
    split
    · rw [State.tile_congr (State.report_mc _ _ _ _ _), State.tile_setTile]; rfl
    · rw [State.tile_setTile]; rfl
  case verified => exact ⟨_, rfl, batchDone_verified_spec hprog hrun hlast hphase hfew⟩
  case early => exact congrArg Host.Outcome.next (State.settle2_of_early (tileIx_lt t) hprog hearly)
  case head => exact congrArg Host.Outcome.next (State.settle2_of_head (tileIx_lt t) hprog hphase hdue hhead)
  case notHead => exact congrArg Host.Outcome.next (State.settle2_of_not_head (tileIx_lt t) hprog hphase hdue hhead)
  case part => exact congrArg Host.Outcome.next (State.doSwitch_of_part hfind (tileIx_lt t) hpart)
  case switch =>
    obtain ⟨hplace, hq, hempty, hissue, hdone, hstep, hcal⟩ := (s.unswitched (l, tileKey c' t')).takeOver_spec c c' t t' l hne
    have hswitch := State.doSwitch_of_whole hfind (tileIx_lt t) hwhole (by rw [hcal]; exact hjobs)
    exact ⟨_, congrArg Host.Outcome.next hswitch, hplace, hq, hempty, hissue, hdone, hstep, by rw [hcal]; rfl⟩
  case slot =>
    obtain ⟨i, hlt, hne, hgone⟩ := hmissing
    exact ⟨_, congrArg Host.Outcome.next (State.loadSlot_of_ok hpkg hnext hbuilt hwait hcode hlt hne hgone),
      Tab.get?_put_self _ _ _, fun x hx => Tab.get?_put_ne _ _ hx, rfl⟩

end Sys2Proof.Machine
end


section
/-! PROOF. The monitor converters (R361 to R376): what starts a converter's work, what its results do, and O49 and O50. -/

namespace Sys2Proof.Machine

/-! ### MON_CV_STATE and the hidden part of a converter -/

section
variable {s u : State} {x : Nat}

theorem State.regsBut_setConv (s : State) (x : Nat) (k : Conv) (l : List Nat) : s.regsBut (s.setConv x k) l :=
  fun a _ => State.reg_setConv s x k a

theorem State.convState_congr (h : u.reg (R.monCvState x) = s.reg (R.monCvState x)) : u.convState x = s.convState x :=
  State.getF_congr h _

theorem State.convRuns_congr (h : u.reg (R.monCvCtrl x) = s.reg (R.monCvCtrl x)) : u.convRuns x = s.convRuns x :=
  State.isSet_congr h _

theorem State.convSeq_congr (h : u.reg (R.monCvCtrl x) = s.reg (R.monCvCtrl x)) : u.convSeq x = s.convSeq x :=
  State.isSet_congr h _

theorem State.convTaken_congr (h : u.reg (R.monCvState x) = s.reg (R.monCvState x)) : u.convTaken x = s.convTaken x := by
  rw [State.convTaken, State.convState_congr h, State.convTaken]

theorem State.convTaken_of_lt (h : s.convState x < 4) : s.convTaken x = false := decide_eq_false (Nat.not_le.2 h)

theorem State.writesOnly_setConvState (s : State) (x st ch : Nat) : s.WritesOnly (s.setConvState x st ch) [R.monCvState x] :=
  ((State.WritesOnly.refl s _).setF (List.mem_singleton_self _) _ _).setF (List.mem_singleton_self _) _ _

theorem State.convState_setConvState (s : State) (x : Nat) {st : Nat} (ch : Nat) (h : st < 8) :
    (s.setConvState x st ch).convState x = st := by
  rw [State.convState, State.setConvState, State.getF_setF_field _ _ _ _ _ (by decide) (by decide),
    State.getF_setF_self _ _ _ _ (by decide)]
  exact Nat.mod_eq_of_lt h

theorem State.chan_setConvState (s : State) (x st ch : Nat) (h : ch < 32) :
    (s.setConvState x st ch).getF (R.monCvState x) F.monCvStateChan = ch := by
  rw [State.setConvState, State.getF_setF_self _ _ _ _ (by decide)]
  exact Nat.mod_eq_of_lt h

theorem State.other_setConvState (s : State) (x st ch : Nat) {f : Field}
    (hf : f.lo + f.width ≤ F.monCvStateState.lo ∨ F.monCvStateState.lo + F.monCvStateState.width ≤ f.lo)
    (hc : f.lo + f.width ≤ F.monCvStateChan.lo ∨ F.monCvStateChan.lo + F.monCvStateChan.width ≤ f.lo) :
    (s.setConvState x st ch).getF (R.monCvState x) f = s.getF (R.monCvState x) f := by
  rw [State.setConvState, State.getF_setF_field _ _ _ _ _ (by decide) hc, State.getF_setF_field _ _ _ _ _ (by decide) hf]

theorem entryChan_lt (w : Word) : entryChan w < 32 := Nat.mod_lt _ (by decide)

theorem entryRepeat_lt (w : Word) : entryRepeat w < 256 := Nat.mod_lt _ (by decide)

/-! ### Triggers (R361 to R363) -/

/-- The registers that a trigger may write. -/
def trigRegs (x : Nat) : List Nat := [R.monCvState x, R.monStatus, R.monToaEvt, R.monTobEvt]

/-- An entry that starts without its delay: the entry's number, channel and repeats are shown, and it is converted. -/
theorem State.startEntry_spec (s : State) (x e : Nat) (he : e < 64) :
    (s.startEntry x e false).convState x = 3 ∧
    (s.startEntry x e false).getF (R.monCvState x) F.monCvStateEntry = e ∧
    (s.startEntry x e false).getF (R.monCvState x) F.monCvStateChan = entryChan (s.reg (R.monSeq x e)) ∧
    (s.startEntry x e false).getF (R.monCvState x) F.monCvStateLeft = entryRepeat (s.reg (R.monSeq x e)) ∧
    s.regsBut (s.startEntry x e false) [R.monCvState x] := by
  have heq : ∃ k, s.startEntry x e false = ((((s.setF (R.monCvState x) F.monCvStateEntry e).setF (R.monCvState x)
      F.monCvStateLeft (entryRepeat (s.reg (R.monSeq x e)))).setConv x k).setConvState x 3 (entryChan (s.reg (R.monSeq x e)))) :=
    ⟨{ s.conv x with entry := s.reg (R.monSeq x e), len := if e = 0 then s.getF (R.monCvCtrl x) F.monCvCtrlSeqLen else (s.conv x).len },
      by simp only [State.startEntry, Bool.false_eq_true, false_and, if_false]⟩
  obtain ⟨k, hk⟩ := heq
  rw [hk]
  refine ⟨State.convState_setConvState _ _ _ (by decide), ?_, State.chan_setConvState _ _ _ _ (entryChan_lt _), ?_, ?_⟩
  · rw [State.other_setConvState _ _ _ _ (by decide) (by decide), State.getF_setConv,
      State.getF_setF_field _ _ _ _ _ (by decide) (by decide), State.getF_setF_self _ _ _ _ (by decide)]
    exact Nat.mod_eq_of_lt he
  · rw [State.other_setConvState _ _ _ _ (by decide) (by decide), State.getF_setConv, State.getF_setF_self _ _ _ _ (by decide)]
    exact Nat.mod_eq_of_lt (entryRepeat_lt _)
  · exact ((((State.WritesOnly.refl s _).setF (List.mem_singleton_self _) _ _).setF (List.mem_singleton_self _) _ _).regs.trans
      (State.regsBut_setConv _ x k _)).trans (State.writesOnly_setConvState _ x _ _).regs

/-- The state in which a trigger that found the converter busy is shown. -/
def State.trigOverrun (s : State) (x : Nat) : State :=
  s.raise R.monStatus (if x = 0 then F.monStatusTrigOvrA else F.monStatusTrigOvrB) (if x = 0 then R.monToaEvt else R.monTobEvt)

section
variable (hon : s.convPowered x = true) (hruns : s.convRuns x = true)
include hon hruns

theorem State.convTrigger_of_seq (hseq : s.convSeq x = true) : s.convTrigger x =
    if s.convState x = 1 then s.startEntry x 0 false else s := by
  simp only [State.convTrigger, hon, hruns, hseq, not_true_eq_false, or_self, if_false, if_true]

theorem State.convTrigger_of_waiting (hseq : s.convSeq x = false) (hstate : s.convState x = 1) :
    s.convTrigger x = s.setConvState x 3 (s.getF (R.monCvChan x) F.monCvChanChan) := by
  simp only [State.convTrigger, hon, hruns, hseq, hstate, not_true_eq_false, or_self, if_false, if_true, Bool.false_eq_true]

theorem State.convTrigger_of_busy (hseq : s.convSeq x = false) (hstate : s.convState x ≠ 1) :
    s.convTrigger x = s.trigOverrun x := by
  simp only [State.convTrigger, State.trigOverrun, hon, hruns, hseq, hstate, not_true_eq_false, or_self, if_false,
    Bool.false_eq_true]
  split <;> rfl

end

theorem State.convTrigger_of_idle (h : s.convPowered x = false ∨ s.convRuns x = false) : s.convTrigger x = s :=
  if_pos (h.imp (fun h => by simp [h]) (fun h => by simp [h]))

theorem State.writesOnly_trigOverrun (s : State) (x : Nat) : s.WritesOnly (s.trigOverrun x) (trigRegs x) := by
  refine (State.WritesOnly.refl s _).raise (by simp [trigRegs]) ?_ _
  split <;> simp [trigRegs]

theorem State.regsBut_convTrigger (s : State) (x : Nat) : s.regsBut (s.convTrigger x) (trigRegs x) := by
  have hstate : ∀ b ∈ [R.monCvState x], b ∈ trigRegs x := by simp [trigRegs]
  by_cases hidle : s.convPowered x = false ∨ s.convRuns x = false
  · rw [State.convTrigger_of_idle hidle]; exact .refl s _
  simp only [not_or, Bool.not_eq_false] at hidle
  obtain ⟨hon, hruns⟩ := hidle
  cases hseq : s.convSeq x with
  | true =>
    rw [State.convTrigger_of_seq hon hruns hseq]
    split
    · exact (s.startEntry_spec x 0 (by decide)).2.2.2.2.mono hstate
    · exact .refl s _
  | false =>
    by_cases hwait : s.convState x = 1
    · rw [State.convTrigger_of_waiting hon hruns hseq hwait]
      exact (s.writesOnly_setConvState x _ _).regs.mono hstate
    · rw [State.convTrigger_of_busy hon hruns hseq hwait]
      exact (s.writesOnly_trigOverrun x).regs

theorem State.trigOverrun_spec (s : State) (x : Nat) :
    (s.trigOverrun x).isSet R.monStatus (if x = 0 then F.monStatusTrigOvrA else F.monStatusTrigOvrB) = true ∧
    (s.trigOverrun x).reg (if x = 0 then R.monToaEvt else R.monTobEvt) = satInc (s.reg (if x = 0 then R.monToaEvt else R.monTobEvt)) 1 ∧
    (s.trigOverrun x).convState x = s.convState x := by
  have hne : (if x = 0 then R.monToaEvt else R.monTobEvt) ≠ R.monStatus := by split <;> decide
  refine ⟨?_, State.reg_raise_evt _ _ _ _ hne, State.convState_congr (State.reg_raise_ne _ _ _ _ ?_ ?_)⟩
  · refine State.isSet_raise_self _ _ _ _ hne.symm ?_ ?_ <;> split <;> decide
  · simp only [R.monCvState, R.monStatus]; omega
  · split
    · simp only [R.monCvState, R.monToaEvt]; omega
    · simp only [R.monCvState, R.monTobEvt]; omega

/-! ### An edge on a TRIG pin (R363) -/

/-- What an edge does at one converter. -/
def State.edgeAt (s : State) (pin : Nat) (rising : Bool) (x : Nat) : State :=
  if s.convPowered x && s.edgeTaken x pin rising then s.convTrigger x else s

theorem State.edgeAt_of_not_taken {pin : Nat} {rising : Bool} (h : s.edgeTaken x pin rising = false) : s.edgeAt pin rising x = s :=
  if_neg (by rw [h, Bool.and_false]; exact Bool.false_ne_true)

theorem State.edgeAt_of_taken {pin : Nat} {rising : Bool} (hon : s.convPowered x = true) (h : s.edgeTaken x pin rising = true) :
    s.edgeAt pin rising x = s.convTrigger x := if_pos (by rw [h, hon]; rfl)

theorem State.edgeTaken_congr (h : u.reg (R.monCvCtrl x) = s.reg (R.monCvCtrl x)) (pin : Nat) (rising : Bool) :
    u.edgeTaken x pin rising = s.edgeTaken x pin rising := by
  simp only [State.edgeTaken, State.getF_congr h]

theorem monCvCtrl_not_mem_trigRegs (x y : Nat) : R.monCvCtrl y ∉ trigRegs x := by
  simp only [trigRegs, List.mem_cons, List.not_mem_nil, or_false, not_or, R.monCvCtrl, R.monCvState, R.monStatus, R.monToaEvt,
    R.monTobEvt]
  omega

/-- An edge that the other converter does not accept acts on this one alone. -/
theorem State.edgeAt_one_sided (s : State) (x : ConvIx) (pin : Nat) (rising : Bool)
    (hother : s.edgeTaken (1 - x.val) pin rising = false) : [0, 1].foldl (fun s x => s.edgeAt pin rising x) s = s.edgeAt pin rising x := by
  have hcases : x.val = 0 ∨ x.val = 1 := by omega
  simp only [List.foldl_cons, List.foldl_nil]
  rcases hcases with hx | hx <;> rw [hx] at hother ⊢
  · refine State.edgeAt_of_not_taken ((State.edgeTaken_congr ?_ pin rising).trans hother)
    unfold State.edgeAt
    split
    · exact s.regsBut_convTrigger 0 _ (monCvCtrl_not_mem_trigRegs 0 1)
    · rfl
  · rw [State.edgeAt_of_not_taken (x := 0) hother]

/-! ### Work put aside (R368, R371) -/

theorem State.setConv_self (s : State) (x : Nat) : s.setConv x (s.conv x) = s := by
  unfold State.setConv State.conv
  split <;> rfl

theorem State.conv_setConvState (s : State) (x st ch y : Nat) : (s.setConvState x st ch).conv y = s.conv y :=
  (s.writesOnly_setConvState x st ch).keeps (fun v => v.conv y) fun _ => rfl

/-- The converter once its work is put aside: a running conversion is held. -/
def State.asideConv (s : State) (x : Nat) : Conv :=
  if s.convState x = 3 then { s.conv x with held := some (s.getF (R.monCvState x) F.monCvStateChan) } else s.conv x

theorem State.putAside_eq (s : State) (x st ch : Nat) :
    s.putAside x st ch = (s.setConv x (s.asideConv x)).setConvState x st ch := by
  unfold State.putAside State.asideConv
  by_cases h : s.convState x = 3
  · simp only [h, if_true]
  · simp only [h, if_false, State.setConv_self]

theorem State.putAside_spec (s : State) (x : Nat) {st ch : Nat} (hst : st < 8) (hch : ch < 32) :
    (s.putAside x st ch).convState x = st ∧ (s.putAside x st ch).getF (R.monCvState x) F.monCvStateChan = ch ∧
    (s.convState x = 3 → ((s.putAside x st ch).conv x).held = some (s.getF (R.monCvState x) F.monCvStateChan)) ∧
    s.regsBut (s.putAside x st ch) [R.monCvState x] := by
  rw [State.putAside_eq]
  refine ⟨State.convState_setConvState _ _ _ hst, State.chan_setConvState _ _ _ _ hch, fun h => ?_,
    (State.regsBut_setConv s x _ _).trans (State.writesOnly_setConvState _ x _ _).regs⟩
  rw [State.conv_setConvState, State.conv_setConv, State.asideConv, if_pos h]

theorem monCvCmd_ne_state (x : Nat) : R.monCvState x ≠ R.monCvCmd x := by simp only [R.monCvState, R.monCvCmd]; omega

/-- A request of MON_CV_CMD on a converter whose own work runs: it is set, and the work is put aside. -/
theorem State.request_spec (s : State) (x : Nat) {f : Field} {st ch : Nat} (hf : f.lo + f.width ≤ 32) (hone : 1 % 2 ^ f.width = 1)
    (hst : st < 8) (hch : ch < 32) :
    let u := (s.setF (R.monCvCmd x) f 1).putAside x st ch
    u.isSet (R.monCvCmd x) f = true ∧ u.convState x = st ∧ u.getF (R.monCvState x) F.monCvStateChan = ch ∧
    (s.convState x = 3 → (u.conv x).held = some (s.getF (R.monCvState x) F.monCvStateChan)) ∧
    s.regsBut u [R.monCvCmd x, R.monCvState x] := by
  intro u
  obtain ⟨hstate, hchan, hheld, hregs⟩ := (s.setF (R.monCvCmd x) f 1).putAside_spec x hst hch
  have hkeep := State.reg_setF_ne s f 1 (monCvCmd_ne_state x)
  refine ⟨?_, hstate, hchan, fun h => ?_, ?_⟩
  · rw [State.isSet_congr (hregs _ (by simpa using (monCvCmd_ne_state x).symm)), State.isSet_setF_self _ _ _ _ hf, hone]
    rfl
  · rw [hheld ((State.convState_congr hkeep).trans h), State.getF_congr hkeep]
  · exact ((State.regsBut.refl s _).setF (by simp) _ _).trans (hregs.mono (by simp))

theorem State.urgentReq_of_own (hon : s.convPowered x = true) (hcmd : s.isSet (R.monCvCmd x) F.monCvCmdUrgent = false)
    (hstate : s.convState x < 4) : s.urgentReq x =
    (s.setF (R.monCvCmd x) F.monCvCmdUrgent 1).putAside x 4 (s.getF (R.monCvUrg x) F.monCvUrgChan) := by
  have htaken : (s.setF (R.monCvCmd x) F.monCvCmdUrgent 1).convTaken x = false :=
    (State.convTaken_congr (State.reg_setF_ne _ _ _ (monCvCmd_ne_state x))).trans (State.convTaken_of_lt hstate)
  have hurg : (s.setF (R.monCvCmd x) F.monCvCmdUrgent 1).getF (R.monCvUrg x) F.monCvUrgChan = s.getF (R.monCvUrg x) F.monCvUrgChan :=
    State.getF_setF_ne _ _ _ _ (by simp only [R.monCvUrg, R.monCvCmd]; omega)
  simp only [State.urgentReq, State.goUrgent, hon, hcmd, htaken, hurg, not_true_eq_false, Bool.false_eq_true, or_self, if_false]

theorem State.selfcalReq_of_own (hon : s.convPowered x = true) (hcmd : s.isSet (R.monCvCmd x) F.monCvCmdSelfcal = false)
    (hstate : s.convState x < 4) : s.selfcalReq x = (s.setF (R.monCvCmd x) F.monCvCmdSelfcal 1).putAside x 5 31 := by
  have htaken : (s.setF (R.monCvCmd x) F.monCvCmdSelfcal 1).convTaken x = false :=
    (State.convTaken_congr (State.reg_setF_ne _ _ _ (monCvCmd_ne_state x))).trans (State.convTaken_of_lt hstate)
  simp only [State.selfcalReq, State.goSelfcal, hon, hcmd, htaken, not_true_eq_false, Bool.false_eq_true, or_self, if_false]

/-! ### MON_CV_CTRL (R361, R374, R376) -/

/-- The two fields share no bit. -/
def disjointFields (f g : Field) : Prop := f.lo + f.width ≤ g.lo ∨ g.lo + g.width ≤ f.lo

/-- The fields of the list are written with what `w` holds of them. -/
def State.setFields (s : State) (a : Nat) (w : Word) (fs : List Field) : State := fs.foldl (fun s f => s.setF a f (f.get w)) s

theorem State.writesOnly_setFields (a : Nat) (w : Word) (fs : List Field) : ∀ s : State, s.WritesOnly (s.setFields a w fs) [a] := by
  induction fs with
  | nil => exact fun s => .refl s _
  | cons f fs ih => exact fun s => ((State.WritesOnly.refl s _).setF (List.mem_singleton_self _) f _).trans (ih _)

/-- A field that shares no bit with those written stays. -/
theorem State.getF_setFields_ne {a : Nat} {w : Word} {f : Field} : ∀ {fs : List Field} (s : State),
    (∀ g ∈ fs, g.lo + g.width ≤ 32) → (∀ g ∈ fs, disjointFields f g) → (s.setFields a w fs).getF a f = s.getF a f := by
  intro fs
  induction fs with
  | nil => exact fun s _ _ => rfl
  | cons g gs ih =>
    intro s hfit hdis
    simp only [List.forall_mem_cons] at hfit hdis
    exact (ih (s.setF a g (g.get w)) hfit.2 hdis.2).trans (State.getF_setF_field s a g f _ hfit.1 hdis.1)

/-- A written field reads what `w` holds of it, where the fields share no bit. -/
theorem State.getF_setFields {a : Nat} {w : Word} {f : Field} : ∀ {fs : List Field} (s : State),
    (∀ g ∈ fs, g.lo + g.width ≤ 32) → fs.Pairwise disjointFields → f ∈ fs → (s.setFields a w fs).getF a f = f.get w := by
  intro fs
  induction fs with
  | nil => exact fun s _ _ hf => absurd hf List.not_mem_nil
  | cons g gs ih =>
    intro s hfit hdis hf
    simp only [List.forall_mem_cons, List.pairwise_cons] at hfit hdis
    rcases List.mem_cons.1 hf with rfl | hf
    · refine (State.getF_setFields_ne (s.setF a f (f.get w)) hfit.2 hdis.1).trans ?_
      rw [State.getF_setF_self _ _ _ _ hfit.1]
      exact Nat.mod_eq_of_lt (Field.get_lt f w)
    · exact ih (s.setF a g (g.get w)) hfit.2 hdis.2 hf

/-- The fields of MON_CV_CTRL. -/
def monCtrlFields : List Field := [F.monCvCtrlRun, F.monCvCtrlMode, F.monCvCtrlLp, F.monCvCtrlRate, F.monCvCtrlTrig, F.monCvCtrlEdge,
  F.monCvCtrlSeqLen]

theorem monCtrlFields_fit : ∀ g ∈ monCtrlFields, g.lo + g.width ≤ 32 := by decide

theorem monCtrlFields_disjoint : monCtrlFields.Pairwise disjointFields := by
  unfold disjointFields
  decide

/-- The fields that `w` holds are legal (R361, R363, R376). -/
abbrev monCtrlIllegal (w : Word) : Prop := 8 ≤ F.monCvCtrlRate.get w ∨ 5 ≤ F.monCvCtrlTrig.get w ∨ F.monCvCtrlEdge.get w = 3

/-- MON_CV_CTRL takes the fields of `w`. -/
def State.monCtrlTaken (s : State) (x : Nat) (w : Word) : State := s.setFields (R.monCvCtrl x) w monCtrlFields

/-- The converter's own work ends. -/
def State.ownWorkEnded (s : State) (x : Nat) : State :=
  s.setConv x { s.conv x with held := none, delayAt := none, delayOver := false }

theorem State.convCtrl_of_illegal {w : Word} (hon : s.convPowered x = true) (h : monCtrlIllegal w) :
    s.convCtrl x w = s.report Src.device E.thmMonCfg (Rep.fw 3) (Config.monCfgDetail x w.toNat) := by
  simp only [State.convCtrl, hon, not_true_eq_false, if_false]
  exact if_pos h

theorem State.convCtrl_of_legal {w : Word} (hon : s.convPowered x = true) (h : ¬ monCtrlIllegal w) : s.convCtrl x w =
    if (s.monCtrlTaken x w).convRuns x = s.convRuns x ∧ (s.monCtrlTaken x w).convSeq x = s.convSeq x then s.monCtrlTaken x w
    else if ((s.monCtrlTaken x w).ownWorkEnded x).convTaken x then (s.monCtrlTaken x w).ownWorkEnded x
    else ((s.monCtrlTaken x w).ownWorkEnded x).setConvState x (b2n (((s.monCtrlTaken x w).ownWorkEnded x).convRuns x)) 0 := by
  simp only [State.convCtrl, hon, not_true_eq_false, if_false]
  exact if_neg h

theorem State.regsBut_ownWorkEnded (s : State) (x : Nat) (l : List Nat) : s.regsBut (s.ownWorkEnded x) l :=
  State.regsBut_setConv s x _ l

/-- What a legal write leaves: MON_CV_CTRL as it took the fields, and otherwise at most another state of the converter. -/
theorem State.regsBut_convCtrl {w : Word} (hon : s.convPowered x = true) (h : ¬ monCtrlIllegal w) :
    (s.monCtrlTaken x w).regsBut (s.convCtrl x w) [R.monCvState x] := by
  rw [State.convCtrl_of_legal hon h]
  split
  · exact .refl _ _
  · split
    · exact State.regsBut_ownWorkEnded _ x _
    · exact (State.regsBut_ownWorkEnded _ x _).trans (State.writesOnly_setConvState _ x _ _).regs

theorem monCvCtrl_ne_state (x : Nat) : R.monCvCtrl x ≠ R.monCvState x := by simp only [R.monCvState, R.monCvCtrl]; omega

/-- A converter that starts to run waits. -/
theorem State.convCtrl_starts {w : Word} (hon : s.convPowered x = true) (h : ¬ monCtrlIllegal w) (hruns : s.convRuns x = false)
    (hrun : F.monCvCtrlRun.get w = 1) (hstate : s.convState x < 4) : (s.convCtrl x w).convState x = 1 := by
  have htakes : (s.monCtrlTaken x w).convRuns x = true := by
    rw [State.convRuns, State.isSet, State.monCtrlTaken,
      State.getF_setFields s monCtrlFields_fit monCtrlFields_disjoint (by simp [monCtrlFields]), hrun]
    rfl
  have hstate' : ((s.monCtrlTaken x w).ownWorkEnded x).convState x = s.convState x :=
    State.convState_congr ((State.regsBut_ownWorkEnded _ x [] _ List.not_mem_nil).trans
      ((State.writesOnly_setFields _ w _ s).regs _ (by simpa using (monCvCtrl_ne_state x).symm)))
  have hfree : ((s.monCtrlTaken x w).ownWorkEnded x).convTaken x = false := State.convTaken_of_lt (hstate'.symm ▸ hstate)
  have hgo : ((s.monCtrlTaken x w).ownWorkEnded x).convRuns x = true :=
    (State.convRuns_congr (State.regsBut_ownWorkEnded _ x [] _ List.not_mem_nil)).trans htakes
  rw [State.convCtrl_of_legal hon h, if_neg (by rw [htakes, hruns]; simp), hfree, if_neg Bool.false_ne_true, hgo]
  exact State.convState_setConvState _ _ _ (by decide)

/-! ### Snapshots (R367) -/

/-- The selection of a snapshot set is taken. -/
def State.snapSelected (s : State) (i : Nat) (w : Word) : State :=
  (s.setF (R.monSnapSel i) F.monSnapSelChan (F.monSnapSelChan.get w)).setF (R.monSnapSel i) F.monSnapSelConv (F.monSnapSelConv.get w)

/-- A snapshot set shows an accumulator and a pair of trackers. -/
def State.snapShown (s : State) (i : Nat) (acc : Nat × Nat × Nat) (trk : Int × Int) : State :=
  ((((s.setNat (R.monSnapSumLo i) (acc.1 % 2 ^ 32)).setNat (R.monSnapSumHi i) (acc.1 / 2 ^ 32)).setNat (R.monSnapCount i)
    (acc.2.1 + acc.2.2 * 2 ^ 16)).setNat (R.monSnapMin i) (ofInt 32 trk.1)).setNat (R.monSnapMax i) (ofInt 32 trk.2)

theorem State.regNat_setNat_self (s : State) (a n : Nat) : (s.setNat a n).regNat a = n % 2 ^ 32 := by
  rw [State.regNat, State.reg_setNat_self, BitVec.toNat_ofNat]

theorem State.regNat_setNat_ne (s : State) {a b : Nat} (n : Nat) (h : b ≠ a) : (s.setNat a n).regNat b = s.regNat b := by
  rw [State.regNat, State.reg_setNat_ne _ _ h, State.regNat]

theorem snapRegs_nodup (i : Nat) : [R.monSnapSumLo i, R.monSnapSumHi i, R.monSnapCount i, R.monSnapMin i, R.monSnapMax i].Nodup := by
  simp only [List.nodup_cons, List.mem_cons, List.not_mem_nil, or_false, not_or, List.nodup_nil, not_false_eq_true, and_true,
    R.monSnapSumLo, R.monSnapSumHi, R.monSnapCount, R.monSnapMin, R.monSnapMax]
  omega

/-- What the registers of a snapshot set show. -/
theorem State.snapShown_spec (s : State) (i : Nat) (acc : Nat × Nat × Nat) (trk : Int × Int) :
    (s.snapShown i acc trk).regNat (R.monSnapSumLo i) = acc.1 % 2 ^ 32 ∧
    (s.snapShown i acc trk).regNat (R.monSnapSumHi i) = acc.1 / 2 ^ 32 % 2 ^ 32 ∧
    (s.snapShown i acc trk).regNat (R.monSnapCount i) = (acc.2.1 + acc.2.2 * 2 ^ 16) % 2 ^ 32 ∧
    (s.snapShown i acc trk).reg (R.monSnapMin i) = BitVec.ofInt 32 trk.1 ∧
    (s.snapShown i acc trk).reg (R.monSnapMax i) = BitVec.ofInt 32 trk.2 := by
  have hnodup := snapRegs_nodup i
  simp only [List.nodup_cons, List.mem_cons, List.not_mem_nil, or_false, not_or] at hnodup
  obtain ⟨⟨hlohi, hlocount, hlomin, hlomax⟩, ⟨hhicount, hhimin, hhimax⟩, ⟨hcountmin, hcountmax⟩, hminmax, -⟩ := hnodup
  unfold State.snapShown
  refine ⟨?_, ?_, ?_, ?_, ?_⟩
  · rw [State.regNat_setNat_ne _ _ hlomax, State.regNat_setNat_ne _ _ hlomin, State.regNat_setNat_ne _ _ hlocount,
      State.regNat_setNat_ne _ _ hlohi, State.regNat_setNat_self, Nat.mod_mod]
  · rw [State.regNat_setNat_ne _ _ hhimax, State.regNat_setNat_ne _ _ hhimin, State.regNat_setNat_ne _ _ hhicount,
      State.regNat_setNat_self]
  · rw [State.regNat_setNat_ne _ _ hcountmax, State.regNat_setNat_ne _ _ hcountmin, State.regNat_setNat_self]
  · rw [State.reg_setNat_ne _ _ hminmax, State.reg_setNat_self, ofNat_ofInt]
  · rw [State.reg_setNat_self, ofNat_ofInt]

theorem State.convPowered_congr (h : u.reg (R.pwrDomOn 1) = s.reg (R.pwrDomOn 1)) : u.convPowered x = s.convPowered x := by
  rw [State.convPowered, State.convPowered, State.domOn_congr h]

/-- A snapshot of a powered converter. -/
theorem State.snapshot_of_on (s : State) (i : Nat) {w : Word} (hconv : F.monSnapSelConv.get w = x)
    (hsnap : F.monSnapSelSnap.get w = 1) (hon : s.convPowered x = true) :
    s.snapshot i w = ((s.snapSelected i w).snapShown i ((s.conv x).acc.getD (F.monSnapSelChan.get w) (0, 0, 0))
      (((s.conv x).trk.get? (32 * i + F.monSnapSelChan.get w)).getD (2 ^ 23 - 1, -(2 ^ 23)))).setConv x
        { s.conv x with trk := (s.conv x).trk.del (32 * i + F.monSnapSelChan.get w) } := by
  have hne : R.pwrDomOn 1 ≠ R.monSnapSel i ∧ R.pwrDomOn 1 ≠ R.monSnapSumLo i ∧ R.pwrDomOn 1 ≠ R.monSnapSumHi i ∧
      R.pwrDomOn 1 ≠ R.monSnapCount i ∧ R.pwrDomOn 1 ≠ R.monSnapMin i ∧ R.pwrDomOn 1 ≠ R.monSnapMax i := by
    simp only [R.pwrDomOn, R.monSnapSel, R.monSnapSumLo, R.monSnapSumHi, R.monSnapCount, R.monSnapMin, R.monSnapMax]; omega
  obtain ⟨hsel, hlo, hhi, hcount, hmin, hmax⟩ := hne
  have hselOn : (s.snapSelected i w).convPowered x = true :=
    (State.convPowered_congr ((State.reg_setF_ne _ _ _ hsel).trans (State.reg_setF_ne _ _ _ hsel))).trans hon
  have hshownOn (v : State) (acc : Nat × Nat × Nat) (trk : Int × Int) : (v.snapShown i acc trk).convPowered x = v.convPowered x :=
    State.convPowered_congr ((State.reg_setNat_ne _ _ hmax).trans ((State.reg_setNat_ne _ _ hmin).trans
      ((State.reg_setNat_ne _ _ hcount).trans ((State.reg_setNat_ne _ _ hhi).trans (State.reg_setNat_ne _ _ hlo)))))
  unfold State.snapSelected at hselOn ⊢
  unfold State.snapShown at hshownOn ⊢
  rw [hconv] at hselOn ⊢
  simp only [State.snapshot, hconv, hsnap, hselOn, hshownOn, Nat.one_ne_zero, if_true, if_false]
  rfl

/-- Settles O49: the trigger, the requests, MON_CV_CTRL and the snapshot in the cases of the statement. -/
theorem monitorStarts : Obligations.MonitorStarts := by
  intro s x hon
  refine ⟨fun hidle => ?idle, fun hruns hseq hwait => ?single, fun hruns hseq hwait => ?sequence, fun hruns hseq hbusy => ?overrun,
    fun pin rising hother => ⟨fun htaken => ?taken, fun htaken => ?notTaken⟩, fun hcmd hown => ?urgent, fun hcmd hown => ?selfcal,
    fun w hrate htrig hedge => ?legal, fun w hbad => ?illegal, fun i w hconv hsnap => ?snap⟩
  case idle => exact congrArg Host.Outcome.next (State.convTrigger_of_idle (.inr hidle))
  case single =>
    refine ⟨_, congrArg Host.Outcome.next (State.convTrigger_of_waiting hon hruns hseq hwait),
      State.convState_setConvState _ _ _ (by decide), State.chan_setConvState _ _ _ _ (State.getF_lt s _ _), ?_, ?_⟩
    · exact (s.writesOnly_setConvState x _ _).regs
    · exact (s.writesOnly_setConvState x _ _).only
  case sequence =>
    obtain ⟨hstate, hentry, hchan, hleft, hregs⟩ := s.startEntry_spec x 0 (by decide)
    exact ⟨_, congrArg Host.Outcome.next ((State.convTrigger_of_seq hon hruns hseq).trans (if_pos hwait)),
      hstate, hentry, hchan, hleft, hregs⟩
  case overrun =>
    obtain ⟨hset, hcount, hstate⟩ := s.trigOverrun_spec x
    exact ⟨_, congrArg Host.Outcome.next (State.convTrigger_of_busy hon hruns hseq hbusy), hset, hcount, hstate,
      (s.writesOnly_trigOverrun x).only⟩
  case taken =>
    exact congrArg Host.Outcome.next ((s.edgeAt_one_sided x pin rising hother).trans (State.edgeAt_of_taken hon htaken))
  case notTaken =>
    exact congrArg Host.Outcome.next ((s.edgeAt_one_sided x pin rising hother).trans (State.edgeAt_of_not_taken htaken))
  case urgent =>
    exact ⟨_, congrArg Host.Outcome.next (State.urgentReq_of_own hon hcmd hown),
      s.request_spec x (by decide) (by decide) (by decide) (State.getF_lt s _ _)⟩
  case selfcal =>
    obtain ⟨hset, hstate, hchan, -, hregs⟩ :=
      s.request_spec x (f := F.monCvCmdSelfcal) (st := 5) (ch := 31) (by decide) (by decide) (by decide) (by decide)
    exact ⟨_, congrArg Host.Outcome.next (State.selfcalReq_of_own hon hcmd hown), hset, hstate, hchan, hregs⟩
  case legal =>
    have hlegal : ¬ monCtrlIllegal w := by
      rintro (h | h | h)
      · omega
      · omega
      · exact hedge h
    have hregs := State.regsBut_convCtrl (w := w) hon hlegal
    refine ⟨_, rfl, fun f hf => ?_, ?_, fun hruns hrun hown => State.convCtrl_starts hon hlegal hruns hrun hown⟩
    · rw [State.getF_congr (hregs _ (by simpa using monCvCtrl_ne_state x))]
      exact State.getF_setFields s monCtrlFields_fit monCtrlFields_disjoint hf
    · exact ((State.writesOnly_setFields _ w _ s).regs.mono (by simp)).trans (hregs.mono (by simp))
  case illegal => exact ⟨_, congrArg Host.Outcome.next (State.convCtrl_of_illegal hon hbad)⟩
  case snap =>
    obtain ⟨hlo, hhi, hcount, hmin, hmax⟩ := (s.snapSelected i w).snapShown_spec i
      ((s.conv x).acc.getD (F.monSnapSelChan.get w) (0, 0, 0))
      (((s.conv x).trk.get? (32 * i.val + F.monSnapSelChan.get w)).getD (2 ^ 23 - 1, -(2 ^ 23)))
    have hreg (k : Conv) (v : State) (a : Nat) : (v.setConv x k).reg a = v.reg a := State.reg_setConv v x k a
    refine ⟨_, congrArg Host.Outcome.next (s.snapshot_of_on i hconv hsnap hon), ?_, ?_, ?_, ?_, ?_, ?_, ?_⟩
    · rw [State.regNat, hreg]; exact hlo
    · rw [State.regNat, hreg]; exact hhi
    · rw [State.regNat, hreg]; exact hcount
    · rw [hreg, hmin]
    · rw [hreg, hmax]
    · rw [State.conv_setConv]
    · rw [State.conv_setConv]; exact Tab.get?_del_self _ _

end

end Sys2Proof.Machine
end


section
/-! PROOF. What a monitor converter delivers (R361 to R371): results, the end of urgent work and of self-calibration, delays and
the cross-check, and O50. -/

namespace Sys2Proof.Machine

section
variable {s u : State} {x : Nat}

/-! ### A result enters the accumulator (R366, R367) -/

/-- The trackers of a channel take a result. -/
def Conv.tracked (k : Conv) (ch : Nat) (r : Int) : Tab (Int × Int) :=
  (k.trk.put ch (track (k.trk.get? ch) r)).put (32 + ch) (track (k.trk.get? (32 + ch)) r)

theorem State.accumulate_some (s : State) (x ch : Nat) (r : Int) : s.accumulate x ch (some r) = s.setConv x { s.conv x with
    acc := (s.conv x).acc.set ch (ofInt 48 ((((s.conv x).acc.getD ch (0, 0, 0)).1 : Int) + r),
      (((s.conv x).acc.getD ch (0, 0, 0)).2.1 + 1) % 2 ^ 16, ((s.conv x).acc.getD ch (0, 0, 0)).2.2) (0, 0, 0),
    trk := (s.conv x).tracked ch r } := rfl

/-- The state in which an over-range result is shown. -/
def State.overShown (s : State) (x : Nat) : State :=
  s.raise R.monStatus (if x = 0 then F.monStatusOvrA else F.monStatusOvrB) (if x = 0 then R.monOvraEvt else R.monOvrbEvt)

theorem State.accumulate_none (s : State) (x ch : Nat) : s.accumulate x ch none = (s.setConv x { s.conv x with
    acc := (s.conv x).acc.set ch (((s.conv x).acc.getD ch (0, 0, 0)).1, ((s.conv x).acc.getD ch (0, 0, 0)).2.1,
      (((s.conv x).acc.getD ch (0, 0, 0)).2.2 + 1) % 2 ^ 16) (0, 0, 0) }).overShown x := by
  by_cases hx : x = 0
  · subst hx; rfl
  · simp only [State.accumulate, State.overShown, hx, if_false]

/-- The registers that an over-range result may write. -/
def overRegs : List Nat := [R.monStatus, R.monOvraEvt, R.monOvrbEvt]

theorem State.writesOnly_overShown (s : State) (x : Nat) : s.WritesOnly (s.overShown x) overRegs := by
  refine (State.WritesOnly.refl s _).raise (by simp [overRegs]) ?_ _
  split <;> simp [overRegs]

theorem State.conv_overShown (s : State) (x y : Nat) : (s.overShown x).conv y = s.conv y :=
  (s.writesOnly_overShown x).keeps (fun v => v.conv y) fun _ => rfl

/-- A result writes the converter's accumulator and trackers, and perhaps the over-range status. -/
theorem State.accumulate_eq (s : State) (x ch : Nat) (r : Option Int) : ∃ acc trk,
    (s.setConv x { s.conv x with acc := acc, trk := trk }).WritesOnly (s.accumulate x ch r) overRegs := by
  cases r with
  | some r => exact ⟨_, _, by rw [State.accumulate_some]; exact .refl _ _⟩
  | none => exact ⟨_, (s.conv x).trk, by rw [State.accumulate_none]; exact State.writesOnly_overShown _ _⟩

theorem State.regsBut_accumulate (s : State) (x ch : Nat) (r : Option Int) : s.regsBut (s.accumulate x ch r) overRegs := by
  obtain ⟨acc, trk, hwrites⟩ := s.accumulate_eq x ch r
  exact (State.regsBut_setConv s x _ _).trans hwrites.regs

theorem mon_not_mem_overRegs (x : Nat) : R.monCvCtrl x ∉ overRegs ∧ R.monCvState x ∉ overRegs ∧ R.monCvCmd x ∉ overRegs := by
  simp only [overRegs, List.mem_cons, List.not_mem_nil, or_false, not_or, R.monCvCtrl, R.monCvState, R.monCvCmd, R.monStatus,
    R.monOvraEvt, R.monOvrbEvt]
  omega

/-! ### A conversion's result (R361, R364, R365) -/

/-- What a conversion delivers: the result, or none where it is over range. -/
def State.delivers (s : State) (x : Nat) (raw : Int) (overload : Bool) : Option Int :=
  if s.overRange x raw overload then none else some (s.convResult x raw)

/-- The converter's own conversion in single mode: its result is taken, and the converter waits again. -/
theorem State.deliverResult_of_own (raw : Int) (overload : Bool) (hstate : s.convState x = 3) (hseq : s.convSeq x = false) :
    s.deliverResult x raw overload = (s.accumulate x (s.getF (R.monCvState x) F.monCvStateChan)
      (s.delivers x raw overload)).setConvState x 1 0 := by
  have hseq' (ch : Nat) (r : Option Int) : (s.accumulate x ch r).convSeq x = false :=
    (State.convSeq_congr (s.regsBut_accumulate x ch r _ (mon_not_mem_overRegs x).1)).trans hseq
  simp only [State.deliverResult, State.afterResult, State.delivers, hstate, hseq']
  rfl

theorem State.deliverResult_of_urgent (raw : Int) (overload : Bool) (hstate : s.convState x = 4) :
    s.deliverResult x raw overload = ((s.accumulate x (s.getF (R.monCvState x) F.monCvStateChan)
      (s.delivers x raw overload)).setF (R.monCvCmd x) F.monCvCmdUrgent 0).endTaken x := by
  simp only [State.deliverResult, State.delivers, hstate]
  rfl

/-- A result that ends no rail check and shows no bad rail only does what the converter does with it. -/
theorem State.conversion_eq_deliver (raw : Int) (overload : Bool) (hon : s.convPowered x = true)
    (hrail : s.sys.railWait = none ∨ s.convState x ≠ 4)
    (hgood : s.overRange x raw overload = true ∨ railBad (s.getF (R.monCvState x) F.monCvStateChan) (s.convResult x raw) = false ∨
      s.sys.ccUp = false) :
    s.conversion x raw overload = s.deliverResult x raw overload := by
  simp only [State.conversion, hon, Bool.not_true, Bool.false_eq_true, if_false]
  have hcheck : ¬ (s.sys.railWait.isSome && x == 0 && s.convState x == 4 &&
      s.sys.railLeft.head? == some (s.getF (R.monCvState x) F.monCvStateChan)) = true := by
    rcases hrail with h | h
    · simp [h]
    · simp [h]
  rw [if_neg hcheck]
  refine if_neg ?_
  rcases hgood with h | h | h
  · simp [h]
  · cases hover : s.overRange x raw overload <;> simp [h]
  · simp [h]

/-- What the converter shows after its own conversion in single mode. -/
theorem State.deliverResult_spec (raw : Int) (overload : Bool) (hstate : s.convState x = 3) (hseq : s.convSeq x = false) :
    (s.deliverResult x raw overload).convState x = 1 ∧
    (s.deliverResult x raw overload).conv x = (s.accumulate x (s.getF (R.monCvState x) F.monCvStateChan)
      (s.delivers x raw overload)).conv x ∧
    (s.accumulate x (s.getF (R.monCvState x) F.monCvStateChan) (s.delivers x raw overload)).regsBut
      (s.deliverResult x raw overload) [R.monCvState x] := by
  rw [State.deliverResult_of_own raw overload hstate hseq]
  exact ⟨State.convState_setConvState _ _ _ (by decide), State.conv_setConvState _ _ _ _ _,
    (State.writesOnly_setConvState _ x _ _).regs⟩

theorem State.overShown_spec (s : State) (x : Nat) :
    (s.overShown x).isSet R.monStatus (if x = 0 then F.monStatusOvrA else F.monStatusOvrB) = true := by
  refine State.isSet_raise_self _ _ _ _ ?_ ?_ ?_ <;> split <;> decide

/-! ### The end of urgent work (R368, R369, R371) -/

/-- A cross-check that waits for nothing starts nothing. -/
theorem State.pollXchk_of_none (h : s.mon.xWait = false) : s.pollXchk = s :=
  if_neg fun hgo => by rw [h] at hgo; exact Bool.false_ne_true hgo.1

theorem State.setConv_xWait (s : State) (x : Nat) (k : Conv) : (s.setConv x k).mon.xWait = s.mon.xWait := by
  unfold State.setConv
  split <;> rfl

/-- The aborted conversion restarts. -/
theorem State.resumeConv_of_held {h : Nat} (hruns : s.convRuns x = true) (hheld : (s.conv x).held = some h) :
    s.resumeConv x = (s.setConv x { s.conv x with held := none, delayOver := false }).setConvState x 3 h := by
  have hruns' (k : Conv) : (s.setConv x k).convRuns x = true := (State.convRuns_congr (State.reg_setConv s x k _)).trans hruns
  simp only [State.resumeConv, hruns', hheld, not_true_eq_false, if_false]

/-- The registers in which the converters show their work. -/
def convStates (x : Nat) : List Nat := [R.monCvState x, R.monCvState 0, R.monCvState 1]

theorem State.regsBut_putAside (s : State) (x st ch : Nat) : s.regsBut (s.putAside x st ch) [R.monCvState x] := by
  rw [State.putAside_eq]
  exact (State.regsBut_setConv s x _ _).trans (State.writesOnly_setConvState _ x _ _).regs

theorem State.regsBut_resumeConv (s : State) (x : Nat) : s.regsBut (s.resumeConv x) [R.monCvState x] := by
  have hset (v : State) (k : Conv) (h : s.regsBut v [R.monCvState x]) : s.regsBut (v.setConv x k) [R.monCvState x] :=
    h.trans (State.regsBut_setConv v x k _)
  have hstate (v : State) (st ch : Nat) (h : s.regsBut v [R.monCvState x]) : s.regsBut (v.setConvState x st ch) [R.monCvState x] :=
    h.trans (v.writesOnly_setConvState x st ch).regs
  unfold State.resumeConv
  dsimp only
  split
  · exact hstate _ _ _ (hset _ _ (hset _ _ (.refl s _)))
  split
  · exact hstate _ _ _ (hset _ _ (.refl s _))
  split
  · exact hstate _ _ _ (hset _ _ (.refl s _))
  split <;> exact hstate _ _ _ (hset _ _ (.refl s _))

theorem State.regsBut_startXchk (s : State) : s.regsBut s.startXchk [R.monCvState 0, R.monCvState 1] := by
  unfold State.startXchk
  dsimp only
  split
  · exact fun _ _ => rfl
  · refine .trans (u := ({ s with mon := { s.mon with xWait := false, x0 := none, x1 := none } } : State)) (fun _ _ => rfl) ?_
    exact ((State.regsBut_putAside _ 0 _ _).mono (by simp)).trans ((State.regsBut_putAside _ 1 _ _).mono (by simp))

/-- The end of urgent work writes the state of the converters alone. -/
theorem State.regsBut_endTaken (s : State) (x : Nat) : s.regsBut (s.endTaken x) (convStates x) := by
  have hown : ∀ b ∈ [R.monCvState x], b ∈ convStates x := by simp [convStates]
  have hboth : ∀ b ∈ [R.monCvState 0, R.monCvState 1], b ∈ convStates x := by simp [convStates]
  refine ((s.regsBut_resumeConv x).mono hown).trans ?_
  unfold State.endTaken
  dsimp only
  split
  · exact (State.regsBut_putAside _ x _ _).mono hown
  split
  · exact (State.regsBut_putAside _ x _ _).mono hown
  · unfold State.pollXchk
    split
    · exact (State.regsBut_startXchk _).mono hboth
    · exact .refl _ _

/-- Nothing urgent waits on the converter, and no cross-check. -/
theorem State.endTaken_of_idle (hurgent : s.isSet (R.monCvCmd x) F.monCvCmdUrgent = false)
    (hselfcal : s.isSet (R.monCvCmd x) F.monCvCmdSelfcal = false) (hwait : (s.resumeConv x).mon.xWait = false) :
    s.endTaken x = s.resumeConv x := by
  have hcmd : (s.resumeConv x).reg (R.monCvCmd x) = s.reg (R.monCvCmd x) :=
    s.regsBut_resumeConv x _ (by simpa using (monCvCmd_ne_state x).symm)
  unfold State.endTaken
  dsimp only
  rw [State.isSet_congr hcmd, hurgent, State.isSet_congr hcmd, hselfcal, State.pollXchk_of_none hwait]
  rfl

/-- An urgent result gives the converter back: the conversion that it put aside restarts. -/
theorem State.deliverResult_urgent_spec (raw : Int) {h : Nat} (hstate : s.convState x = 4) (hruns : s.convRuns x = true)
    (hheld : (s.conv x).held = some h) (hlt : h < 32) (hselfcal : s.isSet (R.monCvCmd x) F.monCvCmdSelfcal = false)
    (hwait : s.mon.xWait = false) :
    let u := s.deliverResult x raw false
    u.isSet (R.monCvCmd x) F.monCvCmdUrgent = false ∧ u.convState x = 3 ∧ u.getF (R.monCvState x) F.monCvStateChan = h := by
  intro u
  obtain ⟨hctrl, -, hcmd⟩ := mon_not_mem_overRegs x
  obtain ⟨acc, trk, hwrites⟩ := s.accumulate_eq x (s.getF (R.monCvState x) F.monCvStateChan) (s.delivers x raw false)
  have hregs := s.regsBut_accumulate x (s.getF (R.monCvState x) F.monCvStateChan) (s.delivers x raw false)
  have hu : u = ((s.accumulate x (s.getF (R.monCvState x) F.monCvStateChan) (s.delivers x raw false)).setF (R.monCvCmd x)
    F.monCvCmdUrgent 0).endTaken x := State.deliverResult_of_urgent raw false hstate
  generalize s.accumulate x (s.getF (R.monCvState x) F.monCvStateChan) (s.delivers x raw false) = v at hwrites hregs hu
  have hset := (State.WritesOnly.refl v _).setF (List.mem_singleton_self (R.monCvCmd x)) F.monCvCmdUrgent 0
  have hclear : (v.setF (R.monCvCmd x) F.monCvCmdUrgent 0).isSet (R.monCvCmd x) F.monCvCmdUrgent = false := by
    rw [State.isSet_setF_self _ _ _ _ (by decide)]; decide
  have hselfcal' : (v.setF (R.monCvCmd x) F.monCvCmdUrgent 0).isSet (R.monCvCmd x) F.monCvCmdSelfcal = false := by
    rw [State.isSet_setF_field _ _ _ _ _ (by decide) (by decide), State.isSet_congr (hregs _ hcmd), hselfcal]
  have hruns' : (v.setF (R.monCvCmd x) F.monCvCmdUrgent 0).convRuns x = true :=
    (State.convRuns_congr ((State.reg_setF_ne _ _ _ (by simp only [R.monCvCtrl, R.monCvCmd]; omega)).trans (hregs _ hctrl))).trans hruns
  have hconv : (v.setF (R.monCvCmd x) F.monCvCmdUrgent 0).conv x = { s.conv x with acc := acc, trk := trk } := by
    rw [State.conv_setF, hwrites.keeps (fun w => w.conv x) fun _ => rfl, State.conv_setConv]
  have hxWait : (v.setF (R.monCvCmd x) F.monCvCmdUrgent 0).mon.xWait = false := by
    rw [hset.keeps (fun w => w.mon.xWait) fun _ => rfl, hwrites.keeps (fun w => w.mon.xWait) fun _ => rfl, State.setConv_xWait, hwait]
  generalize v.setF (R.monCvCmd x) F.monCvCmdUrgent 0 = w at hu hclear hselfcal' hruns' hconv hxWait
  have hresume := State.resumeConv_of_held (h := h) hruns' (by rw [hconv]; exact hheld)
  have hidle : u = w.resumeConv x := by
    rw [hu, State.endTaken_of_idle hclear hselfcal']
    rw [hresume, (State.writesOnly_setConvState _ x 3 h).keeps (fun w => w.mon.xWait) fun _ => rfl, State.setConv_xWait, hxWait]
  refine ⟨?_, ?_, ?_⟩
  · rw [hidle, State.isSet_congr (w.regsBut_resumeConv x _ (by simpa using (monCvCmd_ne_state x).symm)), hclear]
  · rw [hidle, hresume, State.convState_setConvState _ _ _ (by decide)]
  · rw [hidle, hresume, State.chan_setConvState _ _ _ _ hlt]

/-! ### The end of self-calibration (R371) -/

/-- The self offset that the zeros give. -/
def selfOffset (zeros : List Int) : Int := rneDiv zeros.sum 9

/-- The denominator of the self gain. -/
def selfDen (zeros refs : List Int) : Int := 10 * (refs.sum - 9 * selfOffset zeros)

/-- The offset and the gain lie within their limits. -/
abbrev selfcalGood (zeros refs : List Int) : Prop := zeros.sum.natAbs ≤ 65536 * 9 ∧ 0 < selfDen zeros refs ∧
  95 * selfDen zeros refs ≤ 50331648 * 9 * 100 ∧ 50331648 * 9 * 100 ≤ 105 * selfDen zeros refs

/-- The request is done, and the temperature at which the converter calibrated is kept. -/
def State.selfcalTaken (s : State) (x : Nat) : State :=
  let u := s.setF (R.monCvCmd x) F.monCvCmdSelfcal 0
  { u with thm := { u.thm with monTemp := u.thm.monTemp.put x u.stackTemp4 } }

/-- A failed self-calibration is shown and reported. -/
def State.selfcalBad (s : State) (x : Nat) : State :=
  (s.raise R.monStatus F.monStatusCalFail R.monCalfEvt).report Src.device E.thmMonSelfcal (Rep.fw 3) x

/-- The self factors are written. -/
def State.selfFactors (s : State) (x : Nat) (zeros refs : List Int) : State :=
  (s.setNat (R.monCvOfsSelf x) (ofInt 32 (selfOffset zeros))).setNat (R.monCvGainSelf x)
    (rneDiv (50331648 * 9 * 2 ^ 30) (selfDen zeros refs).toNat).toNat

theorem State.selfcalEnd_eq {zeros refs : List Int} (hzeros : zeros.length = 9) (hrefs : refs.length = 9)
    (hstate : s.convState x = 5) : s.selfcalEnd x zeros refs =
    (if selfcalGood zeros refs then (s.selfcalTaken x).selfFactors x zeros refs else (s.selfcalTaken x).selfcalBad x).endTaken x := by
  have htakeZ : zeros.take 9 = zeros := List.take_of_length_le hzeros.le
  have htakeR : refs.take 9 = refs := List.take_of_length_le hrefs.le
  have hswap (bad good : State) : (if (decide (zeros.sum.natAbs > 65536 * 9) || decide (selfDen zeros refs ≤ 0) ||
      decide ((50331648 * 9 : Int) * 100 < 95 * selfDen zeros refs) ||
      decide (105 * selfDen zeros refs < (50331648 * 9 : Int) * 100)) = true then bad else good) =
      if selfcalGood zeros refs then good else bad := by
    by_cases h : selfcalGood zeros refs
    · have hnot := h
      obtain ⟨hofs, hpos, hlow, hhigh⟩ := hnot
      rw [if_pos h, decide_eq_false (Nat.not_lt.2 hofs), decide_eq_false (Int.not_le.2 hpos), decide_eq_false (Int.not_lt.2 hlow),
        decide_eq_false (Int.not_lt.2 hhigh)]
      rfl
    · rw [if_neg h]
      refine if_pos ?_
      simp only [selfcalGood, not_and_or, Nat.not_le, Int.not_lt, Int.not_le] at h
      simp only [Bool.or_eq_true, decide_eq_true_eq, or_assoc]
      exact h
  simp only [State.selfcalEnd, hstate, ne_eq, not_true_eq_false, if_false, htakeZ, htakeR, hzeros, hrefs, ← List.sum_eq_foldl,
    (by decide : max 9 1 = 9), Nat.cast_ofNat]
  exact congrArg (State.endTaken · x) (hswap _ _)

/-- The registers that show a self-calibration. -/
def selfRegs (x : Nat) : List Nat := [R.monCvCmd x, R.monCvOfsSelf x, R.monCvGainSelf x, R.monStatus, R.monCalfEvt]

theorem selfRegs_nodup (x : Nat) : (selfRegs x).Nodup := by
  simp only [selfRegs, List.nodup_cons, List.mem_cons, List.not_mem_nil, or_false, not_or, List.nodup_nil, not_false_eq_true, and_true,
    R.monCvCmd, R.monCvOfsSelf, R.monCvGainSelf, R.monStatus, R.monCalfEvt]
  omega

theorem selfRegs_report (x : Nat) : ∀ a ∈ selfRegs x, a ≠ R.fltOpen ∧ a ≠ R.fltStatus ∧ a ≠ R.fltNewsrcEvt ∧ a ≠ R.fltOvfEvt := by
  simp only [selfRegs, List.mem_cons, List.not_mem_nil, or_false, forall_eq_or_imp, forall_eq, R.monCvCmd, R.monCvOfsSelf,
    R.monCvGainSelf, R.monStatus, R.monCalfEvt, R.fltOpen, R.fltStatus, R.fltNewsrcEvt, R.fltOvfEvt]
  omega

theorem selfRegs_not_mem_convStates (x : Nat) : ∀ a ∈ selfRegs x, a ∉ convStates x := by
  simp only [selfRegs, convStates, List.mem_cons, List.not_mem_nil, or_false, not_or, forall_eq_or_imp, forall_eq, R.monCvCmd,
    R.monCvOfsSelf, R.monCvGainSelf, R.monStatus, R.monCalfEvt, R.monCvState]
  omega

/-- The end of a self-calibration leaves the registers that show it. -/
theorem State.reg_endTaken (s : State) {x a : Nat} (ha : a ∈ selfRegs x) : (s.endTaken x).reg a = s.reg a :=
  s.regsBut_endTaken x a (selfRegs_not_mem_convStates x a ha)

theorem State.reg_selfcalTaken (s : State) (x a : Nat) :
    (s.selfcalTaken x).reg a = (s.setF (R.monCvCmd x) F.monCvCmdSelfcal 0).reg a := rfl

theorem State.regsBut_selfcalTaken (s : State) (x : Nat) : s.regsBut (s.selfcalTaken x) [R.monCvCmd x] := fun a ha =>
  (s.reg_selfcalTaken x a).trans (State.reg_setF_ne _ _ _ (by simpa using ha))

theorem State.isSet_selfcalTaken (s : State) (x : Nat) : (s.selfcalTaken x).isSet (R.monCvCmd x) F.monCvCmdSelfcal = false := by
  rw [State.isSet_congr (s.reg_selfcalTaken x _), State.isSet_setF_self _ _ _ _ (by decide)]
  decide

/-- What the self factors, or their failure, leave of the registers that show a self-calibration. -/
theorem State.selfFactors_spec (s : State) (x : Nat) (zeros refs : List Int) :
    (s.selfFactors x zeros refs).reg (R.monCvCmd x) = s.reg (R.monCvCmd x) ∧
    (s.selfFactors x zeros refs).reg (R.monCvOfsSelf x) = BitVec.ofInt 32 (selfOffset zeros) ∧
    (s.selfFactors x zeros refs).regNat (R.monCvGainSelf x) =
      (rneDiv (50331648 * 9 * 2 ^ 30) (selfDen zeros refs).toNat).toNat % 2 ^ 32 := by
  have hnodup := selfRegs_nodup x
  simp only [selfRegs, List.nodup_cons, List.mem_cons, List.not_mem_nil, or_false, not_or] at hnodup
  obtain ⟨⟨hcmdOfs, hcmdGain, -⟩, ⟨hofsGain, -⟩, -⟩ := hnodup
  unfold State.selfFactors
  exact ⟨(State.reg_setNat_ne _ _ hcmdGain).trans (State.reg_setNat_ne _ _ hcmdOfs),
    (State.reg_setNat_ne _ _ hofsGain).trans ((State.reg_setNat_self _ _ _).trans (ofNat_ofInt _)), State.regNat_setNat_self _ _ _⟩

theorem State.selfcalBad_spec (s : State) (x : Nat) : (s.selfcalBad x).isSet R.monStatus F.monStatusCalFail = true ∧
    (s.selfcalBad x).reg R.monCalfEvt = satInc (s.reg R.monCalfEvt) 1 ∧
    ∀ a ∈ selfRegs x, a ≠ R.monStatus → a ≠ R.monCalfEvt → (s.selfcalBad x).reg a = s.reg a := by
  have hshown : ∀ a ∈ selfRegs x, (s.selfcalBad x).reg a = (s.raise R.monStatus F.monStatusCalFail R.monCalfEvt).reg a :=
    fun a ha => State.reg_report _ _ _ _ _ (selfRegs_report x a ha)
  refine ⟨?_, ?_, fun a ha hstatus hevt => (hshown a ha).trans (State.reg_raise_ne _ _ _ _ hstatus hevt)⟩
  · rw [State.isSet_congr (hshown _ (by simp [selfRegs]))]
    exact State.isSet_raise_self _ _ _ _ (by decide) (by decide) (by decide)
  · rw [hshown _ (by simp [selfRegs])]
    exact State.reg_raise_evt _ _ _ _ (by decide)

/-- What a self-calibration leaves of the request, the factors and the status. -/
theorem State.selfcalEnd_spec {zeros refs : List Int} (hzeros : zeros.length = 9) (hrefs : refs.length = 9)
    (hstate : s.convState x = 5) :
    let u := s.selfcalEnd x zeros refs
    u.isSet (R.monCvCmd x) F.monCvCmdSelfcal = false ∧
    (selfcalGood zeros refs → u.reg (R.monCvOfsSelf x) = BitVec.ofInt 32 (selfOffset zeros) ∧
      u.regNat (R.monCvGainSelf x) = (rneDiv (50331648 * 9 * 2 ^ 30) (selfDen zeros refs).toNat).toNat % 2 ^ 32) ∧
    (¬ selfcalGood zeros refs → u.isSet R.monStatus F.monStatusCalFail = true ∧ u.reg R.monCalfEvt = satInc (s.reg R.monCalfEvt) 1 ∧
      u.reg (R.monCvOfsSelf x) = s.reg (R.monCvOfsSelf x) ∧ u.reg (R.monCvGainSelf x) = s.reg (R.monCvGainSelf x)) := by
  intro u
  have hu : u = s.selfcalEnd x zeros refs := rfl
  rw [State.selfcalEnd_eq hzeros hrefs hstate] at hu
  have hcmd : R.monCvCmd x ∈ selfRegs x := by simp [selfRegs]
  have hofs : R.monCvOfsSelf x ∈ selfRegs x := by simp [selfRegs]
  have hgain : R.monCvGainSelf x ∈ selfRegs x := by simp [selfRegs]
  have hstatus : R.monStatus ∈ selfRegs x := by simp [selfRegs]
  have hevt : R.monCalfEvt ∈ selfRegs x := by simp [selfRegs]
  have htaken := s.regsBut_selfcalTaken x
  have hclear := s.isSet_selfcalTaken x
  by_cases hgood : selfcalGood zeros refs
  · rw [if_pos hgood] at hu
    obtain ⟨hkeeps, hwritesOfs, hwritesGain⟩ := (s.selfcalTaken x).selfFactors_spec x zeros refs
    refine ⟨?_, fun _ => ⟨?_, ?_⟩, fun hbad => absurd hgood hbad⟩
    · rw [hu, State.isSet_congr (State.reg_endTaken _ hcmd), State.isSet_congr hkeeps, hclear]
    · rw [hu, State.reg_endTaken _ hofs, hwritesOfs]
    · rw [hu, State.regNat, State.reg_endTaken _ hgain, ← hwritesGain, State.regNat]
  · rw [if_neg hgood] at hu
    obtain ⟨hset, hcount, hkeeps⟩ := (s.selfcalTaken x).selfcalBad_spec x
    have hother : R.monCvCmd x ≠ R.monStatus ∧ R.monCvCmd x ≠ R.monCalfEvt ∧ R.monCvOfsSelf x ≠ R.monStatus ∧
        R.monCvOfsSelf x ≠ R.monCalfEvt ∧ R.monCvGainSelf x ≠ R.monStatus ∧ R.monCvGainSelf x ≠ R.monCalfEvt ∧
        R.monCvOfsSelf x ≠ R.monCvCmd x ∧ R.monCvGainSelf x ≠ R.monCvCmd x := by
      simp only [R.monCvCmd, R.monCvOfsSelf, R.monCvGainSelf, R.monStatus, R.monCalfEvt]; omega
    obtain ⟨hcmdStatus, hcmdEvt, hofsStatus, hofsEvt, hgainStatus, hgainEvt, hofsCmd, hgainCmd⟩ := hother
    refine ⟨?_, fun hyes => absurd hyes hgood, fun _ => ⟨?_, ?_, ?_, ?_⟩⟩
    · rw [hu, State.isSet_congr (State.reg_endTaken _ hcmd), State.isSet_congr (hkeeps _ hcmd hcmdStatus hcmdEvt), hclear]
    · rw [hu, State.isSet_congr (State.reg_endTaken _ hstatus), hset]
    · rw [hu, State.reg_endTaken _ hevt, hcount, htaken _ (by simp only [List.mem_singleton]; exact hcmdEvt.symm)]
    · rw [hu, State.reg_endTaken _ hofs, hkeeps _ hofs hofsStatus hofsEvt, htaken _ (by simpa using hofsCmd)]
    · rw [hu, State.reg_endTaken _ hgain, hkeeps _ hgain hgainStatus hgainEvt, htaken _ (by simpa using hgainCmd)]

/-! ### Delays (R362, R368) -/

theorem State.delayEnd_of_early {d : Nat} (hdelay : (s.conv x).delayAt = some d) (h : s.timeUs < d) : s.delayEnd x = s := by
  simp only [State.delayEnd, hdelay]
  exact if_pos h

theorem State.delayEnd_of_over {d : Nat} (hdelay : (s.conv x).delayAt = some d) (h : d ≤ s.timeUs) (hstate : s.convState x = 2) :
    s.delayEnd x = (s.setConv x { s.conv x with delayAt := none }).setConvState x 3 (entryChan (s.conv x).entry) := by
  simp only [State.delayEnd, hdelay, hstate, if_true]
  exact if_neg (Nat.not_lt.2 h)

/-! ### The cross-check (R369) -/

/-- The time of the cross-check is taken. -/
def State.xchkTimed (s : State) : State := { s with mon := { s.mon with xAt := s.timeUs } }

/-- The cross-check's period has passed. -/
abbrev State.XchkDue (s : State) : Prop := s.getF R.monXchkCfg F.monXchkCfgPeriod ≠ 0 ∧
  s.mon.xAt + s.getF R.monXchkCfg F.monXchkCfgPeriod * 1000000 ≤ s.timeUs

theorem State.crossCheckDue_of_due (hdue : s.XchkDue) : s.crossCheckDue =
    if s.xchkTimed.xchkSkipped then s.xchkTimed
    else if s.xchkTimed.convTaken 0 || s.xchkTimed.convTaken 1 then
      { s.xchkTimed with mon := { s.xchkTimed.mon with xWait := true } }
    else s.xchkTimed.startXchk := by
  obtain ⟨hper, htime⟩ := hdue
  unfold State.crossCheckDue
  refine if_neg ?_
  rw [not_or, Nat.not_lt]
  exact ⟨hper, htime⟩

theorem State.xchkSkipped_congr (hregs : u.regs = s.regs) (hpart : u.part = s.part) : u.xchkSkipped = s.xchkSkipped := by
  have hreg (a : Nat) : u.reg a = s.reg a := State.reg_congr hregs hpart a
  simp only [State.xchkSkipped, State.convRuns_congr (hreg _), State.getF_congr (hreg _), State.domOn_congr (hreg _)]

/-- No result of the cross-check is there yet. -/
def State.xchkCleared (s : State) : State := { s with mon := { s.mon with xWait := false, x0 := none, x1 := none } }

theorem State.startXchk_of_not_skipped (hskip : s.xchkSkipped = false) : s.startXchk =
    (s.xchkCleared.putAside 0 6 (s.getF R.monXchkCfg F.monXchkCfgChan)).putAside 1 6 (s.getF R.monXchkCfg F.monXchkCfgChan) := by
  have hclear : s.xchkCleared.xchkSkipped = false := (State.xchkSkipped_congr rfl rfl).trans hskip
  exact if_neg (by rw [← State.xchkCleared, hclear]; exact Bool.false_ne_true)

theorem State.setConv_xAt (s : State) (x : Nat) (k : Conv) : (s.setConv x k).mon.xAt = s.mon.xAt := by
  unfold State.setConv
  split <;> rfl

theorem State.putAside_xAt (s : State) (x st ch : Nat) : (s.putAside x st ch).mon.xAt = s.mon.xAt := by
  rw [State.putAside_eq, (State.writesOnly_setConvState _ x st ch).keeps (fun w => w.mon.xAt) fun _ => rfl, State.setConv_xAt]

/-- A cross-check takes both converters. -/
theorem State.startXchk_spec (hskip : s.xchkSkipped = false) :
    (∀ y, y < 2 → s.startXchk.convState y = 6 ∧
      s.startXchk.getF (R.monCvState y) F.monCvStateChan = s.getF R.monXchkCfg F.monXchkCfgChan) ∧
    s.startXchk.mon.xAt = s.mon.xAt := by
  have hch : s.getF R.monXchkCfg F.monXchkCfgChan < 32 := State.getF_lt s _ _
  rw [State.startXchk_of_not_skipped hskip]
  generalize s.getF R.monXchkCfg F.monXchkCfgChan = ch at hch
  obtain ⟨hstate0, hchan0, -, -⟩ := s.xchkCleared.putAside_spec 0 (st := 6) (by decide) hch
  obtain ⟨hstate1, hchan1, -, hregs⟩ := (s.xchkCleared.putAside 0 6 ch).putAside_spec 1 (st := 6) (by decide) hch
  have hkeep := hregs (R.monCvState 0) (by decide)
  refine ⟨fun y hy => ?_, by rw [State.putAside_xAt, State.putAside_xAt]; rfl⟩
  have hcases : y = 0 ∨ y = 1 := by omega
  rcases hcases with rfl | rfl
  · exact ⟨(State.convState_congr hkeep).trans hstate0, (State.getF_congr hkeep _).trans hchan0⟩
  · exact ⟨hstate1, hchan1⟩

end

/-- Settles O50: a result of the converter's own work, an urgent one, a self-calibration, a delay and the cross-check. -/
theorem monitorResults : Obligations.MonitorResults := by
  intro s x hon
  refine ⟨fun raw overload hstate hseq => ⟨fun hin hrail => ?good, fun hover => ?overRange⟩,
    fun raw h hstate hrail hruns hheld hlt hselfcal hwait hcores => ?urgent, fun zeros refs hzeros hrefs hstate => ?selfcal,
    fun d hdelay => ⟨fun hearly => ?early, fun hover hstate => ?delay⟩,
    fun hper htime => ⟨fun hskip => ?skipped, fun hskip htaken => ?waits, fun hskip hfree hfree' => ?check⟩⟩
  case good =>
    obtain ⟨hwaits, hconv, hregs⟩ := State.deliverResult_spec raw overload hstate hseq
    have hresult : s.delivers x raw overload = some (s.convResult x raw) := if_neg (by rw [hin]; exact Bool.false_ne_true)
    rw [hresult, State.accumulate_some] at hconv hregs
    refine ⟨_, congrArg Host.Outcome.next (State.conversion_eq_deliver raw overload hon (.inr (by rw [hstate]; decide)) (.inr (.inl hrail))),
      ?_, hwaits, (State.regsBut_setConv s x _ _).trans hregs⟩
    rw [hconv, State.conv_setConv]
    exact Tab.getD_set_self _ _ _ _
  case overRange =>
    obtain ⟨hwaits, hconv, hregs⟩ := State.deliverResult_spec raw overload hstate hseq
    have hresult : s.delivers x raw overload = none := if_pos hover
    rw [hresult, State.accumulate_none] at hconv hregs
    refine ⟨_, congrArg Host.Outcome.next (State.conversion_eq_deliver raw overload hon (.inr (by rw [hstate]; decide)) (.inl hover)),
      ?_, hwaits, ?_⟩
    · rw [hconv, State.conv_overShown, State.conv_setConv]
      exact Tab.getD_set_self _ _ _ _
    · have hstatus : R.monStatus ∉ [R.monCvState x] := by simp only [List.mem_singleton, R.monStatus, R.monCvState]; omega
      exact (State.isSet_congr (hregs _ hstatus) _).trans (State.overShown_spec _ x)
  case urgent =>
    exact ⟨_, congrArg Host.Outcome.next (State.conversion_eq_deliver raw false hon (.inl hrail) (.inr (.inr hcores))),
      State.deliverResult_urgent_spec raw hstate hruns hheld hlt hselfcal hwait⟩
  case selfcal => exact ⟨_, rfl, State.selfcalEnd_spec hzeros hrefs hstate⟩
  case early => exact congrArg Host.Outcome.next (State.delayEnd_of_early hdelay hearly)
  case delay =>
    exact ⟨_, congrArg Host.Outcome.next (State.delayEnd_of_over hdelay hover hstate),
      State.convState_setConvState _ _ _ (by decide), State.chan_setConvState _ _ _ _ (entryChan_lt _),
      (State.regsBut_setConv s x _ _).trans (State.writesOnly_setConvState _ x _ _).regs⟩
  case skipped =>
    have hskip' : s.xchkTimed.xchkSkipped = true := (State.xchkSkipped_congr rfl rfl).trans hskip
    exact congrArg Host.Outcome.next ((State.crossCheckDue_of_due ⟨hper, htime⟩).trans (if_pos hskip'))
  all_goals
    have hskip' : s.xchkTimed.xchkSkipped = false := (State.xchkSkipped_congr rfl rfl).trans hskip
    have hdue := (State.crossCheckDue_of_due ⟨hper, htime⟩).trans (if_neg (by rw [hskip']; exact Bool.false_ne_true))
    have htaken' (y : Nat) : s.xchkTimed.convTaken y = s.convTaken y := State.convTaken_congr rfl
  case waits =>
    exact congrArg Host.Outcome.next (hdue.trans (if_pos (by rw [htaken', htaken]; rfl)))
  case check =>
    obtain ⟨hboth, hat⟩ := State.startXchk_spec hskip'
    refine ⟨_, congrArg Host.Outcome.next (hdue.trans (if_neg (by rw [htaken', htaken', hfree, hfree']; decide))), hboth, hat, ?_⟩
    exact s.xchkTimed.regsBut_startXchk

end Sys2Proof.Machine
end


section
/-! PROOF. The domain sequencer (R379, R380): requests, ramps, power-good and its failure, gating, and O51. -/

namespace Sys2Proof.Machine

/-! ### Bits of PWR_DOM_REQ and PWR_DOM_ON -/

theorem bit_mod {i : Nat} (h : i < 32) (w : Nat) : bit (w % 2 ^ 32) i = bit w i := by
  have hsplit : (2 : Nat) ^ 32 = 2 ^ i * 2 ^ (32 - i) := by rw [← pow_add]; congr 1; omega
  have htwo : 2 ∣ 2 ^ (32 - i) := dvd_pow_self 2 (by omega)
  rw [bit, bit, hsplit, Nat.mod_mul_right_div_self, Nat.mod_mod_of_dvd _ htwo]

/-- The word without its bit `i`. -/
theorem bit_cleared (w i : Nat) : (w - if bit w i then 2 ^ i else 0) / 2 ^ i % 2 = 0 := by
  cases hbit : bit w i with
  | false =>
    have hzero : w / 2 ^ i % 2 ≠ 1 := by simpa [bit] using hbit
    rw [if_neg Bool.false_ne_true, Nat.sub_zero]
    omega
  | true =>
    have hone : w / 2 ^ i % 2 = 1 := by simpa [bit] using hbit
    have hle : 2 ^ i ≤ w := by
      by_contra hlt
      rw [Nat.div_eq_of_lt (Nat.not_le.1 hlt)] at hone
      exact absurd hone (by decide)
    have hrest : w - 2 ^ i + 2 ^ i = w := Nat.sub_add_cancel hle
    rw [← hrest, Nat.add_div_right _ (Nat.two_pow_pos i)] at hone
    rw [if_pos rfl]
    omega

/-- A bit that was put reads as it was put. -/
theorem bit_putBit (w i : Nat) (b : Bool) : bit (putBit w i b) i = b := by
  have hcleared := bit_cleared w i
  cases b with
  | false => exact beq_eq_false_iff_ne.2 (by rw [putBit, if_neg Bool.false_ne_true, hcleared]; decide)
  | true =>
    refine beq_iff_eq.2 ?_
    rw [putBit, if_pos rfl, Nat.add_div_right _ (Nat.two_pow_pos i)]
    omega

section
variable {s u : State} {d : Nat}

theorem State.domOn_setDomOn (s : State) (d : Nat) (b : Bool) : (s.setDomOn d b).domOn d = b := by
  rw [State.domOn, State.setDomOn, State.regNat_setNat_self, bit_mod (Nat.mod_lt _ (by decide)), bit_putBit]

theorem State.domReq_setDomReq (s : State) (d : Nat) (b : Bool) :
    bit ((s.setDomReq d b).regNat (R.pwrDomReq (d / 32))) (d % 32) = b := by
  rw [State.setDomReq, State.regNat_setNat_self, bit_mod (Nat.mod_lt _ (by decide)), bit_putBit]

theorem State.writesOnly_setDomReq (s : State) (d : Nat) (b : Bool) : s.WritesOnly (s.setDomReq d b) [R.pwrDomReq (d / 32)] :=
  (State.WritesOnly.refl s _).setNat (List.mem_singleton_self _) _

theorem State.writesOnly_setDomOn (s : State) (d : Nat) (b : Bool) : s.WritesOnly (s.setDomOn d b) [R.pwrDomOn (d / 32)] :=
  (State.WritesOnly.refl s _).setNat (List.mem_singleton_self _) _

theorem State.writesOnly_syncPwr (s : State) : s.WritesOnly s.syncPwr [R.pwrState] :=
  ((State.WritesOnly.refl s _).setF (List.mem_singleton_self _) _ _).setF (List.mem_singleton_self _) _ _

theorem pwrDom_ne (i j : Nat) : R.pwrDomOn i ≠ R.pwrDomReq j ∧ R.pwrDomOn i ≠ R.pwrState ∧ R.pwrDomReq i ≠ R.pwrState := by
  simp only [R.pwrDomOn, R.pwrDomReq, R.pwrState]; omega

theorem State.domOn_setDomReq (s : State) (d d' : Nat) (b : Bool) : (s.setDomReq d b).domOn d' = s.domOn d' :=
  State.domOn_congr_of_regsBut (s.writesOnly_setDomReq d b).regs (by simpa using (pwrDom_ne _ _).1)

theorem State.domOn_syncPwr (s : State) (d : Nat) : s.syncPwr.domOn d = s.domOn d :=
  State.domOn_congr_of_regsBut s.writesOnly_syncPwr.regs (by simpa using (pwrDom_ne _ 0).2.1)

theorem State.syncPwr_pwr (s : State) : s.syncPwr.pwr = s.pwr := s.writesOnly_syncPwr.keeps State.pwr fun _ => rfl

theorem State.setDomReq_pwr (s : State) (d : Nat) (b : Bool) : (s.setDomReq d b).pwr = s.pwr :=
  (s.writesOnly_setDomReq d b).keeps State.pwr fun _ => rfl

theorem State.domReq_congr (h : u.reg (R.pwrDomReq (d / 32)) = s.reg (R.pwrDomReq (d / 32))) :
    bit (u.regNat (R.pwrDomReq (d / 32))) (d % 32) = bit (s.regNat (R.pwrDomReq (d / 32))) (d % 32) := by
  rw [State.regNat, h, State.regNat]

/-! ### Wake requests (R380) -/

/-- The domain is in the queue. -/
def State.queued (s : State) (d : Nat) : State := { s with pwr := { s.pwr with queue := s.pwr.queue ++ [d] } }

theorem State.wakeReq_of_new (hoff : s.domOn d = false) (hqueue : d ∉ s.pwr.queue) (hramp : s.pwr.ramping.get? d = none) :
    s.wakeReq d = ((s.setDomReq d true).queued d).syncPwr := by
  have hcond : ¬ ((s.setDomReq d true).domOn d || (s.setDomReq d true).pwr.queue.contains d ||
      (((s.setDomReq d true).pwr.ramping.get? d).isSome && !(s.setDomReq d true).pwr.gateAfter.contains d)) = true := by
    rw [State.domOn_setDomReq, State.setDomReq_pwr, hoff, hramp]
    simpa using hqueue
  exact if_neg hcond

theorem State.wakeReq_of_on (hon : s.domOn d = true) : s.wakeReq d = s.setDomReq d true :=
  if_pos (by rw [State.domOn_setDomReq, hon]; simp)

/-! ### The head of the queue (R380) -/

/-- The weight on the inrush budget with domain `d` ramping too. -/
def State.rampWeight (s : State) (d : Nat) : Nat := (s.pwr.ramping.map (fun e => (domSpec e.1).1)).foldl (· + ·) (domSpec d).1

theorem State.wakeStart_of_head {rest : List Nat} (hqueue : s.pwr.queue = d :: rest) (hramp : s.pwr.ramping.get? d = none)
    (hsteps : s.pwr.steps = []) : s.wakeStart =
    if s.getF R.pwrInrushBudget F.pwrInrushBudgetValue < s.rampWeight d then s.raise R.pwrStatus F.pwrStatusInrushWait R.pwrInrEvt
    else if s.domStep d s.pwr.ramping then s.planStep (.wake d) else s.startRamp d := by
  unfold State.wakeStart
  rw [hqueue]
  exact if_neg (by rw [hramp, hsteps]; simp)

/-- The domain ramps from now on. -/
def State.rampStarted (s : State) (d : Nat) : State :=
  { s with pwr := { s.pwr with queue := s.pwr.queue.filter (· != d), ramping := s.pwr.ramping.put d s.timeUs } }

theorem State.startRamp_pwr (s : State) (d : Nat) : (s.startRamp d).pwr = (s.rampStarted d).pwr := State.syncPwr_pwr _

/-! ### Gate requests (R380) -/

/-- A gate request takes the domain off the queue. -/
def State.unqueued (s : State) (d : Nat) : State := { s with pwr := { s.pwr with queue := s.pwr.queue.filter (· != d) } }

/-- What a gate request does before it gates. -/
def State.gateAsked (s : State) (d : Nat) : State := ((s.setDomReq d false).unqueued d).syncPwr

theorem State.gateAsked_pwr (s : State) (d : Nat) : (s.gateAsked d).pwr = { s.pwr with queue := s.pwr.queue.filter (· != d) } := by
  rw [State.gateAsked, State.syncPwr_pwr, State.unqueued, State.setDomReq_pwr]

theorem State.regsBut_gateAsked (s : State) (d : Nat) : s.regsBut (s.gateAsked d) [R.pwrDomReq (d / 32), R.pwrState] :=
  ((s.writesOnly_setDomReq d false).regs.mono (by simp)).trans
    (.trans (u := (s.setDomReq d false).unqueued d) (fun _ _ => rfl) ((State.writesOnly_syncPwr _).regs.mono (by simp)))

theorem State.domOn_gateAsked (s : State) (d : Nat) : (s.gateAsked d).domOn d = s.domOn d :=
  State.domOn_congr_of_regsBut (s.regsBut_gateAsked d) (by simpa using ⟨(pwrDom_ne _ _).1, (pwrDom_ne _ 0).2.1⟩)

theorem State.domReq_gateAsked (s : State) (d : Nat) :
    bit ((s.gateAsked d).regNat (R.pwrDomReq (d / 32))) (d % 32) = false := by
  rw [State.gateAsked, State.domReq_congr ((State.writesOnly_syncPwr _).regs _ (by simpa using (pwrDom_ne _ 0).2.2))]
  exact s.domReq_setDomReq d false

/-- The domain is gated when its ramp ends. -/
def State.gatedLater (s : State) (d : Nat) : State := { s with pwr := { s.pwr with gateAfter := s.pwr.gateAfter ++ [d] } }

theorem State.gatedLater_pwr (s : State) (d : Nat) :
    (s.gatedLater d).pwr = { s.pwr with gateAfter := s.pwr.gateAfter ++ [d] } := rfl

theorem State.domOn_gatedLater (s : State) (d d' : Nat) : (s.gatedLater d).domOn d' = s.domOn d' := rfl

theorem State.gateReq_of_ramping {at_ : Nat} (hramp : s.pwr.ramping.get? d = some at_) (hgate : d ∉ s.pwr.gateAfter) :
    s.gateReq d = (s.gateAsked d).gatedLater d := by
  refine (if_pos (?_ : ((s.gateAsked d).pwr.ramping.get? d).isSome = true)).trans
    (if_neg (?_ : ¬ (s.gateAsked d).pwr.gateAfter.contains d = true))
  · rw [State.gateAsked_pwr, hramp]; rfl
  · rw [State.gateAsked_pwr]; simpa using hgate

theorem State.domStep_congr (hreg : u.reg R.pwrLoadstep = s.reg R.pwrLoadstep) (htime : u.timeUs = s.timeUs) (l : Tab Nat) :
    u.domStep d l = s.domStep d l := by
  rw [State.domStep, State.domStep, State.railStep, State.railStep, State.isSet_congr hreg, State.getF_congr hreg, htime]

theorem State.gateReq_of_on (hon : s.domOn d = true) (hramp : s.pwr.ramping.get? d = none)
    (hstep : s.domStep d s.pwr.gated = false) : s.gateReq d = (s.gateAsked d).gateNow d := by
  have hloadstep : (s.gateAsked d).reg R.pwrLoadstep = s.reg R.pwrLoadstep :=
    s.regsBut_gateAsked d _ (by
      simp only [List.mem_cons, List.not_mem_nil, or_false, not_or, R.pwrLoadstep, R.pwrDomReq, R.pwrState]; omega)
  have htime : (s.gateAsked d).timeUs = s.timeUs :=
    ((State.writesOnly_syncPwr _).keeps State.timeUs fun _ => rfl).trans
      ((s.writesOnly_setDomReq d false).keeps State.timeUs fun _ => rfl)
  refine (if_neg (?_ : ¬ ((s.gateAsked d).pwr.ramping.get? d).isSome = true)).trans
    ((if_neg (?_ : ¬ (!(s.gateAsked d).domOn d) = true)).trans
      (if_neg (?_ : ¬ (s.gateAsked d).domStep d (s.gateAsked d).pwr.gated = true)))
  · rw [State.gateAsked_pwr, hramp]; simp
  · rw [State.domOn_gateAsked, hon]; simp
  · rw [State.gateAsked_pwr, State.domStep_congr hloadstep htime, hstep]; simp

/-! ### What a domain's unit loses leaves the power sequencer alone -/

/-- The registers of the power page, the sequencer, and whether STANDBY is left are in `u` as in `s`. -/
structure State.PwrKept (s u : State) : Prop where
  regs : ∀ a, a / 0x10000 = 2 → u.reg a = s.reg a
  pwr : u.pwr = s.pwr
  leaving : u.sys.leaving = s.sys.leaving

namespace State.PwrKept
variable {w : State} {l : List Nat}

theorem refl (s : State) : s.PwrKept s := ⟨fun _ _ => rfl, rfl, rfl⟩

theorem trans (h : s.PwrKept u) (k : u.PwrKept w) : s.PwrKept w :=
  ⟨fun a ha => (k.regs a ha).trans (h.regs a ha), k.pwr.trans h.pwr, k.leaving.trans h.leaving⟩

theorem writes (h : s.WritesOnly u l) (hl : ∀ a ∈ l, a / 0x10000 ≠ 2) : s.PwrKept u where
  regs := fun a ha => h.regs a fun hmem => hl a hmem ha
  pwr := h.keeps State.pwr fun _ => rfl
  leaving := h.keeps (fun v => v.sys.leaving) fun _ => rfl

theorem report (s : State) (src code rep d : Nat) : s.PwrKept (s.report src code rep d) where
  regs := fun a ha => State.reg_report s src code rep d (by
    simp only [R.fltOpen, R.fltStatus, R.fltNewsrcEvt, R.fltOvfEvt]; omega)
  pwr := State.report_pwr s src code rep d
  leaving := by rw [State.report_sys]

theorem ite {p : Prop} {_ : Decidable p} (h : s.PwrKept u) (k : s.PwrKept w) : s.PwrKept (if p then u else w) := by
  split <;> assumption

theorem domOn (h : s.PwrKept u) (d : Nat) : u.domOn d = s.domOn d :=
  State.domOn_congr (h.regs _ (by simp only [R.pwrDomOn]; omega))

end State.PwrKept

theorem tile_page (c t : Nat) : R.tilState c t / 0x10000 ≠ 2 ∧ R.tilSummary c / 0x10000 ≠ 2 ∧ R.tilCtrl c t / 0x10000 ≠ 2 ∧
    R.tilThresh c / 0x10000 ≠ 2 := by
  simp only [R.tilState, R.tilSummary, R.tilCtrl, R.tilThresh]; omega

theorem State.pwrKept_tilesOff (s : State) (c st : Nat) : s.PwrKept (s.tilesOff c st) := by
  refine State.foldl_induction (P := fun u => s.PwrKept u) ⟨fun _ _ => rfl, rfl, rfl⟩ fun u hu t _ => hu.trans ?_
  have hwrites : u.WritesOnly ((u.setTileState c t st).setIssue (tileKey c t) false)
      [R.tilState c t, R.tilSummary c, R.tilCtrl (tileKey c t / 128) (tileKey c t % 128)] :=
    ((State.WritesOnly.refl u _).enterState (by simp) (by simp) st).setF (by simp) _ _
  refine .writes hwrites ?_
  simp only [List.mem_cons, List.not_mem_nil, or_false, forall_eq_or_imp, forall_eq]
  exact ⟨(tile_page c t).1, (tile_page c t).2.1, (tile_page _ _).2.2.1⟩

theorem State.pwrKept_compareXchk (s : State) : s.PwrKept s.compareXchk := by
  have hset (v : State) (f : Field) (n : Nat) : v.PwrKept (v.setF R.monXchkLast f n) :=
    .writes ((State.WritesOnly.refl v _).setF (List.mem_singleton_self _) f n) (by decide)
  have hraise (v : State) : v.PwrKept (v.raise R.monStatus F.monStatusXchkFail R.monXchkEvt) :=
    .writes (l := [R.monStatus, R.monXchkEvt]) ((State.WritesOnly.refl v _).raise (by simp) (by simp) _) (by decide)
  have hclear : s.PwrKept { s with mon := { s.mon with x0 := none, x1 := none } } := ⟨fun _ _ => rfl, rfl, rfl⟩
  unfold State.compareXchk
  split
  · split
    · dsimp only
      split
      · exact hclear.trans (((hset _ _ _).trans (hset _ _ _)).trans ((hraise _).trans (.report _ _ _ _ _)))
      · exact hclear.trans ((hset _ _ _).trans (hset _ _ _))
    · exact hclear
  · exact .refl s

theorem State.pwrKept_convBOff (s : State) : s.PwrKept s.convBOff := by
  have hgone : s.PwrKept { s with mon := { s.mon with conv1 := Conv.init, xWait := false, x1 := some none } } :=
    ⟨fun _ _ => rfl, rfl, rfl⟩
  exact hgone.trans (State.pwrKept_compareXchk _)

theorem State.pwrKept_losePower (s : State) : s.PwrKept s.losePower := by
  have hset (v : State) (f : Field) (n : Nat) : v.PwrKept (v.setF R.pstState f n) :=
    .writes ((State.WritesOnly.refl v _).setF (List.mem_singleton_self _) f n) (by decide)
  have hlost (v : State) : v.PwrKept { v with pst := { v.pst with run := none, queue := [], lastEnd := none, countDue := [] } } :=
    ⟨fun _ _ => rfl, rfl, rfl⟩
  unfold State.losePower
  refine .trans ?_ ((hlost _).trans ((hset _ _ _).trans (hset _ _ _)))
  split
  · exact .refl s
  · exact ⟨fun _ _ => rfl, rfl, rfl⟩

/-- The domain is switched off, before its unit loses what it held. -/
def State.domCut (s : State) (d : Nat) : State :=
  { s.setDomOn d false with pwr := { s.pwr with
    ramping := s.pwr.ramping.del d, queue := s.pwr.queue.filter (· != d), gateAfter := s.pwr.gateAfter.filter (· != d) } }

/-- A domain other than a port's that goes off leaves the rest of the sequencer alone. -/
theorem State.pwrKept_domOff (s : State) (hport : d < 52 ∨ 60 ≤ d) : (s.domCut d).PwrKept (s.domOff d) := by
  unfold State.domOff
  refine .ite (.ite (State.pwrKept_tilesOff _ _ _) (.ite ⟨fun _ _ => rfl, rfl, rfl⟩ (.refl _))) ?_
  rw [if_neg (by omega)]
  refine .ite ⟨fun _ _ => rfl, rfl, rfl⟩ (.ite ?_ (.ite (State.pwrKept_losePower _) (.ite ⟨fun _ _ => rfl, rfl, rfl⟩ (.refl _))))
  exact State.pwrKept_convBOff _

theorem State.domOn_domOff (s : State) (hport : d < 52 ∨ 60 ≤ d) : (s.domOff d).domOn d = false :=
  ((s.pwrKept_domOff hport).domOn d).trans (s.domOn_setDomOn d false)

/-- Of the power page, a domain that goes off writes PWR_DOM_ON alone. -/
theorem State.reg_domOff (s : State) (hport : d < 52 ∨ 60 ≤ d) {a : Nat} (hpage : a / 0x10000 = 2)
    (hon : a ≠ R.pwrDomOn (d / 32)) : (s.domOff d).reg a = s.reg a :=
  ((s.pwrKept_domOff hport).regs a hpage).trans ((s.writesOnly_setDomOn d false).regs a (by simpa using hon))

/-- A gated domain is off, and its request stays cleared. -/
theorem State.gateNow_spec (s : State) (hport : d < 52 ∨ 60 ≤ d) : (s.gateNow d).domOn d = false ∧
    (s.gateNow d).reg (R.pwrDomReq (d / 32)) = s.reg (R.pwrDomReq (d / 32)) := by
  refine ⟨(State.domOn_syncPwr _ d).trans (State.domOn_domOff _ hport), ?_⟩
  have hpage : R.pwrDomReq (d / 32) / 0x10000 = 2 := by simp only [R.pwrDomReq]; omega
  exact ((State.writesOnly_syncPwr _).regs _ (by simpa using (pwrDom_ne _ 0).2.2)).trans
    (State.reg_domOff _ hport hpage (pwrDom_ne _ _).1.symm)

/-! ### Power-good (R379) -/

theorem Tab.get?_filter_none {α : Type} (p : Nat → Bool) {k : Nat} (h : p k = false) (t : Tab α) :
    Tab.get? (t.filter fun e => p e.1) k = none := by
  induction t with
  | nil => rfl
  | cons e t ih =>
    obtain ⟨j, v⟩ := e
    by_cases hj : p j
    · have hne : k ≠ j := fun hk => by rw [hk, hj] at h; cases h
      simp only [List.filter_cons, hj, if_true, Tab.get?, hne, if_false, ih]
    · rw [List.filter_cons_of_neg (by simpa using hj), ih]

/-- The registers of a domain return to their reset values. -/
theorem State.reg_resetDomRegs (s : State) {a : Nat} (h : domainOf a = some d) :
    (s.resetDomRegs d).reg a = resetValue s.part a := by
  have hnone := Tab.get?_filter_none (fun k => domainOf k != some d) (k := a) (by rw [h]; simp) s.regs
  rw [State.reg, State.resetDomRegs, Tab.getD, hnone]
  rfl

theorem domainOf_power {a : Nat} (h : a / 0x10000 = 2) : domainOf a = none := by
  unfold domainOf
  rw [h]
  rfl

theorem State.pwrKept_tilesOn (s : State) (c : Nat) : s.PwrKept (s.tilesOn c) := by
  have hset (v : State) (a : Nat) (f : Field) (n : Nat) (ha : a / 0x10000 ≠ 2) : v.PwrKept (v.setF a f n) :=
    .writes ((State.WritesOnly.refl v _).setF (List.mem_singleton_self _) f n) (by simpa using ha)
  obtain ⟨-, hsum, -, hthresh⟩ := tile_page c 0
  refine State.foldl_induction (P := fun u => s.PwrKept u) ?_ fun u hu t _ => ?_
  · exact ((((hset _ _ _ _ hsum).trans (hset _ _ _ _ hsum)).trans (hset _ _ _ _ hsum)).trans (hset _ _ _ _ hthresh))
  · exact hu.trans ((hset _ _ _ _ (tile_page c t).1).trans (hset _ _ _ _ (tile_page c t).2.2.1))

theorem State.domOn_domWake (s : State) (d : Nat) : (s.domWake d).domOn d = true := by
  have hon := (s.resetDomRegs d).domOn_setDomOn d true
  unfold State.domWake
  dsimp only
  split
  · exact ((State.pwrKept_tilesOn _ _).domOn d).trans hon
  · exact hon

/-- The domain no longer ramps. -/
def State.ramped (s : State) (d : Nat) : State := { s with pwr := { s.pwr with ramping := s.pwr.ramping.del d } }

theorem State.rampEnd_of_ramping {at_ : Nat} (hramp : s.pwr.ramping.get? d = some at_) (hgate : d ∉ s.pwr.gateAfter) :
    s.rampEnd d = ((s.ramped d).domWake d).syncPwr := by
  have hpwr : (((s.ramped d).domWake d).syncPwr).pwr.gateAfter = s.pwr.gateAfter := by
    rw [State.syncPwr_pwr, State.domWake]
    have hset : (((s.ramped d).resetDomRegs d).setDomOn d true).pwr = (s.ramped d).pwr :=
      (State.writesOnly_setDomOn _ d true).keeps State.pwr fun _ => rfl
    split
    · rw [(State.pwrKept_tilesOn _ _).pwr, hset]; rfl
    · rw [hset]; rfl
  refine (if_neg (by rw [hramp]; simp)).trans (if_neg ?_)
  rw [← State.ramped, hpwr]
  simpa using hgate

/-- A domain whose power is good is on, and but for the analogue domain of a core its registers hold their reset values. -/
theorem State.rampEnd_spec {at_ : Nat} (hramp : s.pwr.ramping.get? d = some at_) (hgate : d ∉ s.pwr.gateAfter) :
    (s.rampEnd d).domOn d = true ∧
    ((48 ≤ d ∨ d % 3 ≠ 0) → ∀ a, domainOf a = some d → (s.rampEnd d).reg a = resetValue s.part a) := by
  rw [State.rampEnd_of_ramping hramp hgate]
  refine ⟨(State.domOn_syncPwr _ d).trans (State.domOn_domWake _ d), fun hplain a ha => ?_⟩
  have hpage : a / 0x10000 ≠ 2 := fun h => by rw [domainOf_power h] at ha; cases ha
  have hne : a ≠ R.pwrState ∧ a ≠ R.pwrDomOn (d / 32) := by
    constructor <;> rintro rfl <;> simp only [R.pwrState, R.pwrDomOn] at hpage <;> omega
  have hwake : (s.ramped d).domWake d = ((s.ramped d).resetDomRegs d).setDomOn d true := if_neg (by omega)
  rw [(State.writesOnly_syncPwr _).regs a (by simpa using hne.1), hwake,
    (State.writesOnly_setDomOn _ d true).regs a (by simpa using hne.2), State.reg_resetDomRegs _ ha]
  rfl

theorem State.standbyAwake_of_not_leaving (h : s.sys.leaving = false) : s.standbyAwake = s :=
  if_neg (by rw [h]; simp)

theorem State.awake_of_not_ramping (h : s.pwr.ramping.get? d = none) : s.awake d = s := if_pos (by rw [h]; rfl)

theorem State.awake_of_ramping {at_ : Nat} (hramp : s.pwr.ramping.get? d = some at_) (hgate : d ∉ s.pwr.gateAfter)
    (hleaving : s.sys.leaving = false) : s.awake d = ((s.rampEnd d).fwInit d).standbyAwake := by
  have hon := (State.rampEnd_spec hramp hgate).1
  simp only [State.awake, hramp, hleaving, hon, Option.isNone_some, Bool.false_and, Bool.false_eq_true, if_false, if_true]

/-! ### A ramp that fails (R379) -/

/-- The domain is switched off and its failure shown. -/
def State.rampFailed (s : State) (d : Nat) : State :=
  (((s.domOff d).syncPwr).raise R.pwrStatus F.pwrStatusDomFail R.pwrDomfEvt).report (Src.domain d) E.pwrDomainFail Rep.power

theorem State.rampFail_of_early {at_ : Nat} (hramp : s.pwr.ramping.get? d = some at_)
    (hearly : s.timeUs < at_ + 2 * (domSpec d).2.1) : s.rampFail d = (s, false) := by
  simp only [State.rampFail, hramp]
  exact if_neg (Nat.not_le.2 hearly)

theorem State.rampFail_of_late {at_ : Nat} (hramp : s.pwr.ramping.get? d = some at_)
    (hlate : at_ + 2 * (domSpec d).2.1 ≤ s.timeUs) : s.rampFail d = (s.rampFailed d, true) := by
  simp only [State.rampFail, hramp]
  exact if_pos hlate

theorem State.rampFailed_spec (s : State) (hport : 60 ≤ d) : (s.rampFailed d).domOn d = false ∧
    (s.rampFailed d).isSet R.pwrStatus F.pwrStatusDomFail = true ∧
    (s.rampFailed d).reg R.pwrDomfEvt = satInc (s.reg R.pwrDomfEvt) 1 ∧ (s.rampFailed d).pwr.ramping.get? d = none ∧
    (s.rampFailed d).sys.leaving = s.sys.leaving := by
  have hoff := s.pwrKept_domOff (d := d) (.inr hport)
  have hsync := (s.domOff d).writesOnly_syncPwr
  have hraise : (s.domOff d).syncPwr.WritesOnly ((s.domOff d).syncPwr.raise R.pwrStatus F.pwrStatusDomFail R.pwrDomfEvt)
    [R.pwrStatus, R.pwrDomfEvt] := (State.WritesOnly.refl _ _).raise (by simp) (by simp) _
  have hreport := State.PwrKept.report ((s.domOff d).syncPwr.raise R.pwrStatus F.pwrStatusDomFail R.pwrDomfEvt) (Src.domain d)
    E.pwrDomainFail Rep.power 0
  have hon (k : Nat) : R.pwrDomOn k ∉ [R.pwrStatus, R.pwrDomfEvt] := by
    simp only [List.mem_cons, List.not_mem_nil, or_false, not_or, R.pwrDomOn, R.pwrStatus, R.pwrDomfEvt]; omega
  have hevt : R.pwrDomfEvt ≠ R.pwrDomOn (d / 32) := by simp only [R.pwrDomfEvt, R.pwrDomOn]; omega
  have hpwr : (s.rampFailed d).pwr = (s.domCut d).pwr :=
    (hreport.pwr.trans (hraise.keeps State.pwr fun _ => rfl)).trans ((State.syncPwr_pwr _).trans hoff.pwr)
  refine ⟨?_, ?_, ?_, ?_, ?_⟩
  · exact (hreport.domOn d).trans ((State.domOn_congr (hraise.regs _ (hon _))).trans ((State.domOn_syncPwr _ d).trans
      (s.domOn_domOff (.inr hport))))
  · exact (State.isSet_congr (hreport.regs _ (by decide)) _).trans (State.isSet_raise_self _ _ _ _ (by decide) (by decide) (by decide))
  · refine (hreport.regs _ (by decide)).trans ((State.reg_raise_evt _ _ _ _ (by decide)).trans ?_)
    rw [hsync.regs _ (by decide), State.reg_domOff s (.inr hport) (by decide) hevt]
  · rw [hpwr]; exact Tab.get?_del_self _ _
  · exact hreport.leaving.trans ((hraise.keeps (fun v => v.sys.leaving) fun _ => rfl).trans
      ((hsync.keeps (fun v => v.sys.leaving) fun _ => rfl).trans hoff.leaving))

end

/-- Settles O51: requests, the head of the queue, gating, power-good and its failure in the cases of the statement. -/
theorem domainSequencer : Obligations.DomainSequencer := by
  intro s d
  refine ⟨fun hoff hqueue hramp => ?request, fun hon => ?awake, fun hon hramp hstep hport => ?gate, fun at_ hramp hgate => ?gateLater,
    fun rest hqueue hramp hsteps => ⟨fun hfits hstep => ?ramps, fun hover => ?waits⟩, fun hramp => ?notRamping,
    fun at_ hramp hgate hleaving => ?good, fun at_ hramp hleaving => ⟨fun hearly => ?early, fun hlate hport => ?fails⟩⟩
  case request =>
    have hsync := State.writesOnly_syncPwr ((s.setDomReq d true).queued d)
    refine ⟨_, congrArg Host.Outcome.next (State.wakeReq_of_new hoff hqueue hramp), ?_, ?_, ?_⟩
    · rw [State.syncPwr_pwr, State.queued, State.setDomReq_pwr]
    · rw [State.domReq_congr (hsync.regs _ (by simpa using (pwrDom_ne _ 0).2.2))]
      exact s.domReq_setDomReq d true
    · exact ((s.writesOnly_setDomReq d true).regs.mono (by simp)).trans
        (.trans (u := (s.setDomReq d true).queued d) (fun _ _ => rfl) (hsync.regs.mono (by simp)))
  case awake =>
    exact ⟨_, congrArg Host.Outcome.next (State.wakeReq_of_on hon), s.domReq_setDomReq d true,
      (s.writesOnly_setDomReq d true).regs, (s.writesOnly_setDomReq d true).only⟩
  case gate =>
    obtain ⟨hoff, hreq⟩ := (s.gateAsked d).gateNow_spec hport
    exact ⟨_, congrArg Host.Outcome.next (State.gateReq_of_on hon hramp hstep), hoff,
      (State.domReq_congr hreq).trans (s.domReq_gateAsked d)⟩
  case gateLater =>
    refine ⟨_, congrArg Host.Outcome.next (State.gateReq_of_ramping hramp hgate), ?_, ?_, ?_⟩
    · rw [State.gatedLater_pwr, State.gateAsked_pwr]
    · rw [State.domOn_gatedLater, State.domOn_gateAsked]
    · rw [State.gatedLater_pwr, State.gateAsked_pwr]
  case ramps =>
    have hstart := ((State.wakeStart_of_head hqueue hramp hsteps).trans (if_neg (Nat.not_lt.2 hfits))).trans
      (if_neg (by rw [hstep]; exact Bool.false_ne_true))
    refine ⟨_, congrArg Host.Outcome.next hstart, ?_, ?_, ?_⟩
    · rw [State.startRamp_pwr]; exact Tab.get?_put_self _ _ _
    · rw [State.startRamp_pwr]; simp [State.rampStarted]
    · exact .trans (u := s.rampStarted d) (fun _ _ => rfl) (State.writesOnly_syncPwr _).regs
  case waits =>
    have hraise : s.WritesOnly (s.raise R.pwrStatus F.pwrStatusInrushWait R.pwrInrEvt) [R.pwrStatus, R.pwrInrEvt] :=
      (State.WritesOnly.refl _ _).raise (by simp) (by simp) _
    exact ⟨_, congrArg Host.Outcome.next ((State.wakeStart_of_head hqueue hramp hsteps).trans (if_pos hover)),
      State.isSet_raise_self _ _ _ _ (by decide) (by decide) (by decide), State.reg_raise_evt _ _ _ _ (by decide),
      hraise.regs, hraise.only⟩
  case notRamping => exact congrArg Host.Outcome.next (State.awake_of_not_ramping hramp)
  case good =>
    obtain ⟨hon, hreset⟩ := State.rampEnd_spec hramp hgate
    exact ⟨congrArg Host.Outcome.next (State.awake_of_ramping hramp hgate hleaving), hon, hreset⟩
  case early =>
    have hfail := State.rampFail_of_early hramp hearly
    show execDomainWakeFail d s = _
    unfold execDomainWakeFail
    rw [hfail]
  case fails =>
    have hfail := State.rampFail_of_late hramp hlate
    obtain ⟨hoff, hset, hcount, hgone, hleave⟩ := s.rampFailed_spec hport
    refine ⟨s.rampFailed d, ?_, hoff, hset, hcount, hgone⟩
    show execDomainWakeFail d s = _
    unfold execDomainWakeFail
    rw [hfail]
    exact congrArg Host.Outcome.next ((if_neg (by omega)).trans (State.standbyAwake_of_not_leaving (hleave.trans hleaving)))

end Sys2Proof.Machine
end


section
/-! PROOF. The load-step handshake (R386): planned steps, LOAD_STEP_REQ and LOAD_STEP_ACK, and O52. -/

namespace Sys2Proof.Machine

section
variable {s u : State}

/-! ### disp_en -/

theorem State.laneStarted_congr {l : List Nat} (h : s.regsBut u l) (hl : ∀ x, R.dspCxState x ∉ l) : u.laneStarted = s.laneStarted := by
  simp only [State.laneStarted, State.ctxState, State.getF_congr (h _ (hl _))]

/-- DSP_CTRL.disp_en is set. -/
def State.dispEnabled (s : State) : State := s.setF R.dspCtrl F.dspCtrlDispEn 1

theorem State.writesOnly_dispEnabled (s : State) : s.WritesOnly s.dispEnabled [R.dspCtrl] :=
  (State.WritesOnly.refl s _).setF (List.mem_singleton_self _) _ _

theorem State.isSet_dispEnabled (s : State) : s.dispEnabled.isSet R.dspCtrl F.dspCtrlDispEn = true := by
  rw [State.dispEnabled, State.isSet_setF_self _ _ _ _ (by decide)]
  decide

theorem dspCxState_ne_dspCtrl (x : Nat) : R.dspCxState x ∉ [R.dspCtrl] := by
  simp only [List.mem_singleton, R.dspCxState, R.dspCtrl]; omega

theorem State.makeStep_dispEn (h : s.laneStarted = false) : s.makeStep .dispEn = s.dispEnabled := by
  have hlane : s.dispEnabled.laneStarted = false :=
    (State.laneStarted_congr s.writesOnly_dispEnabled.regs dspCxState_ne_dspCtrl).trans h
  exact if_neg (by rw [← State.dispEnabled, hlane]; exact Bool.false_ne_true)

/-! ### LOAD_STEP_REQ -/

/-- LOAD_STEP_REQ is asserted. -/
def State.reqAsserted (s : State) : State :=
  ({ s with pwr := { s.pwr with reqAt := some s.timeUs, madeAt := none } } : State).emit (.pin "LOAD_STEP_REQ" true)

theorem State.tryReq_of_waiting (hsteps : s.pwr.steps ≠ []) (hack : s.pwr.ack = false) (hreq : s.pwr.reqAt = none) :
    s.tryReq = s.reqAsserted :=
  if_pos (by simp [hsteps, hack, hreq])

theorem State.tryReq_of_no_step (hsteps : s.pwr.steps = []) : s.tryReq = s := if_neg (by simp [hsteps])

/-- A step joins those that wait for the handshake. -/
def State.stepPlanned (s : State) (p : PlanStep) : State := { s with pwr := { s.pwr with steps := s.pwr.steps ++ [p] } }

theorem State.planStep_of_new {p : PlanStep} (h : p ∉ s.pwr.steps) : s.planStep p = (s.stepPlanned p).tryReq :=
  if_neg (by simpa using h)

/-! ### The step is made -/

/-- The handshake's step is taken off the list. -/
def State.stepTaken (s : State) : State := { s with pwr := { s.pwr with steps := [], madeAt := some s.timeUs } }

theorem State.makeSteps_of_dispEn (hsteps : s.pwr.steps = [.dispEn]) (hlane : s.laneStarted = false) :
    s.makeSteps = s.stepTaken.dispEnabled := by
  unfold State.makeSteps
  rw [hsteps]
  exact State.makeStep_dispEn (s := s.stepTaken) hlane

theorem State.dispEnabled_pwr (s : State) : s.dispEnabled.pwr = s.pwr := s.writesOnly_dispEnabled.keeps State.pwr fun _ => rfl

/-- LOAD_STEP_ACK is asserted. -/
def State.acked (s : State) : State := { s with pwr := { s.pwr with ack := true } }

theorem State.loadAck_of_idle (hreq : s.pwr.reqAt = none) : s.loadAck = s.acked :=
  if_neg (by rw [hreq]; simp)

theorem State.loadAck_of_req {at_ : Nat} (hreq : s.pwr.reqAt = some at_) (hmade : s.pwr.madeAt = none) :
    s.loadAck = s.acked.makeSteps :=
  if_pos (by rw [hreq, hmade]; rfl)

/-- The slew guard is cut. -/
def State.slewCut (s : State) : State := { s with pwr := { s.pwr with cutAt := some s.timeUs } }

/-- The step was made without LOAD_STEP_ACK. -/
def State.noackShown (s : State) : State :=
  (s.raise R.pwrStatus F.pwrStatusNoack R.pwrNoackEvt).report Src.device E.pwrLoadstepNoack Rep.power

section
variable {at_ : Nat} (hreq : s.pwr.reqAt = some at_)
include hreq

theorem State.loadTimeout_of_late (hmade : s.pwr.madeAt = none) (hlate : at_ + s.getF R.pwrLoadstep F.pwrLoadstepTimeout ≤ s.timeUs) :
    s.loadTimeout = s.makeSteps.slewCut.noackShown := by
  simp only [State.loadTimeout, hreq]
  exact if_pos ⟨by rw [hmade]; rfl, hlate⟩

theorem State.loadTimeout_of_early (hearly : s.timeUs < at_ + s.getF R.pwrLoadstep F.pwrLoadstepTimeout) : s.loadTimeout = s := by
  simp only [State.loadTimeout, hreq]
  exact if_neg fun h => by omega

theorem State.loadReqEnd_of_due {made : Nat} (hmade : s.pwr.madeAt = some made) (hdue : made + 100 ≤ s.timeUs)
    (hsteps : s.pwr.steps = []) : s.loadReqEnd =
      { s with pwr := { s.pwr with reqAt := none, madeAt := none }, wire := .pin "LOAD_STEP_REQ" false :: s.wire } := by
  simp only [State.loadReqEnd, hmade]
  refine (if_pos ⟨by rw [hreq]; rfl, hdue⟩).trans ?_
  exact State.tryReq_of_no_step (s := ({ s with pwr := { s.pwr with reqAt := none, madeAt := none } } : State).emit
    (.pin "LOAD_STEP_REQ" false)) hsteps

end

theorem State.noackShown_spec (s : State) : s.noackShown.isSet R.pwrStatus F.pwrStatusNoack = true ∧
    s.noackShown.reg R.pwrNoackEvt = satInc (s.reg R.pwrNoackEvt) 1 ∧ s.noackShown.pwr = s.pwr ∧
    s.noackShown.reg R.dspCtrl = s.reg R.dspCtrl := by
  have hraise : s.WritesOnly (s.raise R.pwrStatus F.pwrStatusNoack R.pwrNoackEvt) [R.pwrStatus, R.pwrNoackEvt] :=
    (State.WritesOnly.refl _ _).raise (by simp) (by simp) _
  have hreport (a : Nat) (ha : a ≠ R.fltOpen ∧ a ≠ R.fltStatus ∧ a ≠ R.fltNewsrcEvt ∧ a ≠ R.fltOvfEvt) :
      s.noackShown.reg a = (s.raise R.pwrStatus F.pwrStatusNoack R.pwrNoackEvt).reg a := State.reg_report _ _ _ _ _ ha
  refine ⟨?_, ?_, ?_, ?_⟩
  · rw [State.isSet_congr (hreport _ (by decide))]
    exact State.isSet_raise_self _ _ _ _ (by decide) (by decide) (by decide)
  · rw [hreport _ (by decide)]
    exact State.reg_raise_evt _ _ _ _ (by decide)
  · exact (State.report_pwr _ _ _ _ _).trans (hraise.keeps State.pwr fun _ => rfl)
  · exact (hreport _ (by decide)).trans (hraise.regs _ (by decide))

/-! ### The slew guard recovers -/

theorem State.slewBack_of_late {at_ : Nat} (hcut : s.pwr.cutAt = some at_) (h : at_ + 1000 ≤ s.timeUs) :
    s.slewBack = { s with pwr := { s.pwr with cutAt := none } } := by
  simp only [State.slewBack, hcut]
  exact if_pos h

theorem State.slewBack_of_early {at_ : Nat} (hcut : s.pwr.cutAt = some at_) (h : s.timeUs < at_ + 1000) : s.slewBack = s := by
  simp only [State.slewBack, hcut]
  exact if_neg (Nat.not_le.2 h)

end

/-- Settles O52: each row of the handshake in the cases of the statement. -/
theorem loadStepHandshake : Obligations.LoadStepHandshake := by
  intro s
  refine ⟨fun hoff => ?off, fun hon hsmall hlane => ?small, fun hon hbig hnew hack hreq => ?planned, fun hreq => ?ackIdle,
    fun at_ hreq hmade hsteps hlane => ⟨?made, fun hlate => ?late, fun hearly => ?early⟩,
    fun at_ made hreq hmade hdue hsteps => ?reqEnd, fun hsteps => ?nackIdle, fun hsteps hreq => ?nackWaiting,
    fun at_ hcut => ⟨fun hlate => ?recovers, fun hearly => ?stillCut⟩⟩
  case off => exact congrArg Host.Outcome.next (if_neg (by rw [hoff]; exact Bool.false_ne_true))
  case small =>
    have hmade : s.doStep .dispEn = s.dispEnabled :=
      (if_neg (by rw [hsmall]; exact Bool.false_ne_true)).trans (State.makeStep_dispEn hlane)
    exact ⟨_, congrArg Host.Outcome.next ((if_pos hon).trans hmade), s.isSet_dispEnabled, s.writesOnly_dispEnabled.regs,
      s.writesOnly_dispEnabled.only⟩
  case planned =>
    have hplan : s.doStep .dispEn = (s.stepPlanned .dispEn).reqAsserted :=
      (if_pos hbig).trans ((State.planStep_of_new hnew).trans
        (State.tryReq_of_waiting (s := s.stepPlanned .dispEn) (List.append_ne_nil_of_right_ne_nil _ (List.cons_ne_nil _ _)) hack hreq))
    exact ⟨_, congrArg Host.Outcome.next ((if_pos hon).trans hplan), rfl, rfl, rfl, rfl⟩
  case ackIdle => exact congrArg Host.Outcome.next (State.loadAck_of_idle hreq)
  case made =>
    have hack : s.loadAck = s.acked.stepTaken.dispEnabled :=
      (State.loadAck_of_req hreq hmade).trans (State.makeSteps_of_dispEn (s := s.acked) hsteps hlane)
    exact ⟨_, congrArg Host.Outcome.next hack, State.dispEnabled_pwr _, State.isSet_dispEnabled _,
      .trans (u := s.acked.stepTaken) (fun _ _ => rfl) (State.writesOnly_dispEnabled _).regs⟩
  case late =>
    have hsteps' := State.makeSteps_of_dispEn hsteps hlane
    have hlate' := State.loadTimeout_of_late hreq hmade hlate
    obtain ⟨hset, hcount, hpwr, hdisp⟩ := s.makeSteps.slewCut.noackShown_spec
    have hregs (a : Nat) : s.makeSteps.slewCut.reg a = s.makeSteps.reg a := rfl
    refine ⟨_, congrArg Host.Outcome.next hlate', ?_, ?_, hset, ?_⟩
    · rw [hpwr, State.slewCut, hsteps', State.dispEnabled_pwr, s.stepTaken.writesOnly_dispEnabled.keeps State.timeUs fun _ => rfl]
      rfl
    · rw [State.isSet_congr hdisp, State.isSet_congr (hregs _), hsteps', State.isSet_dispEnabled]
    · rw [hcount, hregs, hsteps', s.stepTaken.writesOnly_dispEnabled.regs _ (by decide)]
      rfl
  case early => exact congrArg Host.Outcome.next (State.loadTimeout_of_early hreq hearly)
  case reqEnd => exact congrArg Host.Outcome.next (State.loadReqEnd_of_due hreq hmade hdue hsteps)
  case nackIdle =>
    exact congrArg Host.Outcome.next (State.tryReq_of_no_step (s := { s with pwr := { s.pwr with ack := false } }) hsteps)
  case nackWaiting =>
    exact ⟨_, congrArg Host.Outcome.next (State.tryReq_of_waiting (s := { s with pwr := { s.pwr with ack := false } }) hsteps rfl hreq),
      rfl, rfl, rfl, rfl⟩
  case recovers => exact congrArg Host.Outcome.next (State.slewBack_of_late hcut hlate)
  case stillCut => exact congrArg Host.Outcome.next (State.slewBack_of_early hcut hearly)

end Sys2Proof.Machine
end


section
/-! PROOF. The thermal levels (R390, R391): a state that O53 does not exclude. -/

namespace Sys2Proof.Machine

/-- The reset state with thermal level 4, which no run reaches: the model holds the level as a number, and THM_LEVEL.level is
a field of two bits. -/
def thermalLevelFour : State := { State.reset with thm := { State.reset.thm with level := 4 } }

/-- A mean above PWR_LIMIT in that state applies level 4, of which THM_LEVEL.level keeps 0. -/
theorem powerMean_thermalLevelFour :
    (thermalLevelFour.powerMean 60000).getF R.thmLevel F.thmLevelLevel = 0 := by decide +kernel

theorem exceeds_thermalLevelFour :
    100 * thermalLevelFour.getF R.pwrLimit F.pwrLimitValue < (60000 : BitVec 16).toNat ∧
      thermalLevelFour.isSet R.thmLevel F.thmLevelPower = false := by decide +kernel

/-- Refutes O53: with thermal level 4 a mean of 600 W leaves THM_LEVEL.level at 0, not at 1 or more. -/
theorem not_thermalThrottle : ¬ Obligations.ThermalThrottle := by
  unfold Obligations.ThermalThrottle
  intro h
  obtain ⟨-, -, -, -, hmean, -⟩ := h thermalLevelFour
  obtain ⟨hlimit, hpower⟩ := exceeds_thermalLevelFour
  obtain ⟨u, hrun, -, -, hlevel, -, -⟩ := (hmean 60000).2 hlimit hpower
  have hu : thermalLevelFour.powerMean 60000 = u := Host.Outcome.next.inj hrun
  rw [← hu, powerMean_thermalLevelFour] at hlevel
  exact absurd hlevel (by decide)

end Sys2Proof.Machine
end


section
/-! PROOF. Records, log pages and the parameter store (R415 to R419, R424, R461 to R468), and O59. -/

namespace Sys2Proof.Machine

section
variable {s : State}

/-- A status bit that is raised and reported. -/
theorem State.raise_report_spec (s : State) {a e : Nat} {f : Field} (src code rep d : Nat) (hne : a ≠ e)
    (hf : f.lo + f.width ≤ 32) (hone : 1 % 2 ^ f.width = 1)
    (ha : a ≠ R.fltOpen ∧ a ≠ R.fltStatus ∧ a ≠ R.fltNewsrcEvt ∧ a ≠ R.fltOvfEvt)
    (he : e ≠ R.fltOpen ∧ e ≠ R.fltStatus ∧ e ≠ R.fltNewsrcEvt ∧ e ≠ R.fltOvfEvt) :
    ((s.raise a f e).report src code rep d).isSet a f = true ∧
      ((s.raise a f e).report src code rep d).reg e = satInc (s.reg e) 1 :=
  ⟨(State.isSet_report _ _ _ _ _ f ha).trans (State.isSet_raise_self _ _ _ _ hne hf hone),
    (State.reg_report _ _ _ _ _ he).trans (State.reg_raise_evt _ _ _ _ hne.symm)⟩

/-! ### Reports -/

theorem bumpOpen_of_fresh {src code now : Nat} : {rs : List Rec} → (∀ r ∈ rs, ¬ (r.src = src ∧ r.code = code)) →
    bumpOpen src code now rs = none
  | [], _ => rfl
  | r :: rs, h => by
    rw [bumpOpen, if_neg (h r (List.mem_cons_self ..)), bumpOpen_of_fresh fun x hx => h x (List.mem_cons_of_mem _ hx)]
    rfl

theorem State.writesOnly_syncOpen (s : State) : s.WritesOnly s.syncOpen [R.fltOpen] :=
  ((State.WritesOnly.refl s _).setF (List.mem_singleton_self _) _ _).setF (List.mem_singleton_self _) _ _

/-- The state with one more open record. -/
def State.recordOpened (s : State) (r : Rec) : State := { s with flt := { s.flt with openRecs := s.flt.openRecs ++ [r] } }

theorem State.report_of_fresh {src code rep d : Nat} (hnew : ∀ r ∈ s.flt.openRecs, ¬ (r.src = src ∧ r.code = code))
    (hroom : s.flt.openRecs.length < 256) : s.report src code rep d =
      (s.recordOpened ⟨src, code, rep, d % 2 ^ 32, 1, s.timeUs, s.timeUs, false⟩).syncOpen.raise R.fltStatus F.fltStatusNewSrc
        R.fltNewsrcEvt := by
  rw [State.report, bumpOpen_of_fresh hnew]
  exact if_pos hroom

theorem State.report_of_first {src code rep d : Nat} {r : Rec} {rs : List Rec} (hopen : s.flt.openRecs = r :: rs)
    (hsrc : r.src = src) (hcode : r.code = code) :
    s.report src code rep d = { s with flt := { s.flt with openRecs := bumpRec s.timeUs r :: rs } } := by
  rw [State.report, hopen, bumpOpen, if_pos ⟨hsrc, hcode⟩]

/-! ### Closed records -/

theorem State.writesOnly_syncClosed (s : State) : s.WritesOnly s.syncClosed [R.fltRecCtrl] :=
  (State.WritesOnly.refl s _).setF (List.mem_singleton_self _) _ _

theorem State.getF_syncClosed (hlen : s.flt.closed.length ≤ 64) :
    s.syncClosed.getF R.fltRecCtrl F.fltRecCtrlAvail = s.flt.closed.length := by
  rw [State.syncClosed, State.getF_setF_self _ _ _ _ (by decide)]
  exact Nat.mod_eq_of_lt (Nat.lt_of_le_of_lt hlen (by decide))

/-- The state whose open records are `rs`. -/
def State.recordsLeft (s : State) (rs : List Rec) : State := { s with flt := { s.flt with openRecs := rs } }

/-- The state with one more closed record. -/
def State.recordClosed (s : State) (r : Rec) : State := { s with flt := { s.flt with closed := s.flt.closed ++ [r] } }

theorem State.flt_recordClosed (s : State) (r : Rec) : (s.recordClosed r).flt.openRecs = s.flt.openRecs ∧
    (s.recordClosed r).flt.closed = s.flt.closed ++ [r] := ⟨rfl, rfl⟩

theorem State.flt_recordsLeft (s : State) (rs : List Rec) : (s.recordsLeft rs).flt.openRecs = rs ∧
    (s.recordsLeft rs).flt.closed = s.flt.closed := ⟨rfl, rfl⟩

theorem State.regsBut_recordsLeft (s : State) (rs : List Rec) (l : List Nat) : s.regsBut (s.recordsLeft rs) l := fun _ _ => rfl

theorem State.regsBut_recordClosed (s : State) (r : Rec) (l : List Nat) : s.regsBut (s.recordClosed r) l := fun _ _ => rfl

theorem State.closeRecord_of_due {r : Rec} {rs : List Rec} (hopen : s.flt.openRecs = r :: rs) (hroom : s.flt.closed.length < 64)
    (hdown : s.sys.ccUp = false) (hdue : r.first + 10000 ≤ s.timeUs) :
    s.closeRecord = ((s.recordsLeft rs).syncOpen.recordClosed { r with entry := false }).syncClosed := by
  have hput (v : State) (hv : v.sys.ccUp = false) : v.putClosed r = (v.recordClosed { r with entry := false }).syncClosed := by
    simp only [State.putClosed, hv]
    rfl
  have hup : (s.recordsLeft rs).syncOpen.sys.ccUp = false := (congrArg SysUnit.ccUp (State.syncOpen_sys _)).trans hdown
  rw [← hput _ hup, State.closeRecord, if_neg (Nat.not_le.2 hroom), hopen, List.find?_cons_of_pos (by simpa using hdue)]
  dsimp only
  rw [List.erase_cons_head]
  rfl

/-! ### Page writes -/

theorem State.writesOnly_syncQueue (s : State) : s.WritesOnly s.syncQueue [R.pstState] :=
  (State.WritesOnly.refl s _).setF (List.mem_singleton_self _) _ _

/-- The store with page `p` being written. -/
def State.writeBegun (s : State) (j : PJob) (p : Nat) (d : Bytes) (left : List (Nat × Bytes)) : State :=
  { s with pst := { s.pst with
      queue := [],
      pages := s.pst.pages.put p ⟨false, ((s.pst.pages.get? p).map (·.seq)).getD 0, ((s.pst.pages.get? p).map (·.data)).getD (leBytes 256 0)⟩,
      run := some ⟨{ j with left := left }, p, d, s.pst.pages.get? p, s.timeUs, false⟩ } }

/-- PST_STATE while page `p` is written. -/
def State.busyShown (s : State) (p : Nat) : State := (s.syncQueue.setF R.pstState F.pstStateBusy 1).setF R.pstState F.pstStatePage p

theorem State.writesOnly_busyShown (s : State) (p : Nat) : s.WritesOnly (s.busyShown p) [R.pstState] :=
  (s.writesOnly_syncQueue.setF (List.mem_singleton_self _) _ _).setF (List.mem_singleton_self _) _ _

theorem State.busyShown_spec (s : State) {p : Nat} (hp : p < 2048) :
    (s.busyShown p).isSet R.pstState F.pstStateBusy = true ∧ (s.busyShown p).getF R.pstState F.pstStatePage = p := by
  refine ⟨?_, ?_⟩
  · rw [State.busyShown, State.isSet_setF_field _ _ _ _ _ (by decide) (by decide), State.isSet_setF_self _ _ _ _ (by decide)]
    decide
  · rw [State.busyShown, State.getF_setF_self _ _ _ _ (by decide)]
    exact Nat.mod_eq_of_lt hp

theorem State.startWrite_of_begun {j : PJob} {p : Nat} {d : Bytes} {left : List (Nat × Bytes)} (hrun : s.pst.run = none)
    (hend : s.pst.lastEnd = none) (hqueue : s.pst.queue = [j]) (hbegun : j.begun = true) (hleft : j.left = (p, d) :: left) :
    s.startWrite = (s.writeBegun j p d left).busyShown p := by
  have hjob : s.beginJob j = j := if_pos hbegun
  simp only [State.startWrite, hrun, hend, hqueue, pickJob, hjob, hleft]
  rw [if_neg (by decide)]
  simp only [State.writeBegun, State.busyShown, hend]

/-- The page write of `r` has passed its read-back. -/
def State.writePassed (s : State) (r : PRun) : State :=
  { s with pst := { s.pst with
      pages := s.pst.pages.put r.page ⟨true, r.job.seq, r.data⟩, run := none, lastEnd := some s.timeUs } }

/-- PST_STATE and PST_WRITES at the end of a page write. -/
def State.writeCounted (s : State) : State := (s.setF R.pstState F.pstStateBusy 0).count R.pstWrites

theorem State.writesOnly_writeCounted (s : State) : s.WritesOnly s.writeCounted [R.pstState, R.pstWrites] :=
  ((State.WritesOnly.refl s _).setF (by simp) _ _).count (by simp) _

theorem State.writeCounted_spec (s : State) : s.writeCounted.isSet R.pstState F.pstStateBusy = false ∧
    s.writeCounted.reg R.pstWrites = satInc (s.reg R.pstWrites) 1 := by
  refine ⟨?_, ?_⟩
  · rw [State.writeCounted, State.isSet_congr (State.reg_count_ne (a := R.pstWrites) _ (by decide)), State.isSet_setF_self _ _ _ _ (by decide)]
    decide
  · rw [State.writeCounted, State.reg_count_self, State.reg_setF_ne _ _ _ (by decide)]

/-- The page write of `r` is made once more. -/
def State.writeAgain (s : State) (r : PRun) : State :=
  { s with pst := { s.pst with run := some { r with retried := true, start := s.timeUs } } }

/-- The page write has failed twice; the page stays TORN. -/
def State.writeLeft (s : State) : State := { s with pst := { s.pst with run := none, lastEnd := some s.timeUs } }

/-- A failed page write is shown and reported. -/
def State.writeFailShown (s : State) (page : Nat) : State :=
  ((s.setF R.pstState F.pstStateBusy 0).raise R.pstStatus F.pstStatusWriteFail R.pstWfailEvt).report Src.device E.pstWriteFail
    Rep.store page

theorem State.writeFailShown_spec (s : State) (page : Nat) :
    (s.writeFailShown page).pst = s.pst ∧ (s.writeFailShown page).isSet R.pstStatus F.pstStatusWriteFail = true ∧
      (s.writeFailShown page).reg R.pstWfailEvt = satInc (s.reg R.pstWfailEvt) 1 := by
  obtain ⟨hset, hcount⟩ := State.raise_report_spec (s.setF R.pstState F.pstStateBusy 0) (f := F.pstStatusWriteFail)
    Src.device E.pstWriteFail Rep.store page (a := R.pstStatus) (e := R.pstWfailEvt) (by decide) (by decide) (by decide)
    (by decide) (by decide)
  exact ⟨(State.report_pst _ _ _ _ _).trans ((State.raise_pst _ _ _ _).trans (State.setF_pst _ _ _ _)), hset,
    hcount.trans (congrArg (satInc · 1) (State.reg_setF_ne _ _ _ (by decide)))⟩

/-- One more hour of powered time has passed. -/
def State.hourPassed (s : State) : State := { s with pst := { s.pst with hourAt := s.pst.hourAt + 3600000000 } }

section
variable {r : PRun} (hrun : s.pst.run = some r)
include hrun

theorem State.pageWriteEnd_of_cache {bs : Bytes} (hkind : r.job.kind = .cache bs) (hleft : r.job.left = []) :
    s.pageWriteEnd true = (s.writePassed r).writeCounted := by
  have hend : s.endWrite true = ((s.writePassed r).writeCounted, .done (.cache bs)) := by
    simp only [State.endWrite, hrun, hleft, hkind]
    rfl
  rw [State.pageWriteEnd, hend]
  rfl

theorem State.pageWriteEnd_of_first (hfirst : r.retried = false) : s.pageWriteEnd false = s.writeAgain r := by
  have hend : s.endWrite false = (s.writeAgain r, .more) := by
    simp only [State.endWrite, hrun, hfirst]
    rfl
  rw [State.pageWriteEnd, hend]

theorem State.pageWriteEnd_of_second {bs : Bytes} (hsecond : r.retried = true) (hkind : r.job.kind = .cache bs) :
    s.pageWriteEnd false = s.writeLeft.writeFailShown r.page := by
  have hend : s.endWrite false = (s.writeLeft.writeFailShown r.page, .failed (.cache bs)) := by
    simp only [State.endWrite, hrun, hsecond, hkind]
    rfl
  rw [State.pageWriteEnd, hend]

theorem State.counterIncrement_of_run (c : Nat) : s.counterIncrement c = s := if_pos (.inl (by rw [hrun]; rfl))

theorem State.countNow_of_run (c : Nat) :
    s.countNow c = { s with pst := { s.pst with countDue := s.pst.countDue ++ [c] } } := if_pos (by rw [hrun]; rfl)

end

theorem State.counterIncrement_of_due {c : Nat} (hrun : s.pst.run = none) (hfree : s.slotWaits c = false)
    (hdue : c ∈ s.pst.countDue) : s.counterIncrement c =
      ({ s with pst := { s.pst with countDue := s.pst.countDue.erase c } } : State).incCounter c :=
  (if_neg (by rw [hrun, hfree]; simp)).trans (if_pos (List.contains_iff_mem.2 hdue))

/-! ### Log pages -/

theorem State.flushLog_spec (hpending : s.flt.pending ≠ []) :
    s.flushLog.flt.pending = s.flt.pending.drop 7 ∧ s.flushLog.pst.queue.length = s.pst.queue.length + 1 := by
  cases hp : s.flt.pending with
  | nil => exact absurd hp hpending
  | cons e es =>
    have hqueue (v : State) (c : Nat) (k : PKind) : (v.enqueue c k).flt = v.flt ∧
        (v.enqueue c k).pst.queue = v.pst.queue ++ [⟨c, k, false, [], 0⟩] := ⟨rfl, rfl⟩
    rw [State.flushLog, hp]
    refine ⟨(congrArg FltUnit.pending (hqueue _ _ _).1).trans rfl, ?_⟩
    rw [(hqueue _ _ _).2, List.length_append]
    rfl

/-! ### Scrub -/

theorem State.writesOnly_marginClean (s : State) : s.WritesOnly (s.marginRead .clean) [R.pstScrub] := by
  have hnext := (State.WritesOnly.refl s _).setF (List.mem_singleton_self R.pstScrub) F.pstScrubNext
    ((s.getF R.pstScrub F.pstScrubNext + 1) % 2048)
  exact .ite (.refl s _) (.ite (hnext.setF (List.mem_singleton_self _) _ _) hnext)

theorem State.getF_marginClean (hon : s.domOn 64 = true) : (s.marginRead .clean).getF R.pstScrub F.pstScrubNext =
    (s.getF R.pstScrub F.pstScrubNext + 1) % 2048 := by
  have hself (v : Nat) : (s.setF R.pstScrub F.pstScrubNext (v % 2048)).getF R.pstScrub F.pstScrubNext = v % 2048 :=
    (State.getF_setF_self _ _ _ _ (by decide)).trans (Nat.mod_mod _ _)
  rw [State.marginRead, if_neg (by rw [hon]; simp)]
  dsimp only [State.scrubPage]
  split
  · rw [State.getF_setF_field _ _ _ _ _ (by decide) (by decide), hself]
  · rw [hself]

end

/-- Settles O59: reports, records, log pages, page writes, counters and scrub in the cases of the statement. -/
theorem logsAndStore : Obligations.LogsAndStore := by
  intro s
  refine ⟨fun src code rep detail => ⟨fun hnew hroom => ?fresh, fun r rs hopen hsrc hcode => ?known⟩,
    fun r rs hopen hroom hdown hdue => ?closes, fun hlen => ?pops,
    fun hpending => ⟨fun hlate => ?flushes, fun hearly => ?waits⟩, fun hoff => ?storeOff,
    fun j p d left hon hrun hend hqueue hbegun hleft hp => ?starts,
    fun r hrun => ⟨fun bs hkind hleft => ?passes, fun hfirst => ?again, fun bs hsecond hkind => ?fails, fun c => ?counterHeld,
      fun hhour => ?hourHeld⟩,
    fun c hrun hfree hdue => ?counts, fun hearly => ?hourWaits, fun hon => ?scrubs, fun hoff r => ?scrubOff⟩
  case fresh =>
    have hmod : detail.toNat % 2 ^ 32 = detail.toNat := Nat.mod_eq_of_lt detail.isLt
    have hrep := State.report_of_fresh (rep := rep.toNat) (d := detail.toNat) hnew hroom
    rw [hmod] at hrep
    let v := s.recordOpened ⟨src.toNat, code.toNat, rep.toNat, detail.toNat, 1, s.timeUs, s.timeUs, false⟩
    have hopen : v.WritesOnly v.syncOpen [R.fltOpen, R.fltStatus, R.fltNewsrcEvt] := v.writesOnly_syncOpen.mono (by simp)
    have hwrites := hopen.raise (a := R.fltStatus) (e := R.fltNewsrcEvt) (by simp) (by simp) F.fltStatusNewSrc
    refine ⟨_, congrArg Host.Outcome.next hrep, hwrites.keeps (fun x => x.flt.openRecs) fun _ => rfl,
      State.isSet_raise_self _ _ _ _ (by decide) (by decide) (by decide), ?_, hwrites.regs⟩
    exact (State.reg_raise_evt _ _ _ _ (by decide)).trans
      (congrArg (satInc · 1) (v.writesOnly_syncOpen.regs _ (by decide)))
  case known => exact congrArg Host.Outcome.next (State.report_of_first hopen hsrc hcode)
  case closes =>
    let q : Rec := { r with entry := false }
    let v := (s.recordsLeft rs).syncOpen
    have hclose : s.closeRecord = (v.recordClosed q).syncClosed := State.closeRecord_of_due hopen hroom hdown hdue
    have hflt : v.flt = (s.recordsLeft rs).flt := (s.recordsLeft rs).writesOnly_syncOpen.keeps State.flt fun _ => rfl
    have hclosed : (v.recordClosed q).flt.closed = s.flt.closed ++ [q] := by
      rw [(v.flt_recordClosed q).2, hflt, (s.flt_recordsLeft rs).2]
    have hlen : (v.recordClosed q).flt.closed.length = s.flt.closed.length + 1 := by
      rw [hclosed, List.length_append, List.length_singleton]
    have hsync : (v.recordClosed q).syncClosed.flt = (v.recordClosed q).flt :=
      (v.recordClosed q).writesOnly_syncClosed.keeps State.flt fun _ => rfl
    refine ⟨_, congrArg Host.Outcome.next hclose, ?_, ?_, ?_, ?_⟩
    · rw [hsync, (v.flt_recordClosed q).1, hflt, (s.flt_recordsLeft rs).1]
    · rw [hsync, hclosed]
    · rw [State.getF_syncClosed (by omega), hlen]
    · have hopenRegs : s.regsBut v [R.fltOpen, R.fltRecCtrl] :=
        .trans (s.regsBut_recordsLeft rs _) ((s.recordsLeft rs).writesOnly_syncOpen.regs.mono (by simp))
      exact hopenRegs.trans (.trans (v.regsBut_recordClosed q _) ((v.recordClosed q).writesOnly_syncClosed.regs.mono (by simp)))
  case pops =>
    let v : State := { s with flt := { s.flt with closed := s.flt.closed.drop 1 } }
    have hlen' : v.flt.closed.length = s.flt.closed.length - 1 := List.length_drop
    exact ⟨_, rfl, v.writesOnly_syncClosed.keeps State.flt fun _ => rfl,
      (State.getF_syncClosed (s := v) (by omega)).trans hlen', v.writesOnly_syncClosed.regs⟩
  case flushes =>
    obtain ⟨hleft, hqueue⟩ := State.flushLog_spec hpending
    exact ⟨_, if_pos (by simpa using ⟨hpending, hlate⟩), hleft, hqueue⟩
  case waits => exact if_neg (by simp only [Bool.and_eq_true, decide_eq_true_eq, not_and]; omega)
  case storeOff => exact congrArg Host.Outcome.next (if_neg (by rw [hoff]; simp))
  case starts =>
    let v := s.writeBegun j p d left
    have hpst : (v.busyShown p).pst = v.pst := (v.writesOnly_busyShown p).keeps State.pst fun _ => rfl
    obtain ⟨hbusy, hpage⟩ := v.busyShown_spec hp
    refine ⟨_, _, congrArg Host.Outcome.next ((if_pos hon).trans (State.startWrite_of_begun hrun hend hqueue hbegun hleft)),
      congrArg PstUnit.run hpst, rfl, rfl, rfl, congrArg PstUnit.queue hpst, ?_, hbusy, hpage, (v.writesOnly_busyShown p).regs⟩
    rw [hpst]
    exact ⟨_, Tab.get?_put_self _ _ _, rfl⟩
  case passes =>
    let v := s.writePassed r
    have hpst : v.writeCounted.pst = v.pst := v.writesOnly_writeCounted.keeps State.pst fun _ => rfl
    obtain ⟨hbusy, hwrites⟩ := v.writeCounted_spec
    refine ⟨_, congrArg Host.Outcome.next (State.pageWriteEnd_of_cache hrun hkind hleft), congrArg PstUnit.run hpst, ?_,
      congrArg PstUnit.lastEnd hpst, hbusy, hwrites, v.writesOnly_writeCounted.regs⟩
    rw [hpst]
    exact Tab.get?_put_self _ _ _
  case again => exact congrArg Host.Outcome.next (State.pageWriteEnd_of_first hrun hfirst)
  case fails =>
    obtain ⟨hpst, hset, hcount⟩ := s.writeLeft.writeFailShown_spec r.page
    exact ⟨_, congrArg Host.Outcome.next (State.pageWriteEnd_of_second hrun hsecond hkind), congrArg PstUnit.run hpst, hset,
      hcount, (congrArg PstUnit.pages hpst).trans rfl⟩
  case counterHeld => exact congrArg Host.Outcome.next (State.counterIncrement_of_run hrun _)
  case hourHeld => exact congrArg Host.Outcome.next ((if_pos hhour).trans (State.countNow_of_run (s := s.hourPassed) hrun _))
  case counts => exact congrArg Host.Outcome.next (State.counterIncrement_of_due hrun hfree hdue)
  case hourWaits => exact congrArg Host.Outcome.next (if_neg (by omega))
  case scrubs =>
    exact ⟨_, rfl, State.getF_marginClean hon, s.writesOnly_marginClean.regs, s.writesOnly_marginClean.only⟩
  case scrubOff => exact congrArg Host.Outcome.next (if_pos (by rw [hoff]; simp))

end Sys2Proof.Machine
end


section
/-! PROOF. Stacks requests, scrub, folio release and page return (R244 to R268, R399), and O57. -/

namespace Sys2Proof.Machine

section
variable {s u : State}

/-! ### What positions and generations read -/

theorem State.shelfPos_congr (hpart : u.part = s.part) (hcfg : u.cfg = s.cfg) (hlck : u.lck = s.lck) (k : Nat) : u.shelfPos k = s.shelfPos k := by
  have hpar (t k i : Nat) : u.par t k i = s.par t k i := by
    simp only [State.par, State.param, hpart, hcfg]
  have hlane : u.shelfLane k = s.shelfLane k := by
    simp only [State.shelfLane, State.hasLane, State.hasRec, State.laneP, hcfg, hpar]
  have henc (e : Nat) : u.enc e = s.enc e := by simp only [State.enc, hlck]
  simp only [State.shelfPos, hlane, State.lanePos, State.laneEnc, State.laneP, hpar, henc]

theorem State.slotOfCall_congr (hlck : u.lck = s.lck) (call : Nat) : u.slotOfCall call = s.slotOfCall call := by
  simp only [State.slotOfCall, hlck]

theorem State.genOk_congr {x : Nat} (h : u.reg (R.dspCxState x) = s.reg (R.dspCxState x)) (gen : Nat) :
    u.genOk x gen = s.genOk x gen := by
  simp only [State.genOk, State.ctxGen, State.getF_congr h]

/-! ### Requests -/

/-- The state without request `n`. -/
def State.reqGone (s : State) (n : Nat) : State := { s with stk := { s.stk with reqs := s.stk.reqs.del n } }

theorem State.regsBut_reqGone (s : State) (n : Nat) (l : List Nat) : s.regsBut (s.reqGone n) l := fun _ _ => rfl

theorem State.writesOnly_dropReq (s : State) (n : Nat) (r : Req) :
    (s.reqGone n).WritesOnly (s.dropReq n r) [R.dspCxOutstanding r.ctx] :=
  (State.WritesOnly.refl _ _).setF (List.mem_singleton_self _) _ _

theorem State.dropReq_stk (s : State) (n : Nat) (r : Req) : (s.dropReq n r).stk = { s.stk with reqs := s.stk.reqs.del n } :=
  ((s.writesOnly_dropReq n r).keeps State.stk fun _ => rfl).trans rfl

theorem State.regsBut_dropReq (s : State) (n : Nat) (r : Req) : s.regsBut (s.dropReq n r) [R.dspCxOutstanding r.ctx] :=
  .trans (s.regsBut_reqGone n _) (s.writesOnly_dropReq n r).regs

theorem State.outstanding_dropReq (s : State) (n : Nat) (r : Req) :
    (s.dropReq n r).getF (R.dspCxOutstanding r.ctx) F.dspCxOutstandingCount =
      (s.outstanding r.ctx - 1) % 2 ^ F.dspCxOutstandingCount.width :=
  State.getF_setF_self _ _ _ _ (by decide)

theorem State.reqComplete_ok {n : Nat} {r : Req} (hreq : s.stk.reqs.get? n = some r) :
    s.reqComplete n .ok = (s.dropReq n r).reqEffect r true := by simp only [State.reqComplete, hreq]

theorem State.reqComplete_corrected {n k : Nat} {r : Req} (hreq : s.stk.reqs.get? n = some r) :
    s.reqComplete n (.corrected k) = ((s.dropReq n r).ceAt r.page k).reqEffect r true := by simp only [State.reqComplete, hreq]

theorem State.reqComplete_uncorrectable {n : Nat} {r : Req} (hreq : s.stk.reqs.get? n = some r) :
    s.reqComplete n .uncorrectable = s.reqLost n := by simp only [State.reqComplete, hreq]

theorem State.reqEffect_xfer {r : Req} {i : Nat} (hkind : r.kind = .xfer i) (ok : Bool) : s.reqEffect r ok = s := by
  simp only [State.reqEffect, hkind]

theorem State.reqEffect_append {r : Req} {a : Nat} (hkind : r.kind = .append a) (hlive : s.genOk r.ctx r.gen = true) :
    s.reqEffect r true = s.ackAppend a true := by
  simp only [State.reqEffect, hkind, hlive, Bool.and_self]
  rfl

/-! ### The last write of an append -/

/-- The state without append `a`. -/
def State.appendGone (s : State) (a : Nat) : State := { s with stk := { s.stk with appends := s.stk.appends.del a } }

/-- `f` with `n` more entries of layer `l` appended. -/
def Folio.extended (f : Folio) (l n : Nat) : Folio :=
  { f with nl := (List.range f.layout.layers.length).map (fun i => f.nl.getD i 0 + (if i = l then n else 0)) }

theorem Folio.getD_extended (f : Folio) (l n : Nat) {i : Nat} (hi : i < f.layout.layers.length) :
    (f.extended l n).nl.getD i 0 = f.nl.getD i 0 + (if i = l then n else 0) := by
  simp [Folio.extended, List.getD_eq_getElem?_getD, List.getElem?_map, List.getElem?_range hi]

theorem State.ackAppend_last {a : Nat} {p : Append} {f : Folio} (happ : s.stk.appends.get? a = some p) (hleft : p.left = 1)
    (hfolio : s.folio p.call = some f) :
    s.ackAppend a true = (s.appendGone a).setFolio p.call (f.extended p.layer p.count) := by
  have hf : (s.appendGone a).folio p.call = some f := hfolio
  have hgone : s.ackAppend a true = match (s.appendGone a).folio p.call with
      | some g => (s.appendGone a).setFolio p.call (g.extended p.layer p.count)
      | none => s.appendGone a := by
    simp only [State.ackAppend, happ, hleft]
    rfl
  rw [hgone, hf]

/-! ### Errors that link ECC corrected -/

theorem State.writesOnly_ceAt (s : State) (p n : Nat) :
    s.WritesOnly (s.ceAt p n) [R.stkChCe (pageChannel p), R.stkCeTotal] :=
  ((State.WritesOnly.refl s _).count (by simp) _).count (by simp) _

theorem stkChCe_ne_stkCeTotal (ch : Nat) : R.stkChCe ch ≠ R.stkCeTotal := by
  simp only [R.stkChCe, R.stkCeTotal]; omega

theorem dspCxOutstanding_ne_stk (x ch : Nat) : R.stkChCe ch ≠ R.dspCxOutstanding x ∧ R.stkCeTotal ≠ R.dspCxOutstanding x := by
  simp only [R.stkChCe, R.stkCeTotal, R.dspCxOutstanding]; omega

theorem State.ceAt_spec (s : State) (p n : Nat) :
    (s.ceAt p n).reg (R.stkChCe (pageChannel p)) = satInc (s.reg (R.stkChCe (pageChannel p))) n ∧
      (s.ceAt p n).reg R.stkCeTotal = satInc (s.reg R.stkCeTotal) n := by
  have hne := stkChCe_ne_stkCeTotal (pageChannel p)
  refine ⟨?_, ?_⟩
  · rw [State.ceAt, State.reg_count_ne _ hne, State.reg_count_self]
  · rw [State.ceAt, State.reg_count_self, State.reg_count_ne _ hne.symm]

theorem State.patrol_of_scrub {p : Nat} (hen : s.isSet R.stkCtrl F.stkCtrlScrubEn = true) (hp : p < s.topPage)
    (hbuilt : s.stk.built = true) : s.patrol p .ok = s ∧ ∀ k, s.patrol p (.corrected k) = s.ceAt p k :=
  ⟨if_pos ⟨hen, hp, hbuilt⟩, fun _ => if_pos ⟨hen, hp, hbuilt⟩⟩

theorem State.patrol_of_off {p : Nat} (hen : s.isSet R.stkCtrl F.stkCtrlScrubEn = false) (a : EccResult) : s.patrol p a = s :=
  if_neg fun h => by rw [hen] at h; exact Bool.false_ne_true h.1

/-! ### Release -/

/-- The state without folio `call`, its pages given up. -/
def State.folioGone (s : State) (call : Nat) (f : Folio) : State :=
  { s with stk := { s.stk with
      folios := s.stk.folios.del call
      giveUp := s.stk.giveUp ++ (f.pages.filter (fun p => !s.stk.retired.contains p)).map (fun p => (p, s.stk.nextReq)) } }

/-- The registers that count folios. -/
def liveRegs (k : Nat) : List Nat := [R.stkLive, R.stkShLive k, R.stkShPages k]

theorem State.regsBut_folioGone (s : State) (call : Nat) (f : Folio) (l : List Nat) : s.regsBut (s.folioGone call f) l :=
  fun _ _ => rfl

theorem State.writesOnly_countLive (s : State) (k pages : Nat) (up : Bool) :
    s.WritesOnly (s.countLive k pages up) (liveRegs k) :=
  (((State.WritesOnly.refl s _).setF (by simp [liveRegs]) _ _).setF (by simp [liveRegs]) _ _).setF (by simp [liveRegs]) _ _

theorem State.stkLive_countLive (s : State) (k pages : Nat) : (s.countLive k pages false).getF R.stkLive F.stkLiveLive =
    (s.getF R.stkLive F.stkLiveLive - 1) % 2 ^ F.stkLiveLive.width := by
  have hlive : R.stkLive ≠ R.stkShLive k := by simp only [R.stkLive, R.stkShLive]; omega
  have hpages : R.stkLive ≠ R.stkShPages k := by simp only [R.stkLive, R.stkShPages]; omega
  rw [State.countLive, State.getF_setF_ne _ _ _ _ hpages, State.getF_setF_ne _ _ _ _ hlive, State.getF_setF_self _ _ _ _ (by decide)]
  rfl

theorem State.releaseFolio_of_live {call : Nat} {f : Folio} (hfolio : s.folio call = some f) :
    s.releaseFolio call = (s.folioGone call f).countLive (callShelf call) f.pages.length false := by
  simp only [State.releaseFolio, hfolio]
  rfl

theorem State.releaseFolio_stk {call : Nat} {f : Folio} (hfolio : s.folio call = some f) :
    (s.releaseFolio call).stk = (s.folioGone call f).stk := by
  rw [State.releaseFolio_of_live hfolio]
  exact (State.writesOnly_countLive _ _ _ _).keeps State.stk fun _ => rfl

theorem State.regsBut_releaseFolio {call : Nat} {f : Folio} (hfolio : s.folio call = some f) :
    s.regsBut (s.releaseFolio call) (liveRegs (callShelf call)) := by
  rw [State.releaseFolio_of_live hfolio]
  exact .trans (s.regsBut_folioGone call f _) (State.writesOnly_countLive _ _ _ _).regs

theorem State.mem_giveUp_folioGone {call p : Nat} {f : Folio} (hp : p ∈ f.pages) (hkept : p ∉ s.stk.retired) :
    (p, s.stk.nextReq) ∈ (s.folioGone call f).stk.giveUp :=
  List.mem_append_right _ (List.mem_map.2 ⟨p, List.mem_filter.2 ⟨hp, by simpa using hkept⟩, rfl⟩)

theorem State.releaseDue_of_due {call : Nat} {f : Folio} (hfolio : s.folio call = some f) (hdue : f.due = true)
    (hfirst : s.firstDue call f = true) (hawake : s.stk.selfRefresh = false) : s.releaseDue call = s.releaseFolio call := by
  simp only [State.releaseDue, hfolio]
  exact if_pos (by rw [hdue, hfirst, hawake]; rfl)

theorem State.releaseDue_of_held {call : Nat} {f : Folio} (hfolio : s.folio call = some f)
    (h : f.due = false ∨ s.stk.selfRefresh = true) : s.releaseDue call = s := by
  simp only [State.releaseDue, hfolio]
  refine if_neg fun hc => ?_
  simp only [Bool.and_eq_true, Bool.not_eq_true'] at hc
  obtain ⟨⟨hdue, -⟩, hawake⟩ := hc
  rcases h with h | h <;> simp_all

/-! ### Closing by force -/

/-- Where an open folio is closed by force. -/
def State.forcePos (s : State) (call : Nat) (f : Folio) : Pos :=
  f.start + BitVec.ofNat 48 (s.getF (R.stkShOpenMax (callShelf call)) F.stkShOpenMaxLc)

/-- `f` closed by force at `p`, on a shelf whose window is `w`. -/
def Folio.forced (f : Folio) (p w : Pos) : Folio := { f with st := 2, closePos := p, relPos := p + w, flags := Nat.lor f.flags 8 }

/-- A close by force is shown and reported. -/
def State.forceShown (s : State) (call : Nat) : State :=
  (s.raise R.stkStatus F.stkStatusForceClose R.stkFcloseEvt).report (Src.shelf (callShelf call)) E.stkForceClose Rep.allocator call

theorem State.forceShown_spec (s : State) (call : Nat) :
    (s.forceShown call).isSet R.stkStatus F.stkStatusForceClose = true ∧
      (s.forceShown call).reg R.stkFcloseEvt = satInc (s.reg R.stkFcloseEvt) 1 :=
  s.raise_report_spec _ _ _ _ (by decide) (by decide) (by decide) (by decide) (by decide)

theorem State.forceShown_units (s : State) (call : Nat) : (s.forceShown call).stk = s.stk ∧ (s.forceShown call).lck = s.lck ∧
    (s.forceShown call).cfg = s.cfg ∧ (s.forceShown call).part = s.part :=
  ⟨(State.report_stk _ _ _ _ _).trans (State.raise_stk _ _ _ _), (State.report_lck _ _ _ _ _).trans (State.raise_lck _ _ _ _),
    (State.report_cfg _ _ _ _ _).trans (State.raise_cfg _ _ _ _),
    (State.report_part _ _ _ _ _).trans (State.raise_part _ _ _ _)⟩

theorem State.closeFolio_forced {call : Nat} {f : Folio} {p : Pos} (hfolio : s.folio call = some f) (hst : f.st = 1)
    (hslots : s.slotOfCall call = []) (v : State)
    (hv : v = (s.setFolio call (f.forced p (s.window (callShelf call)))).forceShown call) :
    s.closeFolio call p true =
      if Pos.atOrAfter (v.shelfPos (callShelf call)) (p + s.window (callShelf call)) && !v.stk.selfRefresh then
        v.releaseFolio call else v := by
  have hnone : v.slotOfCall call = [] := by
    rw [hv, State.slotOfCall_congr (State.forceShown_units _ _).2.1]
    exact hslots
  have hfold : s.closeFolio call p true =
      let u := (v.slotOfCall call).foldl (fun s i => s.closeSlot i p) v
      if Pos.atOrAfter (u.shelfPos (callShelf call)) (p + s.window (callShelf call)) && !u.stk.selfRefresh then
        u.releaseFolio call else u := by
    simp only [State.closeFolio, hfolio, hv]
    exact if_neg (by simp [hst])
  rw [hfold, hnone]
  rfl

/-- What a close by force leaves, whether the folio is released at once or not. -/
theorem State.closeFolio_forced_spec {call : Nat} {f : Folio} {p : Pos} (hfolio : s.folio call = some f) (hst : f.st = 1)
    (hslots : s.slotOfCall call = []) :
    (s.closeFolio call p true).isSet R.stkStatus F.stkStatusForceClose = true ∧
      (s.closeFolio call p true).reg R.stkFcloseEvt = satInc (s.reg R.stkFcloseEvt) 1 ∧
      (Pos.atOrAfter (s.shelfPos (callShelf call)) (p + s.window (callShelf call)) = false →
        (s.closeFolio call p true).folio call = some (f.forced p (s.window (callShelf call)))) := by
  obtain ⟨v, hv⟩ : ∃ v, v = (s.setFolio call (f.forced p (s.window (callShelf call)))).forceShown call := ⟨_, rfl⟩
  obtain ⟨hset, hcount⟩ := State.forceShown_spec (s.setFolio call (f.forced p (s.window (callShelf call)))) call
  obtain ⟨hstk, hlck, hcfg, hpart⟩ := State.forceShown_units (s.setFolio call (f.forced p (s.window (callShelf call)))) call
  rw [← hv] at hset hcount hstk hlck hcfg hpart
  have hclosed : v.folio call = some (f.forced p (s.window (callShelf call))) :=
    (congrArg (fun x : StkUnit => x.folios.get? call) hstk).trans (Tab.get?_put_self _ _ _)
  have hpos : v.shelfPos (callShelf call) = s.shelfPos (callShelf call) := State.shelfPos_congr hpart hcfg hlck _
  rw [State.closeFolio_forced hfolio hst hslots v hv]
  split
  case isTrue hpassed =>
    have hregs := State.regsBut_releaseFolio hclosed
    have hstatus : R.stkStatus ∉ liveRegs (callShelf call) := by
      simp only [liveRegs, List.mem_cons, List.not_mem_nil, or_false, not_or, R.stkStatus, R.stkLive, R.stkShLive, R.stkShPages]; omega
    have hevt : R.stkFcloseEvt ∉ liveRegs (callShelf call) := by
      simp only [liveRegs, List.mem_cons, List.not_mem_nil, or_false, not_or, R.stkFcloseEvt, R.stkLive, R.stkShLive, R.stkShPages]; omega
    refine ⟨(State.isSet_congr (hregs _ hstatus) _).trans hset, (hregs _ hevt).trans hcount, fun hopen => ?_⟩
    rw [hpos, hopen] at hpassed
    exact absurd hpassed (by simp)
  case isFalse => exact ⟨hset, hcount, fun _ => hclosed⟩

theorem State.forceClose_of_due {call : Nat} {f : Folio} (hfolio : s.folio call = some f) (hst : f.st = 1)
    (hdue : Pos.atOrAfter (s.shelfPos (callShelf call)) (s.forcePos call f) = true) :
    s.forceClose call = s.closeFolio call (s.forcePos call f) true := by
  simp only [State.forceClose, hfolio]
  exact if_pos ⟨hst, hdue⟩

theorem State.forceClose_of_early {call : Nat} {f : Folio} (hfolio : s.folio call = some f)
    (h : f.st ≠ 1 ∨ Pos.atOrAfter (s.shelfPos (callShelf call)) (s.forcePos call f) = false) : s.forceClose call = s := by
  simp only [State.forceClose, hfolio]
  refine if_neg fun ⟨hst, hdue⟩ => ?_
  rcases h with h | h
  · exact h hst
  · exact Bool.false_ne_true (h.symm.trans hdue)

/-! ### Page return -/

/-- Every request made before the give-up of `e` is complete. -/
def State.pageReady (s : State) (e : Nat × Nat) : Bool := s.stk.reqs.all (fun r => decide (e.2 ≤ r.1))

theorem State.writesOnly_countFree (s : State) (ch : Nat) (up : Bool) :
    s.WritesOnly (s.countFree ch up) [R.stkFree, R.stkFreeLow, R.stkChState ch] :=
  (((State.WritesOnly.refl s _).setF (by simp) _ _).setF (by simp) _ _).setF (by simp) _ _

theorem State.countFree_stk (s : State) (ch : Nat) (up : Bool) : (s.countFree ch up).stk = s.stk :=
  (s.writesOnly_countFree ch up).keeps State.stk fun _ => rfl

theorem State.pageReturn_giveUp (s : State) : s.pageReturn.stk.giveUp = s.stk.giveUp.filter (fun e => !s.pageReady e) := by
  refine State.foldl_induction (P := fun u => u.stk.giveUp = s.stk.giveUp.filter (fun e => !s.pageReady e)) rfl
    fun u hu e _ => ?_
  split
  · exact hu
  · exact (congrArg StkUnit.giveUp (State.countFree_stk _ _ _)).trans hu

theorem State.pageReady_eq_false (e : Nat × Nat) :
    s.pageReady e = false ↔ s.stk.reqs.any (fun r => decide (r.1 < e.2)) = true := by
  simp [State.pageReady, List.all_eq_false]

end

/-- Settles O57: requests, scrub, release, close by force, page return and STK_FREE_LOW in the cases of the statement. -/
theorem stacksRows : Obligations.StacksRows := by
  intro s
  refine ⟨fun n i r hreq hkind => ?xfer, fun n a r p f hreq hkind hlive happ hleft hfolio hlayer => ?append,
    fun n i k r hreq hkind => ?corrected, fun n r hreq => ⟨?lost, fun hlate => ?late, fun hearly => ?early⟩,
    fun page k hen hp hbuilt => ⟨?scrubClean, ?scrubCorrected⟩, fun page a hen => ?scrubOff,
    fun call f hfolio => ⟨fun hdue hfirst hawake => ?released, fun hheld => ?heldBack, fun hst hdue hslots => ?forced,
      fun hearly => ?stands⟩,
    ⟨_, rfl, fun e => ?returned⟩, fun hon => ?low, fun hoff => ?lowOff⟩
  case xfer =>
    refine ⟨_, congrArg Host.Outcome.next ((State.reqComplete_ok hreq).trans (State.reqEffect_xfer hkind _)),
      s.dropReq_stk n r, s.outstanding_dropReq n r, s.regsBut_dropReq n r⟩
  case append =>
    have hstk := s.dropReq_stk n r
    have hgen : (s.dropReq n r).genOk r.ctx r.gen = true := by
      rw [State.genOk_congr (s.regsBut_dropReq n r _ _), hlive]
      simp only [List.mem_singleton, R.dspCxState, R.dspCxOutstanding]; omega
    have happ' : (s.dropReq n r).stk.appends.get? a = some p := (congrArg (fun x : StkUnit => Tab.get? x.appends a) hstk).trans happ
    have hfolio' : (s.dropReq n r).folio p.call = some f := (congrArg (fun x : StkUnit => Tab.get? x.folios p.call) hstk).trans hfolio
    have hdone := (State.reqComplete_ok hreq).trans
      ((State.reqEffect_append hkind hgen).trans (State.ackAppend_last happ' hleft hfolio'))
    refine ⟨_, f.extended p.layer p.count, congrArg Host.Outcome.next hdone, ?_, Tab.get?_put_self _ _ _, rfl, ?_, fun l hl hne => ?_⟩
    · exact (congrArg (fun x : StkUnit => Tab.del x.appends a) hstk).trans rfl
    · rw [f.getD_extended _ _ hlayer, if_pos rfl]
    · rw [f.getD_extended _ _ hl, if_neg hne, Nat.add_zero]
  case corrected =>
    obtain ⟨hch, htotal⟩ := (s.dropReq n r).ceAt_spec r.page k
    have hregs := s.regsBut_dropReq n r
    obtain ⟨hneCh, hneTotal⟩ := dspCxOutstanding_ne_stk r.ctx (pageChannel r.page)
    refine ⟨_, congrArg Host.Outcome.next ((State.reqComplete_corrected hreq).trans (State.reqEffect_xfer hkind _)), ?_, ?_, ?_⟩
    · rw [((s.dropReq n r).writesOnly_ceAt r.page k).keeps State.stk fun _ => rfl, s.dropReq_stk n r]
    · rw [hch, hregs _ (by simpa using hneCh)]
    · rw [htotal, hregs _ (by simpa using hneTotal)]
  case lost => exact congrArg Host.Outcome.next (State.reqComplete_uncorrectable hreq)
  case late =>
    simp only [exec, execStacksRequestTimeout, hreq]
    rw [if_pos hlate]
  case early =>
    simp only [exec, execStacksRequestTimeout, hreq]
    rw [if_neg (Nat.not_le.2 hearly)]
  case scrubClean => exact congrArg Host.Outcome.next (State.patrol_of_scrub hen hp hbuilt).1
  case scrubCorrected =>
    obtain ⟨hch, htotal⟩ := s.ceAt_spec page.toNat k
    have hwrites := s.writesOnly_ceAt page.toNat k
    exact ⟨_, congrArg Host.Outcome.next ((State.patrol_of_scrub hen hp hbuilt).2 k), hch, htotal, hwrites.regs, hwrites.only⟩
  case scrubOff => exact congrArg Host.Outcome.next (State.patrol_of_off hen a)
  case released =>
    have hstk := State.releaseFolio_stk hfolio
    refine ⟨_, congrArg Host.Outcome.next (State.releaseDue_of_due hfolio hdue hfirst hawake), ?_, fun c hc => ?_, ?_, fun p hp hkept => ?_⟩
    · exact (congrArg (fun x : StkUnit => Tab.get? x.folios call.toNat) hstk).trans (Tab.get?_del_self _ _)
    · exact (congrArg (fun x : StkUnit => Tab.get? x.folios c) hstk).trans (Tab.get?_del_ne _ hc)
    · rw [State.releaseFolio_of_live hfolio, State.stkLive_countLive]
      rfl
    · rw [hstk]
      exact State.mem_giveUp_folioGone hp hkept
  case heldBack => exact congrArg Host.Outcome.next (State.releaseDue_of_held hfolio hheld)
  case forced =>
    obtain ⟨hset, hcount, hclosed⟩ := State.closeFolio_forced_spec (p := s.forcePos call.toNat f) hfolio hst hslots
    exact ⟨_, congrArg Host.Outcome.next (State.forceClose_of_due hfolio hst hdue), hset, hcount, hclosed⟩
  case stands => exact congrArg Host.Outcome.next (State.forceClose_of_early hfolio hearly)
  case returned =>
    rw [State.pageReturn_giveUp, List.mem_filter, Bool.not_eq_true', State.pageReady_eq_false]
  case low =>
    have hwrites := (State.WritesOnly.refl s _).setF (List.mem_singleton_self R.stkFreeLow) F.stkFreeLowLow s.freePages
    exact ⟨_, congrArg Host.Outcome.next (if_pos hon), State.getF_setF_self _ _ _ _ (by decide), hwrites.regs, hwrites.only⟩
  case lowOff => exact congrArg Host.Outcome.next (if_neg (by rw [hoff]; simp))

end Sys2Proof.Machine
end


section
/-! PROOF. Release, completion, decision, gathering and time-out of the dispatcher's tasks (R276 to R289, R311), and O56. -/

namespace Sys2Proof.Machine

section
variable {s : State}

/-! ### Release -/

theorem State.releaseNext_of_held {c e : Nat}
    (h : s.isSet R.dspCtrl F.dspCtrlDispEn = false ∨ s.engFenced c e = true ∨ s.engBusy c e = true) : s.releaseNext c e = s := by
  refine if_pos ?_
  rcases h with h | h | h <;> simp [h]

theorem State.releaseNext_of_ready {c e i : Nat} {x : Inst} (hen : s.isSet R.dspCtrl F.dspCtrlDispEn = true)
    (hfree : s.engFenced c e = false) (hidle : s.engBusy c e = false) (hready : s.nextReady c e = some (i, x))
    (hgroup : s.dsp.gathers.get? x.group = none) : s.releaseNext c e = s.releaseInst i x := by
  refine (if_neg (by simp [hen, hfree, hidle])).trans ?_
  simp only [hready, hgroup]

/-! ### Completion -/

section
variable {i : Nat} {x : Inst} (hinst : s.inst i = some x) (hrun : x.st = .running)
include hinst hrun

theorem State.instanceComplete_of_stale (op : InstOp) (hgen : s.genOk x.ctx x.gen = false) :
    s.instanceComplete i op = s.staleDone i x := by
  simp only [State.instanceComplete, hinst]
  exact (if_neg (not_not.2 hrun)).trans (if_pos (by simp [hgen]))

variable {t : TaskRec} {k : Token} (htask : s.instTask x = some t) (htoken : s.token x.token = some k)
include htask htoken

/-- A live task's operation fits its kind and is ready, or nothing happens. -/
theorem State.instanceComplete_of_live (op : InstOp) (hgen : s.genOk x.ctx x.gen = true) :
    s.instanceComplete i op = if opFits t.kind op && s.opReady i x op then
      (s.completes i x op).foldl (fun u j => u.complete j) (s.opEffect x t k op) else s := by
  simp only [State.instanceComplete, hinst, htask, htoken]
  exact (if_neg (not_not.2 hrun)).trans (if_neg (by simp [hgen]))

/-! ### Decisions -/

theorem State.decideDone_of_live (hkind : t.kind = 7) (hgen : s.genOk x.ctx x.gen = true) (isFloat : Bool) (top : List TopEntry) :
    s.decideDone i isFloat top = State.complete (match s.decideAction k.lane isFloat top, k.call with
      | some (some a), some call => s.commitCall k.lane call a
      | some none, _ => s.report (Src.lane k.lane) E.actClassRange Rep.dispatcher
      | _, _ => s) i := by
  simp only [State.decideDone, hinst, htask, htoken]
  exact (if_neg (by simp [hkind, hrun])).trans (if_neg (by simp [hgen]))

/-! ### Time-outs -/

theorem State.taskLate_of_running : s.taskLate i =
    if x.since + s.regNat (R.dspBudget t.budget) ≤ s.timeUs then s.timeOut x t k else s := by
  simp only [State.taskLate, hinst, htask, htoken, State.expired, hrun]
  simp

end

/-- What a time-out leaves before it is shown: the token cancelled, its object defaulted. -/
def State.tokenLost (s : State) (x : Inst) (k : Token) : State := ((s.markToken k).cancelToken x.token).settle x.ctx

/-- A time-out is shown, counted and reported. -/
def State.timeOutShown (s : State) (x : Inst) : State :=
  ((s.raise R.dspStatus F.dspStatusTimeout R.dspTmoEvt).count (R.dspCxTimeouts x.ctx)).report (Src.engine x.core x.engine)
    E.dspTaskTimeout Rep.dispatcher (x.task + 2 ^ 16 * x.ctx + 2 ^ 24 * x.gen)

theorem State.timeOut_of_sync {x : Inst} {t : TaskRec} {k : Token} (hkind : t.kind = 6) :
    s.timeOut x t k = (s.tokenLost x k).timeOutShown x := if_neg (by omega)

theorem State.isSet_timeOutShown (s : State) (x : Inst) :
    (s.timeOutShown x).isSet R.dspStatus F.dspStatusTimeout = true := by
  have hcount : R.dspStatus ≠ R.dspCxTimeouts x.ctx := by simp only [R.dspStatus, R.dspCxTimeouts]; omega
  rw [State.timeOutShown, State.isSet_report _ _ _ _ _ _ (by decide), State.isSet_congr (State.reg_count_ne _ hcount)]
  exact State.isSet_raise_self _ _ _ _ (by decide) (by decide) (by decide)

/-! ### Gathering -/

theorem State.gatherOver_of_one {x g : Nat} {ga : Gather} (hone : s.dsp.gathers = [(g, ga)]) (hctx : ga.ctx = x)
    (hopen : ga.closed = false) : s.gatherOver x ga.op ga.copy =
      if s.ctxP x P.ctxGatherWait ≤ 10 * (s.timeUs - ga.since) then s.closeGather g else s := by
  by_cases hdue : s.ctxP x P.ctxGatherWait ≤ 10 * (s.timeUs - ga.since)
  · rw [if_pos hdue, State.gatherOver, hone, List.find?_cons_of_pos (by simp [hctx, hopen, hdue])]
  · rw [if_neg hdue, State.gatherOver, hone, List.find?_cons_of_neg (by simp [hdue])]
    rfl

end

/-- Settles O56: release, completion, decision, time-out and gathering in the cases of the statement. -/
theorem instanceRows : Obligations.InstanceRows := by
  intro s
  refine ⟨fun c e => ⟨fun hheld => ?held, fun i x hen hfree hidle hready hgroup => ?released⟩,
    fun i x t k hinst hrun htask htoken =>
      ⟨fun op hgen hfits hready => ?completes, fun op hgen hunfit => ?notReady, fun op hgen => ?stale,
        fun call a top isFloat hkind hgen hcall => ⟨fun hact => ?commits, fun hact => ?outOfRange, fun hact => ?noAction⟩,
        fun hlate hkind => ?syncLate, fun hlate => ?late, fun hearly => ?early⟩,
    fun x op copy g ga hone hctx hop hcopy hopen => ⟨fun hdue => ?closes, fun hearly => ?waits⟩⟩
  case held => exact congrArg Host.Outcome.next (State.releaseNext_of_held hheld)
  case released => exact congrArg Host.Outcome.next (State.releaseNext_of_ready hen hfree hidle hready hgroup)
  case completes =>
    exact congrArg Host.Outcome.next ((State.instanceComplete_of_live hinst hrun htask htoken op hgen).trans
      (if_pos (by rw [hfits, hready]; rfl)))
  case notReady =>
    refine congrArg Host.Outcome.next ((State.instanceComplete_of_live hinst hrun htask htoken op hgen).trans (if_neg ?_))
    rcases hunfit with h | h <;> simp [h]
  case stale => exact congrArg Host.Outcome.next (State.instanceComplete_of_stale hinst hrun op hgen)
  case commits =>
    have hdone := State.decideDone_of_live hinst hrun htask htoken hkind hgen isFloat top
    rw [hact, hcall] at hdone
    exact congrArg Host.Outcome.next hdone
  case outOfRange =>
    have hdone := State.decideDone_of_live hinst hrun htask htoken hkind hgen isFloat top
    rw [hact] at hdone
    exact congrArg Host.Outcome.next hdone
  case noAction =>
    have hdone := State.decideDone_of_live hinst hrun htask htoken hkind hgen isFloat top
    rw [hact] at hdone
    exact congrArg Host.Outcome.next hdone
  case syncLate =>
    have hout := (State.taskLate_of_running hinst hrun htask htoken).trans ((if_pos hlate).trans (State.timeOut_of_sync hkind))
    exact ⟨_, congrArg Host.Outcome.next hout, State.isSet_timeOutShown _ x⟩
  case late => exact congrArg Host.Outcome.next ((State.taskLate_of_running hinst hrun htask htoken).trans (if_pos hlate))
  case early =>
    exact congrArg Host.Outcome.next ((State.taskLate_of_running hinst hrun htask htoken).trans (if_neg (Nat.not_le.2 hearly)))
  case closes =>
    subst hop hcopy
    exact congrArg Host.Outcome.next ((State.gatherOver_of_one hone hctx hopen).trans (if_pos hdue))
  case waits =>
    subst hop hcopy
    exact congrArg Host.Outcome.next ((State.gatherOver_of_one hone hctx hopen).trans (if_neg (Nat.not_le.2 hearly)))

end Sys2Proof.Machine
end


section
/-! PROOF. Suspension, resumption and teardown of contexts (R287 to R293, R406), and O55. -/

namespace Sys2Proof.Machine

section
variable {s u : State} {x : Nat}

/-! ### Contexts beyond their registers -/

theorem State.ctx_setCtx (s : State) (x : Nat) (c : CtxSt) : (s.setCtx x c).ctx x = c := Tab.getD_set_self _ _ _ _

theorem State.regsBut_setCtx (s : State) (x : Nat) (c : CtxSt) (l : List Nat) : s.regsBut (s.setCtx x c) l := fun _ _ => rfl

theorem State.ctx_congr (h : u.dsp = s.dsp) (x : Nat) : u.ctx x = s.ctx x := by simp only [State.ctx, h]

theorem State.ctxState_congr (h : u.reg (R.dspCxState x) = s.reg (R.dspCxState x)) : u.ctxState x = s.ctxState x :=
  State.getF_congr h _

theorem State.ctxGen_congr (h : u.reg (R.dspCxState x) = s.reg (R.dspCxState x)) : u.ctxGen x = s.ctxGen x :=
  State.getF_congr h _

theorem State.ctxState_setF_state (s : State) (x v : Nat) : (s.setF (R.dspCxState x) F.dspCxStateState v).ctxState x = v % 8 :=
  State.getF_setF_self _ _ _ _ (by decide)

theorem dspCxState_ne_dspCxCtrl (x y : Nat) : R.dspCxState x ≠ R.dspCxCtrl y := by
  simp only [R.dspCxState, R.dspCxCtrl]; omega

theorem State.reg_setF_dspCxCtrl (s : State) (x y : Nat) (f : Field) (v : Nat) :
    (s.setF (R.dspCxCtrl y) f v).reg (R.dspCxState x) = s.reg (R.dspCxState x) :=
  State.reg_setF_ne _ _ _ (dspCxState_ne_dspCxCtrl x y)

theorem State.getF_raise_field (s : State) {a e : Nat} {f g : Field} (hne : a ≠ e) (hf : f.lo + f.width ≤ 32)
    (hd : g.lo + g.width ≤ f.lo ∨ f.lo + f.width ≤ g.lo) : (s.raise a f e).getF a g = s.getF a g :=
  (State.getF_congr (State.reg_count_ne _ hne) g).trans (State.getF_setF_field _ _ _ _ _ hf hd)

/-! ### Suspension and resumption -/

/-- The state with the suspend bit of context `x` set and its save wanted. -/
def State.suspending (s : State) (x : Nat) : State :=
  (s.setF (R.dspCxCtrl x) F.dspCxCtrlSuspend 1).setCtx x { s.ctx x with saving := true }

theorem State.suspending_spec (s : State) (x : Nat) :
    (s.suspending x).isSet (R.dspCxCtrl x) F.dspCxCtrlSuspend = true ∧ (s.suspending x).ctx x = { s.ctx x with saving := true } ∧
      s.regsBut (s.suspending x) [R.dspCxCtrl x] := by
  have hset : (s.setF (R.dspCxCtrl x) F.dspCxCtrlSuspend 1).isSet (R.dspCxCtrl x) F.dspCxCtrlSuspend = true :=
    State.isSet_setF_self _ _ _ _ (by decide)
  refine ⟨(State.isSet_congr (State.regsBut_setCtx _ _ _ [] _ (List.not_mem_nil)) _).trans hset, State.ctx_setCtx _ _ _, ?_⟩
  exact .trans ((State.WritesOnly.refl s _).setF (List.mem_singleton_self _) _ _).regs (State.regsBut_setCtx _ _ _ _)

theorem State.saveCtx_spec (hsaving : (s.ctx x).saving = true) (hstate : s.ctxState x = 2) (hready : s.saveReady x = true) :
    (s.saveCtx x).ctxState x = 6 ∧ ((s.saveCtx x).ctx x).saving = false := by
  obtain ⟨v, hv⟩ : ∃ v : State, s.saveCtx x =
      (v.setCtx x { v.ctx x with saving := false }).setF (R.dspCxState x) F.dspCxStateState 6 :=
    ⟨_, if_pos (by rw [hsaving, hstate, hready]; rfl)⟩
  rw [hv]
  refine ⟨State.ctxState_setF_state _ _ _, ?_⟩
  rw [State.ctx_congr (State.setF_dsp _ _ _ _), State.ctx_setCtx]

theorem State.saveCtx_of_not_ready (hready : s.saveReady x = false) : s.saveCtx x = s :=
  if_neg (by simp [hready])

theorem State.dropSave_spec (s : State) (x : Nat) : (s.dropSave x).isSet (R.dspCxCtrl x) F.dspCxCtrlSuspend = false ∧
    (s.dropSave x).ctx x = { s.ctx x with saving := false, saved := [], kept := [] } ∧
    s.regsBut (s.dropSave x) [R.dspCxCtrl x] := by
  refine ⟨State.isSet_setF_self _ _ _ _ (by decide), ?_, ?_⟩
  · rw [State.dropSave, State.ctx_congr (State.setF_dsp _ _ _ _), State.ctx_setCtx]
  · exact .trans (State.regsBut_setCtx _ _ _ _) ((State.WritesOnly.refl _ _).setF (List.mem_singleton_self _) _ _).regs

theorem State.resumeCtx_of_running (hstate : s.ctxState x = 2) : s.resumeCtx x = s.dropSave x :=
  (if_neg (by omega)).trans (if_pos hstate)

/-! ### The start of a teardown -/

/-- The state with a teardown of context `x` that waits for its time. -/
def State.teardownWaiting (s : State) (x : Nat) : State :=
  (s.setCtx x { s.ctx x with tdWait := true }).setF (R.dspCxCtrl x) F.dspCxCtrlTeardown 1

theorem State.teardownWaiting_spec (s : State) (x : Nat) : ((s.teardownWaiting x).ctx x).tdWait = true ∧
    (s.teardownWaiting x).isSet (R.dspCxCtrl x) F.dspCxCtrlTeardown = true ∧
    (s.teardownWaiting x).reg (R.dspCxState x) = s.reg (R.dspCxState x) := by
  refine ⟨?_, State.isSet_setF_self _ _ _ _ (by decide), ?_⟩
  · rw [State.teardownWaiting, State.ctx_congr (State.setF_dsp _ _ _ _), State.ctx_setCtx]
  · exact (State.reg_setF_dspCxCtrl _ _ _ _ _).trans (State.regsBut_setCtx _ _ _ [] _ List.not_mem_nil)

theorem State.wantTeardown_of_idle (h : s.ctxState x = 0 ∨ s.ctxState x = 5) :
    s.wantTeardown x = s.report (Src.ctx x) E.dspCtxState Rep.dispatcher := if_pos h

theorem State.wantTeardown_of_ready (h0 : s.ctxState x ≠ 0) (h4 : s.ctxState x ≠ 4) (h5 : s.ctxState x ≠ 5)
    (hwait : (s.ctx x).tdWait = false) : s.wantTeardown x = s.requestTeardown x :=
  (if_neg (by omega)).trans (if_neg (by simp [h4, hwait]))

theorem State.requestTeardown_of_soon {at_ : Nat} (hgen : (s.ctx x).genAt = some at_) (hsoon : s.timeUs < at_ + 1000) :
    s.requestTeardown x = s.teardownWaiting x := by
  unfold State.requestTeardown
  rw [hgen]
  exact if_pos (decide_eq_true hsoon)

theorem State.requestTeardown_of_first (hgen : (s.ctx x).genAt = none) : s.requestTeardown x = s.startTeardown x := by
  simp only [State.requestTeardown, hgen]
  rfl

theorem State.deferredTeardown_of_wait {at_ : Nat} (hgen : (s.ctx x).genAt = some at_) (hwait : (s.ctx x).tdWait = true) :
    s.deferredTeardown x =
      if at_ + 1000 ≤ s.timeUs then (s.setCtx x { s.ctx x with tdWait := false }).startTeardown x else s := by
  simp only [State.deferredTeardown, hgen, hwait, Bool.true_and, decide_eq_true_eq]

/-- The registers and the hidden part of context `x` as its teardown starts. -/
def State.tearing (s : State) (x : Nat) : State :=
  ((s.setF (R.dspCxState x) F.dspCxStateGen ((s.ctxGen x + 1) % 16)).setF (R.dspCxState x) F.dspCxStateState 4).setF
    (R.dspCxCtrl x) F.dspCxCtrlTeardown 1

/-- The hidden part of context `x` at the start of a teardown. -/
def State.tearingCtx (s : State) (x : Nat) : State :=
  s.setCtx x { s.ctx x with tdAt := s.timeUs, genAt := some s.timeUs, tdWait := false }

theorem State.startTeardown_eq (s : State) (x : Nat) : s.startTeardown x =
    let v := ((s.tearing x).tearingCtx x |>.dropSave x).dropUnreleased x
    (v.ctxLanes x).foldl (fun s l => s.defaultLane l .fault) v := rfl

theorem State.tearing_spec (s : State) (x : Nat) : (s.tearing x).ctxState x = 4 ∧
    (s.tearing x).ctxGen x = (s.ctxGen x + 1) % 16 ∧ (s.tearing x).isSet (R.dspCxCtrl x) F.dspCxCtrlTeardown = true := by
  refine ⟨?_, ?_, State.isSet_setF_self _ _ _ _ (by decide)⟩
  · rw [State.tearing, State.ctxState_congr (State.reg_setF_dspCxCtrl _ _ _ _ _), State.ctxState_setF_state]
  · rw [State.tearing, State.ctxGen_congr (State.reg_setF_dspCxCtrl _ _ _ _ _), State.ctxGen,
      State.getF_setF_field _ _ _ _ _ (by decide) (by decide),
      State.getF_setF_self _ _ _ _ (by decide)]
    exact Nat.mod_mod _ _

theorem State.writesOnly_tearing (s : State) (x : Nat) : s.WritesOnly (s.tearing x) [R.dspCxState x, R.dspCxCtrl x] :=
  (((State.WritesOnly.refl s _).setF (by simp) _ _).setF (by simp) _ _).setF (by simp) _ _

/-! ### Dropping what is not released -/

/-- What the tiles have queued for context `x` is dropped. -/
def State.queuesDropped (s : State) (x : Nat) : State :=
  { s with mc := { s.mc with tiles := s.mc.tiles.map (fun e => (e.1, { e.2 with q := e.2.q.filter (fun i => i.ctx != x) })) } }

theorem State.queuesDropped_dsp (s : State) (x : Nat) : (s.queuesDropped x).dsp = s.dsp := rfl

theorem State.regsBut_queuesDropped (s : State) (x : Nat) (l : List Nat) : s.regsBut (s.queuesDropped x) l := fun _ _ => rfl

theorem State.cfg_queuesDropped (s : State) (x : Nat) : (s.queuesDropped x).cfg = s.cfg ∧ (s.queuesDropped x).part = s.part :=
  ⟨rfl, rfl⟩

/-- DSP_INST and DSP_CX_INFLIGHT follow the dispatcher. -/
def State.instShown (s : State) (x : Nat) : State :=
  let n := s.dsp.insts.length
  let u := s.setF R.dspInst F.dspInstInUse n
  let u := u.setF R.dspInst F.dspInstHighWater (max n (u.getF R.dspInst F.dspInstHighWater))
  let toks := (u.dsp.tokens.filter (fun e => e.2.ctx == x && (u.ctxInsts x).any (fun i => i.2.token == e.1))).length
  (u.setF (R.dspCxInflight x) F.dspCxInflightInstances (u.ctxInsts x).length).setF (R.dspCxInflight x) F.dspCxInflightTokens toks

theorem State.syncInst_eq (s : State) (x : Nat) : s.syncInst x = (s.instShown x).drained x := rfl

theorem State.writesOnly_instShown (s : State) (x : Nat) : s.WritesOnly (s.instShown x) [R.dspInst, R.dspCxInflight x] :=
  ((((State.WritesOnly.refl s _).setF (by simp) _ _).setF (by simp) _ _).setF (by simp) _ _).setF (by simp) _ _

theorem State.drained_of_not_draining (h : s.ctxState x ≠ 3) : s.drained x = s := if_neg (by simp [h])

theorem dspCxState_notMem_instShown (x : Nat) : R.dspCxState x ∉ [R.dspInst, R.dspCxInflight x] := by
  simp only [List.mem_cons, List.not_mem_nil, or_false, not_or, R.dspCxState, R.dspInst, R.dspCxInflight]; omega

theorem State.syncInst_of_not_draining (h : s.ctxState x ≠ 3) : s.syncInst x = s.instShown x := by
  have hstate := State.ctxState_congr ((s.writesOnly_instShown x).regs _ (dspCxState_notMem_instShown x))
  rw [State.syncInst_eq, State.drained_of_not_draining (by rw [hstate]; exact h)]

theorem State.dropUnreleased_of_empty (hinsts : s.dsp.insts = []) (htokens : s.dsp.tokens = []) (h : s.ctxState x ≠ 3) :
    s.dropUnreleased x = (s.queuesDropped x).instShown x := by
  have hnone : s.dropUnreleased x = (s.queuesDropped x).syncInst x := by
    rw [State.dropUnreleased, State.ctxInsts, hinsts, htokens]
    rfl
  have hstate : (s.queuesDropped x).ctxState x = s.ctxState x :=
    State.ctxState_congr (s.regsBut_queuesDropped x [] _ List.not_mem_nil)
  rw [hnone, State.syncInst_of_not_draining (by rw [hstate]; exact h)]

theorem State.ctxLanes_congr (hpart : u.part = s.part) (hcfg : u.cfg = s.cfg)
    (hregs : ∀ k, u.reg (R.stkShCfg k) = s.reg (R.stkShCfg k)) (x : Nat) : u.ctxLanes x = s.ctxLanes x := by
  have hpar (t k i : Nat) : u.par t k i = s.par t k i := by
    simp only [State.par, State.param, hpart, hcfg]
  simp only [State.ctxLanes, State.hasLane, State.hasRec, State.laneP, hcfg, hpar, State.shelfEn, State.shelfCtx,
    State.isSet_congr (hregs _), State.getF_congr (hregs _)]

/-- The registers that the start of a teardown without tasks writes. -/
def teardownRegs (x : Nat) : List Nat := [R.dspCxState x, R.dspCxCtrl x, R.dspInst, R.dspCxInflight x]

theorem stkShCfg_notMem_teardownRegs (k x : Nat) : R.stkShCfg k ∉ teardownRegs x := by
  simp only [teardownRegs, List.mem_cons, List.not_mem_nil, or_false, not_or, R.stkShCfg, R.dspCxState, R.dspCxCtrl, R.dspInst,
    R.dspCxInflight]
  omega

/-- A teardown of a context that has no task, no token and no lane. -/
theorem State.startTeardown_of_empty (hinsts : s.dsp.insts = []) (htokens : s.dsp.tokens = []) (hlanes : s.ctxLanes x = []) :
    s.startTeardown x = ((((s.tearing x).tearingCtx x).dropSave x).queuesDropped x).instShown x := by
  obtain ⟨a, ha⟩ : ∃ a, a = s.tearing x := ⟨_, rfl⟩
  obtain ⟨b, hb⟩ : ∃ b, b = a.tearingCtx x := ⟨_, rfl⟩
  obtain ⟨d, hd⟩ : ∃ d, d = b.dropSave x := ⟨_, rfl⟩
  have hab : a.regsBut b (teardownRegs x) := by rw [hb]; exact State.regsBut_setCtx _ _ _ _
  have hbd : b.regsBut d (teardownRegs x) := by
    rw [hd]
    exact (b.dropSave_spec x).2.2.mono (by simp [teardownRegs])
  have hsa := s.writesOnly_tearing x
  rw [← ha] at hsa
  have hunits : d.dsp.insts = a.dsp.insts ∧ d.dsp.tokens = a.dsp.tokens ∧ d.cfg = a.cfg ∧ d.part = a.part := by
    rw [hd, hb]; exact ⟨rfl, rfl, rfl, rfl⟩
  obtain ⟨hdinsts, hdtokens, hdcfg, hdpart⟩ := hunits
  have hadsp : a.dsp = s.dsp := hsa.keeps State.dsp fun _ => rfl
  have hstate : d.ctxState x = 4 := by
    have hbd' := State.ctxState_congr ((b.dropSave_spec x).2.2 _ (by simpa using dspCxState_ne_dspCxCtrl x x))
    have hab' : b.ctxState x = a.ctxState x := by
      rw [hb]; exact State.ctxState_congr (State.regsBut_setCtx _ _ _ [] _ List.not_mem_nil)
    rw [hd, hbd', hab', ha, (s.tearing_spec x).1]
  have hdrop := State.dropUnreleased_of_empty (s := d) (x := x) (by rw [hdinsts, hadsp, hinsts]) (by rw [hdtokens, hadsp, htokens])
    (by rw [hstate]; decide)
  have hshown := (d.queuesDropped x).writesOnly_instShown x
  have hregs : s.regsBut ((d.queuesDropped x).instShown x) (teardownRegs x) :=
    .trans (hsa.regs.mono (by simp [teardownRegs])) (hab.trans (hbd.trans
      (.trans (d.regsBut_queuesDropped x _) (hshown.regs.mono (by simp [teardownRegs])))))
  have hcfg : ((d.queuesDropped x).instShown x).cfg = s.cfg := by
    rw [hshown.keeps State.cfg fun _ => rfl, (d.cfg_queuesDropped x).1, hdcfg, hsa.keeps State.cfg fun _ => rfl]
  have hpart : ((d.queuesDropped x).instShown x).part = s.part := by
    rw [hshown.keeps State.part fun _ => rfl, (d.cfg_queuesDropped x).2, hdpart, hsa.keeps State.part fun _ => rfl]
  have hnone := State.ctxLanes_congr hpart hcfg (fun k => hregs _ (stkShCfg_notMem_teardownRegs k x)) x
  rw [State.startTeardown_eq, ← ha, ← hb, ← hd]
  dsimp only
  rw [hdrop, hnone, hlanes]
  rfl

/-- What such a teardown leaves. -/
theorem State.startTeardown_spec (hinsts : s.dsp.insts = []) (htokens : s.dsp.tokens = []) (hlanes : s.ctxLanes x = []) :
    (s.startTeardown x).ctxState x = 4 ∧ (s.startTeardown x).ctxGen x = (s.ctxGen x + 1) % 16 ∧
      ((s.startTeardown x).ctx x).genAt = some s.timeUs ∧
      (s.startTeardown x).isSet (R.dspCxCtrl x) F.dspCxCtrlTeardown = true := by
  obtain ⟨hstate, hgen, hset⟩ := s.tearing_spec x
  obtain ⟨d, hd⟩ : ∃ d, d = ((s.tearing x).tearingCtx x).dropSave x := ⟨_, rfl⟩
  have hshown := (d.queuesDropped x).writesOnly_instShown x
  have hlast (a : Nat) (ha : a ∉ [R.dspInst, R.dspCxInflight x]) : ((d.queuesDropped x).instShown x).reg a = d.reg a :=
    (hshown.regs a ha).trans (d.regsBut_queuesDropped x [] a List.not_mem_nil)
  have hctrl : R.dspCxCtrl x ∉ [R.dspInst, R.dspCxInflight x] := by
    simp only [List.mem_cons, List.not_mem_nil, or_false, not_or, R.dspCxCtrl, R.dspInst, R.dspCxInflight]; omega
  have hreg : d.reg (R.dspCxState x) = (s.tearing x).reg (R.dspCxState x) := by
    rw [hd]
    exact (((s.tearing x).tearingCtx x).dropSave_spec x).2.2 _ (by simpa using dspCxState_ne_dspCxCtrl x x)
  have hmark : d.isSet (R.dspCxCtrl x) F.dspCxCtrlTeardown = (s.tearing x).isSet (R.dspCxCtrl x) F.dspCxCtrlTeardown := by
    rw [hd, State.dropSave, State.isSet_setF_field _ _ _ _ _ (by decide) (by decide)]
    rfl
  have htime : (s.tearing x).timeUs = s.timeUs := (s.writesOnly_tearing x).keeps State.timeUs fun _ => rfl
  have hctx : (d.ctx x).genAt = some s.timeUs := by
    rw [hd, (((s.tearing x).tearingCtx x).dropSave_spec x).2.1, State.tearingCtx, State.ctx_setCtx, htime]
  rw [State.startTeardown_of_empty hinsts htokens hlanes, ← hd]
  refine ⟨?_, ?_, ?_, ?_⟩
  · rw [State.ctxState_congr (hlast _ (dspCxState_notMem_instShown x)), State.ctxState_congr hreg, hstate]
  · rw [State.ctxGen_congr (hlast _ (dspCxState_notMem_instShown x)), State.ctxGen_congr hreg, hgen]
  · rw [State.ctx_congr (hshown.keeps State.dsp fun _ => rfl), State.ctx_congr (d.queuesDropped_dsp x), hctx]
  · rw [State.isSet_congr (hlast _ hctrl), hmark, hset]

/-! ### The end of a teardown -/

/-- The registers at the end of a teardown of context `x`. -/
def State.teardownShown (s : State) (x : Nat) : State :=
  (((s.setF (R.dspCxState x) F.dspCxStateState 1).setF (R.dspCxCtrl x) F.dspCxCtrlTeardown 0).raise (R.dspCxState x)
    F.dspCxStateTdDone (R.dspCxTdEvt x)).countF (R.dspCxInflight x) F.dspCxInflightTdCount

theorem State.endTeardown_eq (s : State) (x : Nat) : ∃ v : State, s.endTeardown x = v.teardownShown x := ⟨_, rfl⟩

theorem State.teardownShown_spec (s : State) (x : Nat) : (s.teardownShown x).ctxState x = 1 ∧
    (s.teardownShown x).isSet (R.dspCxCtrl x) F.dspCxCtrlTeardown = false ∧
    (s.teardownShown x).isSet (R.dspCxState x) F.dspCxStateTdDone = true := by
  obtain ⟨v, hv⟩ : ∃ v, v = (s.setF (R.dspCxState x) F.dspCxStateState 1).setF (R.dspCxCtrl x) F.dspCxCtrlTeardown 0 := ⟨_, rfl⟩
  have hevt : R.dspCxState x ≠ R.dspCxTdEvt x := by simp only [R.dspCxState, R.dspCxTdEvt]; omega
  have hevtCtrl : R.dspCxCtrl x ≠ R.dspCxTdEvt x := by simp only [R.dspCxCtrl, R.dspCxTdEvt]; omega
  have hin : R.dspCxState x ≠ R.dspCxInflight x := by simp only [R.dspCxState, R.dspCxInflight]; omega
  have hinCtrl : R.dspCxCtrl x ≠ R.dspCxInflight x := by simp only [R.dspCxCtrl, R.dspCxInflight]; omega
  have hstate : v.ctxState x = 1 := by
    rw [hv, State.ctxState_congr (State.reg_setF_dspCxCtrl _ _ _ _ _), State.ctxState_setF_state]
  have hctrl : v.isSet (R.dspCxCtrl x) F.dspCxCtrlTeardown = false := by
    rw [hv]
    exact State.isSet_setF_self _ _ _ _ (by decide)
  rw [State.teardownShown, ← hv]
  refine ⟨?_, ?_, ?_⟩
  · rw [State.countF, State.ctxState, State.getF_setF_ne _ _ _ _ hin, State.getF_raise_field _ hevt (by decide) (by decide)]
    exact hstate
  · rw [State.countF, State.isSet_setF_ne _ _ _ _ hinCtrl,
      State.isSet_raise_ne _ _ _ _ _ (dspCxState_ne_dspCxCtrl x x).symm hevtCtrl, hctrl]
  · rw [State.countF, State.isSet_setF_ne _ _ _ _ hin]
    exact State.isSet_raise_self _ _ _ _ hevt (by decide) (by decide)

/-! ### A teardown that does not end -/

/-- The registers of context `x` as it enters FAULTED. -/
def State.faultedRegs (s : State) (x : Nat) : State :=
  (s.setF (R.dspCxState x) F.dspCxStateState 5).setF (R.dspCxCtrl x) F.dspCxCtrlTeardown 0

/-- A context that enters FAULTED is shown and reported. -/
def State.faultedShown (s : State) (x : Nat) : State :=
  (s.raise R.dspStatus F.dspStatusTdFault R.dspTdfEvt).report (Src.ctx x) E.dspTeardownTimeout (Rep.fw 1)

theorem State.heldBy_congr (hstk : u.stk = s.stk) (hmc : u.mc = s.mc) (x : Nat) : u.heldBy x = s.heldBy x := by
  simp only [State.heldBy, hstk, hmc]

theorem State.writesOnly_faultedRegs (s : State) (x : Nat) : s.WritesOnly (s.faultedRegs x) [R.dspCxState x, R.dspCxCtrl x] :=
  ((State.WritesOnly.refl s _).setF (by simp) _ _).setF (by simp) _ _

theorem State.ctxFaulted_of_idle (hheld : s.heldBy x = []) : s.ctxFaulted x = (s.faultedRegs x).faultedShown x := by
  have hwrites := s.writesOnly_faultedRegs x
  have hnone : ((s.faultedRegs x).faultedShown x).heldBy x = [] := by
    refine (State.heldBy_congr ?_ ?_ x).trans hheld
    · exact (State.report_stk _ _ _ _ _).trans ((State.raise_stk _ _ _ _).trans (hwrites.keeps State.stk fun _ => rfl))
    · exact (State.report_mc _ _ _ _ _).trans ((State.raise_mc _ _ _ _).trans (hwrites.keeps State.mc fun _ => rfl))
  have hfold : s.ctxFaulted x = (((s.faultedRegs x).faultedShown x).heldBy x).foldl
      (fun v e => v.rung1 e.1 e.2 ⟨E.dspTeardownTimeout, x, s.ctxGen x, 0xFFFF, 0, 0⟩ (0xFFFF + 2 ^ 16 * (0x8000 + x)) false)
      ((s.faultedRegs x).faultedShown x) := rfl
  rw [hfold, hnone]
  rfl

theorem State.faulted_spec (s : State) (x : Nat) : ((s.faultedRegs x).faultedShown x).ctxState x = 5 ∧
    ((s.faultedRegs x).faultedShown x).isSet R.dspStatus F.dspStatusTdFault = true ∧
    ((s.faultedRegs x).faultedShown x).reg R.dspTdfEvt = satInc (s.reg R.dspTdfEvt) 1 := by
  obtain ⟨hset, hcount⟩ := (s.faultedRegs x).raise_report_spec (a := R.dspStatus) (e := R.dspTdfEvt) (f := F.dspStatusTdFault)
    (Src.ctx x) E.dspTeardownTimeout (Rep.fw 1) 0 (by decide) (by decide) (by decide) (by decide) (by decide)
  have hflt : R.dspCxState x ≠ R.fltOpen ∧ R.dspCxState x ≠ R.fltStatus ∧ R.dspCxState x ≠ R.fltNewsrcEvt ∧
      R.dspCxState x ≠ R.fltOvfEvt := by
    simp only [R.dspCxState, R.fltOpen, R.fltStatus, R.fltNewsrcEvt, R.fltOvfEvt]; omega
  have hstatus : R.dspCxState x ≠ R.dspStatus ∧ R.dspCxState x ≠ R.dspTdfEvt := by
    simp only [R.dspCxState, R.dspStatus, R.dspTdfEvt]; omega
  have hevt : R.dspTdfEvt ∉ [R.dspCxState x, R.dspCxCtrl x] := by
    simp only [List.mem_cons, List.not_mem_nil, or_false, not_or, R.dspTdfEvt, R.dspCxState, R.dspCxCtrl]; omega
  have hreg : ((s.faultedRegs x).faultedShown x).reg (R.dspCxState x) = (s.faultedRegs x).reg (R.dspCxState x) :=
    (State.reg_report _ _ _ _ _ hflt).trans (State.reg_raise_ne _ _ _ _ hstatus.1 hstatus.2)
  refine ⟨?_, hset, hcount.trans (congrArg (satInc · 1) ((s.writesOnly_faultedRegs x).regs _ hevt))⟩
  rw [State.ctxState_congr hreg, State.faultedRegs, State.ctxState_congr (State.reg_setF_dspCxCtrl _ _ _ _ _),
    State.ctxState_setF_state]

theorem State.teardownLate_of_late (hstate : s.ctxState x = 4) (hkept : s.rcvP P.rcvFaultedCtxDrr ≠ 1)
    (hcfg : (s.ctxFaulted x).rcvP P.rcvFaultedCtxDrr = s.rcvP P.rcvFaultedCtxDrr)
    (hlate : (s.ctx x).tdAt + 2000 ≤ s.timeUs) : s.teardownLate x = s.ctxFaulted x :=
  (if_pos ⟨hstate, hlate⟩).trans (if_neg (by rw [hcfg]; exact hkept))

end

end Sys2Proof.Machine
end


section
/-! PROOF. What outputs, tasks, rungs of the ladder and gated domains leave alone: the part, the time, the configuration image,
the mark of HBM training and the record of device recovery resets. -/

namespace Sys2Proof.Machine

/-- The part, the time, the configuration, the mark of HBM training and the record of recovery resets are in `u` as in `s`. -/
structure State.SetupKept (s u : State) : Prop where
  part : u.part = s.part
  time : u.timeUs = s.timeUs
  cfg : u.cfg = s.cfg
  trained : u.sys.trained = s.sys.trained
  drrAt : u.flt.drrAt = s.flt.drrAt
  drrTimes : u.flt.drrTimes = s.flt.drrTimes

namespace State.SetupKept
variable {s u w : State}

theorem refl (s : State) : s.SetupKept s := ⟨rfl, rfl, rfl, rfl, rfl, rfl⟩

theorem trans (h : s.SetupKept u) (k : u.SetupKept w) : s.SetupKept w :=
  ⟨k.part.trans h.part, k.time.trans h.time, k.cfg.trans h.cfg, k.trained.trans h.trained, k.drrAt.trans h.drrAt, k.drrTimes.trans h.drrTimes⟩

/-! ### Writes, reports, and changes of other units -/

/-- A change of registers and the other units. -/
theorem hidden (h : s.SetupKept u) {fresh : Nat} {regs : Tab Word} {wire : List Wire} {lck : LckUnit} {prt : PrtUnit}
    {pst : PstUnit} {stk : StkUnit} {dsp : DspUnit} {mc : CoreUnit} {cal : CalUnit} {pwr : PwrUnit} {thm : ThmUnit}
    {mon : MonUnit} {sdm : SdmUnit} {pending : List Instr} : s.SetupKept
      (State.mk u.part u.timeUs fresh regs u.cfg wire lck prt u.flt pst stk dsp mc cal pwr thm mon sdm u.sys pending) :=
  h.trans ⟨rfl, rfl, rfl, rfl, rfl, rfl⟩

/-- A change of the fault unit that leaves the record of recovery resets. -/
theorem flt (h : s.SetupKept u) {f : FltUnit} (hat : f.drrAt = u.flt.drrAt) (htimes : f.drrTimes = u.flt.drrTimes) :
    s.SetupKept { u with flt := f } := h.trans ⟨rfl, rfl, rfl, rfl, hat, htimes⟩

theorem setReg (h : s.SetupKept u) (a : Nat) (v : Word) : s.SetupKept (u.setReg a v) := h.hidden

theorem setF (h : s.SetupKept u) (a : Nat) (f : Field) (v : Nat) : s.SetupKept (u.setF a f v) := h.setReg _ _

theorem setNat (h : s.SetupKept u) (a v : Nat) : s.SetupKept (u.setNat a v) := h.setReg _ _

theorem count (h : s.SetupKept u) (a n : Nat) : s.SetupKept (u.count a n) := h.setReg _ _

theorem countF (h : s.SetupKept u) (a : Nat) (f : Field) : s.SetupKept (u.countF a f) := h.setF _ _ _

theorem raise (h : s.SetupKept u) (a : Nat) (f : Field) (e : Nat) : s.SetupKept (u.raise a f e) := (h.setF _ _ _).count _ _

theorem emit (h : s.SetupKept u) (x : Wire) : s.SetupKept (u.emit x) := h.hidden

theorem ite {p : Prop} {_ : Decidable p} (h : s.SetupKept u) (k : s.SetupKept w) : s.SetupKept (if p then u else w) := by
  split <;> assumption

theorem foldl {α : Type} {f : State → α → State} {l : List α} (h : s.SetupKept u)
    (hstep : ∀ v, s.SetupKept v → ∀ x ∈ l, s.SetupKept (f v x)) : s.SetupKept (l.foldl f u) :=
  State.foldl_induction h hstep

theorem syncOpen (h : s.SetupKept u) : s.SetupKept u.syncOpen := (h.setF _ _ _).setF _ _ _

theorem report (h : s.SetupKept u) (src code rep d : Nat) : s.SetupKept (u.report src code rep d) := by
  unfold State.report
  split
  · exact h.flt rfl rfl
  · dsimp only
    split
    · refine .raise (.syncOpen ?_) _ _ _
      exact h.trans ⟨rfl, rfl, rfl, rfl, rfl, rfl⟩
    · refine .raise ?_ _ _ _
      exact h.trans ⟨rfl, rfl, rfl, rfl, rfl, rfl⟩

/-! ### Ports and outputs -/

theorem setPort (h : s.SetupKept u) (p : Nat) (x : PortSt) : s.SetupKept (u.setPort p x) := h.hidden

theorem putFrame (h : s.SetupKept u) (p t : Nat) (payload ext : Bytes) : s.SetupKept (u.putFrame p t payload ext) :=
  (h.setPort _ _).emit _

theorem sendFrame (h : s.SetupKept u) (p t : Nat) (payload ext : Bytes) : s.SetupKept (u.sendFrame p t payload ext) :=
  .ite (.ite (h.putFrame _ _ _ _) (h.raise _ _ _)) h

theorem setPortState (h : s.SetupKept u) (p st : Nat) : s.SetupKept (u.setPortState p st) := (h.setF _ _ _).setPort _ _

theorem enterTrain (h : s.SetupKept u) (p : Nat) : s.SetupKept (u.enterTrain p) :=
  (((h.setPortState _ _).setF _ _ _).setReg _ _).setPort _ _

theorem syncSlots (h : s.SetupKept u) : s.SetupKept u.syncSlots := (h.setF _ _ _).setF _ _ _

theorem freeSlot (h : s.SetupKept u) (i : Nat) : s.SetupKept (u.freeSlot i) := by
  have hgone : s.SetupKept { u with lck := { u.lck with slots := u.lck.slots.del i } } := h.hidden
  exact hgone.syncSlots

theorem setSlot (h : s.SetupKept u) (i : Nat) (x : Slot) : s.SetupKept (u.setSlot i x) := h.hidden

theorem refreshGpio (h : s.SetupKept u) : s.SetupKept u.refreshGpio := .ite h ((h.setF _ _ _).emit _)

theorem refreshHold (h : s.SetupKept u) : s.SetupKept u.refreshHold := h.foldl fun _ hv _ _ => hv.setF _ _ _

theorem dacCopy (h : s.SetupKept u) (ch : Nat) : s.SetupKept (u.dacCopy ch) := by
  unfold State.dacCopy
  exact .hidden (.setF (.setF (.setF h _ _ _) _ _ _) _ _ _)

theorem dacStrobe (h : s.SetupKept u) : s.SetupKept u.dacStrobe := by
  have hcopied : s.SetupKept ((List.range 8).foldl State.dacCopy u) := h.foldl fun _ hv _ _ => hv.dacCopy _
  exact (hcopied.count _ _).foldl fun _ hv _ _ => .ite (hv.raise _ _ _) hv

theorem setFireQ (h : s.SetupKept u) (ap : Nat) (q : List WaitFire) : s.SetupKept (u.setFireQ ap q) := .ite h.hidden h.hidden

theorem putFire (h : s.SetupKept u) (ap : Nat) (payload : Bytes) : s.SetupKept (u.putFire ap payload) := by
  have hsent : s.SetupKept ((u.putFrame (apPort ap) 0x41 payload).count (if ap = 0 then R.actFire0 else R.actFire1)) :=
    (h.putFrame _ _ _ _).count _ _
  exact .ite hsent.hidden hsent.hidden

theorem fire (h : s.SetupKept u) (l : Nat) (p : Pos) (payload : Bytes) : s.SetupKept (u.fire l p payload) :=
  .ite (.ite (.ite (h.putFire _ _) (h.setFireQ _ _)) (h.raise _ _ _)) h

theorem doOut (h : s.SetupKept u) (o : LocalOut) : s.SetupKept (u.doOut o).1 := by
  unfold State.doOut
  cases o.kind with
  | gpio _ => exact h
  | dacLoad => exact h.dacStrobe
  | irq _ => exact h.emit _

theorem armOut (h : s.SetupKept u) (e : Nat) (o : LocalOut) : s.SetupKept (u.armOut e o).1 := by
  unfold State.armOut
  dsimp only
  split
  · split
    · exact (h.raise _ _ _).doOut _
    · exact (h.raise _ _ _).report _ _ _ _
  · exact h

theorem armOuts (h : s.SetupKept u) (e : Nat) (os : List LocalOut) : s.SetupKept (u.armOuts e os).1 := by
  induction os generalizing u with
  | nil => exact h
  | cons o os ih => exact ih (h.armOut e o)

theorem freeIfDone (h : s.SetupKept u) (i : Nat) : s.SetupKept (u.freeIfDone i) := by
  unfold State.freeIfDone
  split
  · exact .ite (h.freeSlot _) h
  · exact h

theorem armFlags (h : s.SetupKept u) (l : Nat) (a : Arm) (call : Nat) : s.SetupKept (u.armFlags l a call) := by
  have hlate : s.SetupKept (if a.lateOpen then
      (u.raise R.actStatus F.actStatusLateOpen R.actLateoEvt).report (Src.lane l) E.actLateOpen Rep.lineClock call else u) :=
    .ite ((h.raise _ _ _).report _ _ _ _) h
  exact .ite ((hlate.raise _ _ _).report _ _ _ _) hlate

theorem commitSlot (h : s.SetupKept u) (i : Nat) (o : ObjSlot) (action : Nat) (isDefault : Bool) (p : Pos) :
    s.SetupKept (u.commitSlot i o action isDefault p) := by
  unfold State.commitSlot
  refine .ite (h.freeSlot _) ?_
  have hfired := h.armFlags o.lane (u.armCalc o.lane o.pLead p o.xMin o.xMax action) o.call
  exact (((State.SetupKept.armOuts (.ite (hfired.fire _ _ _) hfired) _ _).setSlot _ _).refreshGpio).freeIfDone _

theorem windfall (h : s.SetupKept u) (l : Nat) (c : WfCause) : s.SetupKept (u.windfall l c) := (h.raise _ _ _).count _ _

theorem defaultSlot (h : s.SetupKept u) (i : Nat) (o : ObjSlot) (c : WfCause) (p : Pos) : s.SetupKept (u.defaultSlot i o c p) :=
  .ite (h.freeSlot _) ((h.windfall _ _).commitSlot _ _ _ _ _)

theorem defaultNow (h : s.SetupKept u) (i : Nat) (c : WfCause) : s.SetupKept (u.defaultNow i c) := by
  unfold State.defaultNow
  split
  · exact .ite h (h.defaultSlot _ _ _ _)
  · exact h

theorem defaultLane (h : s.SetupKept u) (l : Nat) (c : WfCause) : s.SetupKept (u.defaultLane l c) := by
  refine h.foldl fun v hv i _ => ?_
  split
  · exact .ite (hv.defaultNow _ _) hv
  · exact hv

theorem markSlot (h : s.SetupKept u) (i : Nat) : s.SetupKept (u.markSlot i) := by
  unfold State.markSlot
  split
  · exact .ite h (.setSlot (.ite (h.count _ _) h) _ _)
  · exact h

theorem markCall (h : s.SetupKept u) (call : Nat) : s.SetupKept (u.markCall call) := h.foldl fun _ hv _ _ => hv.markSlot _

theorem holdOutputs (h : s.SetupKept u) : s.SetupKept u.holdOutputs := by
  have hheld : s.SetupKept (u.setF R.actCtrl F.actCtrlSafeState 1) := h.setF _ _ _
  exact (((hheld.hidden (lck := _)).syncSlots).refreshHold).refreshGpio

theorem enterSafe (h : s.SetupKept u) (reason : Nat) (frames : Bool) : s.SetupKept (u.enterSafe reason frames) := by
  have hheld := h.holdOutputs
  exact .ite h (((State.SetupKept.ite ((hheld.sendFrame _ _ _ _).sendFrame _ _ _ _) hheld).raise _ _ _).report _ _ _ _)

/-! ### Detach and heartbeats -/

theorem detachEffects (h : s.SetupKept u) (p : Nat) : s.SetupKept (u.detachEffects p) :=
  .ite (h.foldl fun _ hv _ _ => .ite (hv.defaultLane _ _) hv) (.ite h ((h.setFireQ _ _).foldl fun _ hv _ _ => hv.raise _ _ _))

theorem detach (h : s.SetupKept u) (p cause reason : Nat) : s.SetupKept (u.detach p cause reason) := by
  have htrain := ((h.raise (R.prtStatus p) F.prtStatusDetach (R.prtDetEvt p)).report (Src.port p) E.prtDetached (Rep.fw 3)
    (cause + 65536 * reason)).enterTrain p
  exact .ite (.detachEffects (.ite htrain (htrain.setPortState _ _)) _) h

theorem sendDetach (h : s.SetupKept u) (p cause reason : Nat) : s.SetupKept (u.sendDetach p cause reason) :=
  .ite ((h.putFrame _ _ _ _).detach _ _ _) h

theorem castHeartbeat (h : s.SetupKept u) : s.SetupKept u.castHeartbeat := by
  have hseq : s.SetupKept u.nextHbSeq.2 := h.hidden
  exact .ite ((hseq.sendFrame _ _ _ _).sendFrame _ _ _ _) h

/-! ### The mailbox and FAULT_N -/

theorem closeF2 (h : s.SetupKept u) : s.SetupKept u.closeF2 := by
  refine .trans ((h.setF R.sdmF2State F.sdmF2StateOpen 0).setReg R.sdmF2Left 0) ?_
  exact (State.SetupKept.refl _).hidden

theorem placeReply (h : s.SetupKept u) (bs : Bytes) : s.SetupKept (u.placeReply bs) := by
  refine .raise (.setF (.setF ?_ _ _ _) _ _ _) _ _ _
  exact h.hidden

theorem finalLong (h : s.SetupKept u) (code : Nat) : s.SetupKept (u.finalLong code) := by
  unfold State.finalLong
  split
  · exact h
  · have hended : s.SetupKept { u with sdm := { u.sdm with long := none } } := h.hidden
    have hshown := hended.setF R.sdmMbState F.sdmMbStateLongBusy 0
    exact .ite hshown.hidden (hshown.placeReply _)

theorem abortMailbox (h : s.SetupKept u) (code : Nat) : s.SetupKept (u.abortMailbox code) := by
  refine .closeF2 ?_
  exact (h.finalLong code).hidden

theorem assertFault (h : s.SetupKept u) : s.SetupKept u.assertFault := by
  refine .ite h (.emit ?_ _)
  exact h.trans ⟨rfl, rfl, rfl, rfl, rfl, rfl⟩

/-! ### Tasks -/

theorem syncOcc (h : s.SetupKept u) (c : Nat) : s.SetupKept (u.syncOcc c) := (h.setF _ _ _).setF _ _ _

theorem freeAcc (h : s.SetupKept u) (c e : Nat) : s.SetupKept (u.freeAcc c e) := by
  refine .syncOcc ?_ c
  exact h.hidden

theorem instShown (h : s.SetupKept u) (x : Nat) : s.SetupKept (u.instShown x) :=
  (((h.setF _ _ _).setF _ _ _).setF _ _ _).setF _ _ _

theorem drained (h : s.SetupKept u) (x : Nat) : s.SetupKept (u.drained x) := .ite (h.setF _ _ _) h

theorem syncInst (h : s.SetupKept u) (x : Nat) : s.SetupKept (u.syncInst x) := by
  rw [State.syncInst_eq]
  exact (h.instShown x).drained x

theorem dropToken (h : s.SetupKept u) (n : Nat) : s.SetupKept (u.dropToken n) := .ite h h.hidden

theorem removeInst (h : s.SetupKept u) (i : Nat) : s.SetupKept (u.removeInst i) := h.hidden

theorem dropDeps (h : s.SetupKept u) (x : Inst) : s.SetupKept (u.dropDeps x) := by
  unfold State.dropDeps
  split
  · exact h
  · exact h.hidden

theorem finishInst (h : s.SetupKept u) (i : Nat) : s.SetupKept (u.finishInst i) := by
  unfold State.finishInst
  split
  · exact h
  · exact (h.dropDeps _).removeInst _

theorem dropInputs (h : s.SetupKept u) (p : Nat → Bool) : s.SetupKept (u.dropInputs p) := by
  refine .foldl ?_ fun _ hv _ _ => hv.freeAcc _ _
  exact h.hidden

theorem markToken (h : s.SetupKept u) (k : Token) : s.SetupKept (u.markToken k) := by
  unfold State.markToken
  split
  · refine .markCall ?_ _
    exact h.hidden
  · exact h

theorem cancelToken (h : s.SetupKept u) (n : Nat) : s.SetupKept (u.cancelToken n) := by
  unfold State.cancelToken
  split
  · exact h
  · exact ((State.SetupKept.dropInputs (h.foldl fun _ hv _ _ => hv.removeInst _) _).dropToken _).syncInst _

theorem setInst (h : s.SetupKept u) (i : Nat) (x : Inst) : s.SetupKept (u.setInst i x) := h.hidden

theorem setToken (h : s.SetupKept u) (n : Nat) (k : Token) : s.SetupKept (u.setToken n k) := h.hidden

theorem closeGather (h : s.SetupKept u) (g : Nat) : s.SetupKept (u.closeGather g) := by
  unfold State.closeGather
  split
  · exact h
  · refine .foldl ?_ fun v hv i _ => ?_
    · exact h.hidden
    · split
      · refine .setInst ?_ _ _
        exact hv.hidden
      · exact hv

theorem gatherInst (h : s.SetupKept u) (i : Nat) (x : Inst) (t : TaskRec) (k : Token) : s.SetupKept (u.gatherInst i x t k) := by
  have hjoined (v : State × Nat) (hv : s.SetupKept v.1) (op : StateOp) :
      s.SetupKept (match v.1.dsp.gathers.get? v.2 with
        | some ga => if op.batchBuckets.foldl max 1 ≤ (v.1.callsOf ga).length then v.1.closeGather v.2 else v.1
        | none => v.1) := by
    split
    · exact .ite (hv.closeGather _) hv
    · exact hv
  unfold State.gatherInst
  split
  · exact h.finishInst i
  · refine hjoined _ ?_ _
    dsimp only
    split
    · exact (h.setInst i _).hidden
    · exact (h.setInst i _).hidden

theorem makeReady (h : s.SetupKept u) (i : Nat) (x : Inst) (t : TaskRec) (k : Token) : s.SetupKept (u.makeReady i x t k) := by
  unfold State.makeReady
  split
  · exact h.gatherInst _ _ _ _
  · exact h.finishInst _
  · exact h.setInst _ _
  · refine .setInst ?_ _ _
    exact h.hidden

theorem noCopy (h : s.SetupKept u) (n : Nat) (k : Token) : s.SetupKept (u.noCopy n k) :=
  (((h.raise _ _ _).report _ _ _ _).markToken _).cancelToken _

theorem advance (h : s.SetupKept u) (i : Nat) (x : Inst) (t : TaskRec) (n : Nat) (k : Token) :
    s.SetupKept (u.advance i x t n k) := by
  unfold State.advance
  refine .ite ?_ (h.makeReady _ _ _ _)
  split
  · exact h.makeReady _ _ _ _
  · split
    · exact h.noCopy _ _
    · exact (h.setToken _ _).makeReady _ _ _ _

theorem settleGo (fuel : Nat) (h : s.SetupKept u) : s.SetupKept (State.settleGo fuel u) := by
  induction fuel generalizing u with
  | zero => exact h
  | succ n ih =>
    rw [State.settleGo]
    split
    · exact h
    · refine ih ?_
      split
      · exact h.finishInst _
      · exact h.advance _ _ _ _ _

theorem settle (h : s.SetupKept u) (x : Nat) : s.SetupKept (u.settle x) :=
  ((h.settleGo _).foldl fun _ hv _ _ => hv.dropToken _).syncInst x

theorem loseTokens (h : s.SetupKept u) (p : Nat → Token → Bool) : s.SetupKept (u.loseTokens p) :=
  h.foldl fun _ hv _ _ => ((hv.markToken _).cancelToken _).settle _

theorem dropLostCopies (h : s.SetupKept u) : s.SetupKept u.dropLostCopies :=
  h.foldl fun _ hv _ _ => ((hv.markToken _).cancelToken _).settle _

/-! ### The store and jobs -/

theorem syncQueue (h : s.SetupKept u) : s.SetupKept u.syncQueue := h.setF _ _ _

theorem enqueue (h : s.SetupKept u) (cls : Nat) (k : PKind) : s.SetupKept (u.enqueue cls k) := by
  refine .syncQueue ?_
  exact h.hidden

theorem writeRec (h : s.SetupKept u) (type : Nat) (payload : Bytes) (waits : Bool) (cls : Option Nat) :
    s.SetupKept (u.writeRec type payload waits cls) := by
  refine .ite (h.report _ _ _ _) (.enqueue ?_ _ _)
  exact h.hidden

theorem writeJournal (h : s.SetupKept u) (st : Nat) : s.SetupKept (u.writeJournal st) := h.writeRec _ _ _ _

theorem openJob (h : s.SetupKept u) (k : JobKind) (tiles : List Nat) : s.SetupKept (u.openJob k tiles) := by
  refine .writeJournal ?_ _
  exact h.hidden

theorem closeJob (h : s.SetupKept u) (n st : Nat) : s.SetupKept (u.closeJob n st) := by
  refine .writeJournal (.writeRec ?_ _ _ _ _) _
  exact h.hidden

theorem setPTile (h : s.SetupKept u) (p : Nat) (x : TileRt) : s.SetupKept (u.setPTile p x) := h.hidden

theorem abandonJobs (h : s.SetupKept u) (p : Job → Bool) : s.SetupKept (u.abandonJobs p) := by
  refine h.foldl fun v hv e _ => .closeJob ?_ _ _
  have hstopped : s.SetupKept (e.2.tiles.foldl (fun s p => s.setPTile p { s.pTile p with prog := none }) v) :=
    hv.foldl fun _ hw _ _ => hw.setPTile _ _
  dsimp only
  split
  · refine .report ?_ _ _ _ _
    exact hstopped.hidden
  · exact hstopped.hidden

theorem dropFor (fuel n : Nat) (got : List Nat) (h : s.SetupKept u) : s.SetupKept (u.dropFor fuel n got).1 := by
  induction fuel generalizing u got with
  | zero => exact h
  | succ fuel ih =>
    rw [State.dropFor]
    split
    · exact h
    · split
      · exact h
      · exact ih _ h.hidden

theorem repairCore (h : s.SetupKept u) (c : Nat) : s.SetupKept (u.repairCore c) := by
  unfold State.repairCore
  refine .ite h ?_
  have hdropped (n : Nat) := h.dropFor 64 n []
  have hshort (n m : Nat) (p : Prop) (_ : Decidable p) : s.SetupKept (if p then
      (u.dropFor 64 n []).1.report (Src.core c) E.calRepairShort (Rep.fw 2) m else (u.dropFor 64 n []).1) :=
    .ite ((hdropped n).report _ _ _ _) (hdropped n)
  exact .ite (hshort _ _ _ _).dropLostCopies ((hshort _ _ _ _).dropLostCopies.openJob _ _)

/-! ### Domains that are gated -/

theorem setTileState (h : s.SetupKept u) (c t st : Nat) : s.SetupKept (u.setTileState c t st) :=
  ((h.setF _ _ _).setF _ _ _).setF _ _ _

theorem tilesOff (h : s.SetupKept u) (c st : Nat) : s.SetupKept (u.tilesOff c st) := by
  refine .foldl ?_ fun _ hv _ _ => (hv.setTileState _ _ _).setF _ _ _
  exact h.hidden

theorem compareXchk (h : s.SetupKept u) : s.SetupKept u.compareXchk := by
  have hshown (v : State) (hv : s.SetupKept v) (d : Nat) :
      s.SetupKept ((v.setF R.monXchkLast F.monXchkLastCodes d).setF R.monXchkLast F.monXchkLastValid 1) :=
    (hv.setF _ _ _).setF _ _ _
  unfold State.compareXchk
  split
  · dsimp only
    split
    · refine .ite (.report (.raise (hshown _ ?_ _) _ _ _) _ _ _ _) (hshown _ ?_ _)
      · exact h.hidden
      · exact h.hidden
    · exact h.hidden
  · exact h

theorem losePower (h : s.SetupKept u) : s.SetupKept u.losePower := by
  have hcut (v : State) (hv : s.SetupKept v) : s.SetupKept ((({ v with pst := { v.pst with
      run := none, queue := [], lastEnd := none, countDue := [] } } : State).syncQueue).setF R.pstState F.pstStateBusy 0) := by
    refine .setF (.syncQueue ?_) _ _ _
    exact hv.hidden
  unfold State.losePower
  refine hcut _ ?_
  split
  · exact h
  · exact h.hidden

/-- A domain's own loss when it goes off. -/
theorem domOff (h : s.SetupKept u) (d : Nat) : s.SetupKept (u.domOff d) := by
  have hcut : s.SetupKept (u.domCut d) := (h.setNat _ _).hidden
  have hport (p : Nat) : s.SetupKept (((if (u.domCut d).attached p then (u.domCut d).detach p 5 else u.domCut d).enterTrain
      p).setPortState p 0) := .setPortState (.enterTrain (.ite (hcut.detach _ _ _) hcut) _) _ _
  have hcores (v : State) (hv : s.SetupKept v) :
      s.SetupKept { v with sys := { v.sys with ccUp := false }, flt := { v.flt with pending := [] } } :=
    hv.trans ⟨rfl, rfl, rfl, rfl, rfl, rfl⟩
  have hconv : s.SetupKept (u.domCut d).convBOff := by
    refine .compareXchk ?_
    exact hcut.hidden
  exact .ite (.ite (hcut.tilesOff _ _) (.ite hcut.hidden hcut))
    (.ite (hport _) (.ite (hcores _ hcut) (.ite hconv (.ite hcut.losePower (.ite hcut.hidden hcut)))))

theorem gateNow (h : s.SetupKept u) (d : Nat) : s.SetupKept (u.gateNow d) := by
  refine .setF (.setF (.domOff ?_ d) _ _ _) _ _ _
  exact h.hidden

/-! ### The ladder -/

theorem setLadder (h : s.SetupKept u) (c : Nat) (l : Ladder) : s.SetupKept (u.setLadder c l) := h.flt rfl rfl

theorem modSlot (h : s.SetupKept u) (n : Nat) (f : DumpSlot → DumpSlot) : s.SetupKept (u.modSlot n f) := h.flt rfl rfl

theorem climbSlots (h : s.SetupKept u) (c rung : Nat) (stop : Bool) : s.SetupKept (u.climbSlots c rung stop) :=
  h.foldl fun _ hv _ _ => hv.modSlot _ _

theorem fenceTiles (h : s.SetupKept u) (c : Nat) : s.SetupKept (u.fenceTiles c) :=
  State.SetupKept.dropLostCopies (h.foldl fun _ hv _ _ => hv.setTileState _ _ _)

theorem dropRuns (h : s.SetupKept u) (c : Nat) : s.SetupKept (u.dropRuns c) := by
  refine .foldl ?_ fun _ hv _ _ => hv.setF _ _ _
  exact h.hidden

theorem setDomReq (h : s.SetupKept u) (d : Nat) (b : Bool) : s.SetupKept (u.setDomReq d b) := h.setNat _ _

theorem rung3 (h : s.SetupKept u) (c detail : Nat) : s.SetupKept (u.rung3 c detail) := by
  have hshown := (((h.climbSlots c 3 true).setF R.fltCoreState ⟨2 * c, 2⟩ 3).raise R.fltStatus F.fltStatusCoreFence
    R.fltCfenEvt).raise R.fltHostStatus F.fltHostStatusFenced R.fltHfenEvt
  have hfenced (p : Nat → Token → Bool) :=
    ((hshown.report (Src.core c) E.fltCoreFenced Rep.power detail).fenceTiles c).loseTokens p
  exact .ite h (((((((hfenced _).setLadder _ _).setDomReq _ _).setDomReq _ _).setDomReq _ _).abandonJobs _).repairCore _)

theorem rung2 (h : s.SetupKept u) (c : Nat) : s.SetupKept (u.rung2 c) := by
  have hshown := (((h.climbSlots c 2 true).setF R.fltCoreState ⟨2 * c, 2⟩ 2).raise R.fltStatus F.fltStatusCoreCycle
    R.fltCycEvt).report (Src.core c) E.fltCoreCycled Rep.power 0
  have hlost (p : Nat → Token → Bool) := (hshown.fenceTiles c).loseTokens p
  exact .ite (h.rung3 _ _) (((((hlost _).dropRuns _).setLadder _ _).gateNow _).gateNow _)

theorem fenceWork (h : s.SetupKept u) (c e : Nat) : s.SetupKept (u.fenceWork c e) := by
  refine .ite (.loseTokens ?_ _) (.ite (h.loseTokens _) h)
  exact h.hidden

theorem rung1 (h : s.SetupKept u) (c e : Nat) (i : HangInfo) (detail : Nat) (timeout : Bool) :
    s.SetupKept (u.rung1 c e i detail timeout) := by
  have htaken : s.SetupKept (u.takeDump c e i).1 := h.flt rfl rfl
  have hshown (l : Ladder) := (((htaken.setLadder c l).setF R.fltCoreState ⟨2 * c, 2⟩ 1).raise R.fltStatus F.fltStatusEngFence
    R.fltEngEvt).report (Src.engine c e) E.fltEngineFenced Rep.dispatcher detail
  exact .ite h (.ite (((hshown _).fenceWork _ _).rung2 _) ((hshown _).fenceWork _ _))

end State.SetupKept

end Sys2Proof.Machine
end


section
/-! PROOF. A teardown that does not end (R292, R406), and O55. -/

namespace Sys2Proof.Machine

section
variable {s u : State} {x : Nat}

theorem State.SetupKept.rcvP (h : s.SetupKept u) (i : Nat) : u.rcvP i = s.rcvP i := by
  simp only [State.rcvP, State.par, State.param, h.part, h.cfg]

theorem State.SetupKept.ctxFaulted (h : s.SetupKept u) (x : Nat) : s.SetupKept (u.ctxFaulted x) :=
  State.SetupKept.foldl ((((h.setF _ _ _).setF _ _ _).raise _ _ _).report _ _ _ _) fun _ hv _ _ => hv.rung1 _ _ _ _ _

theorem State.teardownLate_of_fault (hstate : s.ctxState x = 4) (hkept : s.rcvP P.rcvFaultedCtxDrr ≠ 1)
    (hlate : (s.ctx x).tdAt + 2000 ≤ s.timeUs) : s.teardownLate x = s.ctxFaulted x :=
  State.teardownLate_of_late hstate hkept (((State.SetupKept.refl s).ctxFaulted x).rcvP _) hlate

end

/-- Settles O55: suspension, save, resumption, teardown, its end and its time-out in the cases of the statement. -/
theorem contextRows : Obligations.ContextRows := by
  intro s x
  refine ⟨fun hrun => ?suspends, fun hidle => ?notRunning, fun hsaving hrun hready => ?saves, fun hbusy => ?notReady,
    fun hrun => ?drops, fun hheld => ?resumes,
    fun hon h0 h4 h5 hfree => ⟨fun at_ hgen hsoon => ?deferred, fun hfirst => ?starts,
      fun hfirst hinsts htokens hlanes => ?tears⟩,
    fun hon hidle => ?refused, fun hoff => ?off, fun at_ hgen hwait => ⟨fun hearly => ?stillDeferred, fun hlate => ?resumed⟩,
    fun htear hnone => ?ends, fun hbusy => ?notEnded,
    fun htear hkept => ⟨fun hlate => ?faults, fun hlate hidle => ?faulted, fun hearly => ?early⟩⟩
  case suspends =>
    obtain ⟨hset, hctx, hregs⟩ := s.suspending_spec x
    refine ⟨_, congrArg Host.Outcome.next (if_pos hrun), hset, hctx, ?_, hregs⟩
    exact (State.ctxState_congr (hregs _ (by simpa using dspCxState_ne_dspCxCtrl x x))).trans hrun
  case notRunning => exact congrArg Host.Outcome.next (if_neg hidle)
  case saves => exact ⟨_, rfl, State.saveCtx_spec hsaving hrun hready⟩
  case notReady => exact congrArg Host.Outcome.next (State.saveCtx_of_not_ready hbusy)
  case drops => exact ⟨_, congrArg Host.Outcome.next (State.resumeCtx_of_running hrun), s.dropSave_spec x⟩
  case resumes => exact congrArg Host.Outcome.next (if_pos hheld)
  case deferred =>
    obtain ⟨hwait, hset, hreg⟩ := s.teardownWaiting_spec x
    have hwant := (State.wantTeardown_of_ready h0 h4 h5 hfree).trans (State.requestTeardown_of_soon hgen hsoon)
    exact ⟨_, congrArg Host.Outcome.next ((if_pos hon).trans hwant), hwait, hset, State.ctxState_congr hreg,
      State.ctxGen_congr hreg⟩
  case starts =>
    exact congrArg Host.Outcome.next ((if_pos hon).trans
      ((State.wantTeardown_of_ready h0 h4 h5 hfree).trans (State.requestTeardown_of_first hfirst)))
  case tears =>
    have hwant := (State.wantTeardown_of_ready h0 h4 h5 hfree).trans (State.requestTeardown_of_first hfirst)
    exact ⟨_, congrArg Host.Outcome.next ((if_pos hon).trans hwant), State.startTeardown_spec hinsts htokens hlanes⟩
  case refused => exact congrArg Host.Outcome.next ((if_pos hon).trans (State.wantTeardown_of_idle hidle))
  case off => exact congrArg Host.Outcome.next (if_neg (by rw [hoff]; exact Bool.false_ne_true))
  case stillDeferred =>
    exact congrArg Host.Outcome.next ((State.deferredTeardown_of_wait hgen hwait).trans (if_neg (Nat.not_le.2 hearly)))
  case resumed => exact congrArg Host.Outcome.next ((State.deferredTeardown_of_wait hgen hwait).trans (if_pos hlate))
  case ends =>
    obtain ⟨v, hv⟩ := s.endTeardown_eq x
    exact ⟨_, congrArg Host.Outcome.next ((if_pos ⟨htear, hnone⟩).trans hv), v.teardownShown_spec x⟩
  case notEnded => exact congrArg Host.Outcome.next (if_neg (by omega))
  case faults => exact congrArg Host.Outcome.next (State.teardownLate_of_fault htear hkept hlate)
  case faulted =>
    exact ⟨_, congrArg Host.Outcome.next ((State.teardownLate_of_fault htear hkept hlate).trans (State.ctxFaulted_of_idle hidle)),
      s.faulted_spec x⟩
  case early => exact congrArg Host.Outcome.next (if_neg (by omega))

end Sys2Proof.Machine
end


section
/-! PROOF. Power-up, lost power and the end of HBM training (R426, R438, R501, R512), and O60. -/

namespace Sys2Proof.Machine

namespace State.SetupKept
variable {s u : State}

/-! ### Packages, the journal and the calibration cache -/

theorem setCtx (h : s.SetupKept u) (x : Nat) (c : CtxSt) : s.SetupKept (u.setCtx x c) := h.hidden

theorem setPlace (h : s.SetupKept u) (l p : Nat) : s.SetupKept (u.setPlace l p) := h.hidden

theorem loadCtxs (h : s.SetupKept u) (k : Nat) : s.SetupKept (u.loadCtxs k) := by
  refine h.foldl fun v hv x _ => .ite ?_ (hv.setF _ _ _)
  dsimp only
  split
  · exact (hv.setF _ _ _).setCtx _ _
  · exact hv.setF _ _ _

theorem takePackage (h : s.SetupKept u) (k : Nat) : s.SetupKept (u.takePackage k) := by
  have hread : s.SetupKept { u with dsp := { u.dsp with pkgs := u.dsp.pkgs.put k (u.readPkg k), running := some k } } := h.hidden
  have hshown := hread.setF R.idBoot F.idBootPkg k
  refine .loadCtxs (.ite hshown ?_) k
  refine .foldl ?_ fun v hv e _ => ?_
  · exact hshown.hidden
  · split
    · exact hv.setPlace _ _
    · exact hv

theorem selectPackage (h : s.SetupKept u) : s.SetupKept u.selectPackage :=
  .ite (h.takePackage _) (.ite (((h.setF _ _ _).report _ _ _ _).takePackage _) (h.report _ _ _ _))

theorem weightsCheck (h : s.SetupKept u) : s.SetupKept u.weightsCheck := by
  unfold State.weightsCheck
  split
  · exact h
  · exact .ite h (.ite h.hidden (h.report _ _ _ _))

theorem resumeJob (h : s.SetupKept u) : s.SetupKept u.resumeJob := by
  unfold State.resumeJob
  split
  · exact h
  · refine .ite h ?_
    dsimp only
    generalize ((List.range 1088).filter _).map ofWearIx = named
    have hstale : s.SetupKept (named.foldl (fun s q => s.setPTile q { s.pTile q with stale := true }) u) :=
      h.foldl fun _ hv _ _ => hv.setPTile _ _
    split
    · refine .report (.closeJob ?_ _ _) _ _ _ _
      exact hstale.hidden
    · refine .foldl ?_ fun _ hv _ _ => hv.setPTile _ _
      exact hstale.hidden

theorem resumeArchive (h : s.SetupKept u) : s.SetupKept u.resumeArchive := .ite h h.hidden

theorem reportTorn (h : s.SetupKept u) (a n : Nat) : s.SetupKept (u.reportTorn a n) := by
  refine h.foldl fun v hv i _ => ?_
  split
  · exact .ite hv ((hv.raise _ _ _).report _ _ _ _)
  · exact hv

theorem readCache (h : s.SetupKept u) : s.SetupKept u.readCache := by
  have htorn := h.reportTorn 640 137
  unfold State.readCache
  dsimp only
  split
  · exact .ite htorn.hidden (htorn.report _ _ _ _)
  · exact .ite (htorn.report _ _ _ _) htorn

end State.SetupKept

section
variable {s : State}

/-! ### HBM training -/

/-- The mark that HBM training has ended. -/
def State.trainingMarked (s : State) : State := { s with sys := { s.sys with trained := true } }

/-- What the boot prepares after HBM training. -/
def State.prepared (s : State) (k : BootKind) : State :=
  let s := (s.selectPackage.weightsCheck).resumeJob.resumeArchive
  let s := if k = .drr then s else s.readCache
  (List.range 16).foldl (fun s c => if s.coreFenced c then s.repairCore c else s) s

/-- Calibration starts. -/
def State.calStarted (s : State) : State := { s with cal := { s.cal with running := true, complete := false } }

/-- The boot goes on to calibration, or ends without a package. -/
def State.stageFive (s : State) : State := if s.dsp.running.isNone then s.bootDone 9 else s.setStage 5

theorem State.trained_of_ready {k : BootKind} {failed : Nat} (hboot : s.sys.boot = some k)
    (hstage : s.getF R.idBoot F.idBootStage = 4) (hup : s.sys.ccUp = true) (hqueue : s.pwr.queue = []) (hramp : s.pwr.ramping = [])
    (hbm : ∀ d ∈ [48, 49, 50, 51], s.domOn d = true) :
    ∃ v : State, s.trained failed = ((v.trainingMarked.prepared k).calStarted).stageFive := by
  have hall : [48, 49, 50, 51].all (fun d => s.domOn d) = true := List.all_eq_true.2 hbm
  simp only [State.trained, hboot, hall]
  exact ⟨_, if_neg (by rw [hstage, hup, hqueue, hramp]; decide)⟩

theorem State.trained_of_early (h : s.getF R.idBoot F.idBootStage ≠ 4) (failed : Nat) : s.trained failed = s := by
  unfold State.trained
  split
  · rfl
  · exact if_pos (by simp [h])

theorem State.setupKept_prepared (s : State) (k : BootKind) : s.SetupKept (s.prepared k) := by
  have hjob := ((State.SetupKept.refl s).selectPackage.weightsCheck).resumeJob.resumeArchive
  exact .foldl (.ite hjob hjob.readCache) fun _ hv c _ => .ite (hv.repairCore c) hv

theorem State.endDrr_units (s : State) : s.endDrr.cal = s.cal ∧ s.endDrr.sys = s.sys := by
  have hraise (v : State) : (v.raise R.fltHostStatus F.fltHostStatusDrr R.fltHdrrEvt).cal = v.cal ∧
      (v.raise R.fltHostStatus F.fltHostStatusDrr R.fltHdrrEvt).sys = v.sys := ⟨State.raise_cal _ _ _ _, State.raise_sys _ _ _ _⟩
  have hrelease (v : State) : v.releaseFault.cal = v.cal ∧ v.releaseFault.sys = v.sys := by
    unfold State.releaseFault
    split <;> exact ⟨rfl, rfl⟩
  unfold State.endDrr
  split
  · exact ⟨rfl, rfl⟩
  · dsimp only
    rw [State.report_cal, State.report_sys, (hraise _).1, (hraise _).2, (hrelease _).1, (hrelease _).2]
    exact ⟨rfl, rfl⟩

/-- The boot is over. -/
def State.bootCleared (s : State) : State := { s with sys := { s.sys with boot := none, leaving := false } }

theorem State.bootDone_units (s : State) (stage : Nat) :
    (s.bootDone stage).cal = s.cal ∧ (s.bootDone stage).sys.trained = s.sys.trained := by
  have hstage : s.WritesOnly (s.setF R.idBoot F.idBootStage stage) [R.idBoot] :=
    (State.WritesOnly.refl s _).setF (List.mem_singleton_self _) _ _
  have hcleared (v : State) : v.bootCleared.cal = v.cal ∧ v.bootCleared.sys.trained = v.sys.trained := ⟨rfl, rfl⟩
  obtain ⟨hcal, hsys⟩ := (s.setF R.idBoot F.idBootStage stage).bootCleared.endDrr_units
  refine ⟨hcal.trans ((hcleared _).1.trans (hstage.keeps State.cal fun _ => rfl)), ?_⟩
  exact (congrArg SysUnit.trained hsys).trans ((hcleared _).2.trans (hstage.keeps (fun v => v.sys.trained) fun _ => rfl))

theorem State.stageFive_units (s : State) : s.stageFive.cal = s.cal ∧ s.stageFive.sys.trained = s.sys.trained := by
  unfold State.stageFive
  split
  · exact s.bootDone_units 9
  · exact ⟨State.setF_cal _ _ _ _, congrArg SysUnit.trained (State.setF_sys _ _ _ _)⟩

theorem State.calStarted_units (s : State) : s.calStarted.cal.running = true ∧ s.calStarted.cal.complete = false ∧
    s.calStarted.sys.trained = s.sys.trained := ⟨rfl, rfl, rfl⟩

theorem State.afterTraining_spec (v : State) (k : BootKind) :
    ((v.trainingMarked.prepared k).calStarted).stageFive.cal.running = true ∧
      ((v.trainingMarked.prepared k).calStarted).stageFive.cal.complete = false ∧
      ((v.trainingMarked.prepared k).calStarted).stageFive.sys.trained = true := by
  obtain ⟨hcal, htrained⟩ := ((v.trainingMarked.prepared k).calStarted).stageFive_units
  obtain ⟨hrunning, hcomplete, hmark⟩ := (v.trainingMarked.prepared k).calStarted_units
  rw [hcal, htrained, hmark, (v.trainingMarked.setupKept_prepared k).trained]
  exact ⟨hrunning, hcomplete, rfl⟩

/-! ### VDD_AON, PORST_N and lost power -/

/-- VDD_AON has entered its range. -/
def State.aonUp (s : State) : State := { s with sys := { s.sys with aon := true, boot := some .powerOn } }

theorem State.refreshGpio_units (s : State) : s.refreshGpio.sys = s.sys ∧ s.regsBut s.refreshGpio [R.actGpioState] := by
  have hlevel : ∃ lv, s.refreshGpio = if lv = s.getF R.actGpioState F.actGpioStateLevel then s
      else (s.setF R.actGpioState F.actGpioStateLevel lv).emit (.gpio lv) := ⟨_, rfl⟩
  have hemit (v : State) (x : Wire) : (v.emit x).sys = v.sys ∧ v.regsBut (v.emit x) [R.actGpioState] := ⟨rfl, fun _ _ => rfl⟩
  obtain ⟨lv, hlv⟩ := hlevel
  have hset : s.WritesOnly (s.setF R.actGpioState F.actGpioStateLevel lv) [R.actGpioState] :=
    (State.WritesOnly.refl s _).setF (List.mem_singleton_self _) _ _
  rw [hlv]
  split
  · exact ⟨rfl, .refl _ _⟩
  · exact ⟨(hemit _ _).1.trans (hset.keeps State.sys fun _ => rfl), hset.regs.trans (hemit _ _).2⟩

/-- The state with new safe values of the DAC channels. -/
def State.holdTaken (s : State) (hold : List (Nat × Nat)) : State := { s with lck := { s.lck with hold := hold } }

theorem State.holdTaken_units (s : State) (hold : List (Nat × Nat)) :
    (s.holdTaken hold).sys = s.sys ∧ s.regsBut (s.holdTaken hold) [R.actGpioState] := ⟨rfl, fun _ _ => rfl⟩

theorem State.readHold_units (s : State) : s.readHold.sys = s.sys ∧ s.regsBut s.readHold [R.actGpioState] := by
  have hload (payload : Bytes) : ∃ hold v, s.loadHold payload =
      ((s.holdTaken hold).setF R.actGpioState F.actGpioStateSafe v).refreshGpio := ⟨_, _, rfl⟩
  obtain ⟨hold, v, hv⟩ := hload ((s.recOf 0x205).getD (List.replicate 36 0))
  have hset : (s.holdTaken hold).WritesOnly ((s.holdTaken hold).setF R.actGpioState F.actGpioStateSafe v) [R.actGpioState] :=
    (State.WritesOnly.refl _ _).setF (List.mem_singleton_self _) _ _
  obtain ⟨hsys, hregs⟩ := s.holdTaken_units hold
  obtain ⟨hgpioSys, hgpioRegs⟩ := ((s.holdTaken hold).setF R.actGpioState F.actGpioStateSafe v).refreshGpio_units
  rw [State.readHold, hv]
  exact ⟨hgpioSys.trans ((hset.keeps State.sys fun _ => rfl).trans hsys), hregs.trans (hset.regs.trans hgpioRegs)⟩

theorem State.domUp_store (s : State) : (s.domUp 64).sys = s.sys ∧ (s.domUp 64).domOn 64 = true := by
  unfold State.domUp
  split
  case isTrue hon => exact ⟨rfl, hon⟩
  case isFalse =>
    have hreset (v : State) : (v.resetDomRegs 64).sys = v.sys := rfl
    have hwake : (s.setDomReq 64 true).domWake 64 = ((s.setDomReq 64 true).resetDomRegs 64).setDomOn 64 true := by
      unfold State.domWake
      exact if_neg (by decide)
    refine ⟨?_, State.domOn_domWake _ _⟩
    rw [hwake, (State.writesOnly_setDomOn _ 64 true).keeps State.sys fun _ => rfl, hreset,
      (s.writesOnly_setDomReq 64 true).keeps State.sys fun _ => rfl]

theorem State.domOn_readHold (s : State) (d : Nat) : s.readHold.domOn d = s.domOn d :=
  State.domOn_congr (s.readHold_units.2 _ (by
    simp only [List.mem_singleton, R.pwrDomOn, R.actGpioState]; omega))

/-- A state kept from one in which time is 0 is just reset. -/
theorem Keep.justReset {s t : State} (h : Keep s t) (hs : s.timeUs = 0) : t.timeUs = 0 := by
  rcases h.time with e | e
  · exact e.trans hs
  · exact e

theorem State.aonReset_timeUs (s : State) : s.aonReset.timeUs = 0 := rfl

/-- The reference mode sensed while PORST_N was low. -/
def State.vrefSensed (s : State) (v : VrefMode) : State := { s with sys := { s.sys with vref := v } }

theorem Keep.vrefSensed {s0 s : State} (h : Keep s0 s) (v : VrefMode) : Keep s0 (s.vrefSensed v) := h.hidden rfl rfl

theorem State.porst_eq (s : State) (v : VrefMode) :
    s.porst v = ((s.aonReset.releaseTrip.vrefSensed v).domUp 64).readHold.bootRun .powerOn := rfl

theorem State.porst_timeUs (s : State) (v : VrefMode) : (s.porst v).timeUs = 0 := by
  have hreset : Keep s.aonReset (s.porst v) := by
    rw [State.porst_eq]
    exact State.bootRun_keep (State.readHold_keep (State.domUp_keep ((State.releaseTrip_keep (Keep.refl s.aonReset)).vrefSensed v)))
  exact hreset.justReset s.aonReset_timeUs

/-- VDD_AON is lost. -/
def State.aonLost (s : State) : State := { s with regs := [], sys := { s.sys with aon := false } }

theorem State.aonLost_units (s : State) : s.aonLost.timeUs = s.timeUs ∧ s.aonLost.sys.enrolled = s.sys.enrolled ∧
    s.aonLost.sys.keyFuse = s.sys.keyFuse := ⟨rfl, rfl, rfl⟩

/-- A boot waits for PORST_N. -/
def State.bootWaiting (s : State) : State := { s with sys := { s.sys with boot := some .powerOn } }

theorem State.bootWaiting_units (s : State) : s.bootWaiting.timeUs = s.timeUs ∧ s.bootWaiting.stk = s.stk ∧
    s.bootWaiting.sys.enrolled = s.sys.enrolled ∧ s.bootWaiting.sys.keyFuse = s.sys.keyFuse := ⟨rfl, rfl, rfl, rfl⟩

end

/-- Settles O60: VDD_AON, PORST_N, lost power and the end of HBM training in the cases of the statement. -/
theorem powerUp : Obligations.PowerUp := by
  intro s v
  refine ⟨fun hdown => ?powerOn, fun hup => ?alreadyOn, fun hup => ?porst, fun hdown => ⟨?noPorst, ?noLoss, ?noFailure⟩,
    fun hup => ?loss, fun hup hstate => ?failure, fun hup hstate => ?stopped,
    fun failed => ⟨fun hstage => ?notTraining, fun k hboot hstage hcc hqueue hramp h48 h49 h50 h51 => ?trained⟩⟩
  case powerOn =>
    obtain ⟨hsys, hon⟩ := s.aonUp.domUp_store
    have hhold := (s.aonUp.domUp 64).readHold_units.1
    refine ⟨(s.aonUp.domUp 64).readHold, if_neg (by rw [hdown]; exact Bool.false_ne_true), ?_, ?_, ?_⟩
    · rw [hhold, hsys]; rfl
    · rw [hhold, hsys]; rfl
    · rw [State.domOn_readHold, hon]
  case alreadyOn => exact if_pos hup
  case porst =>
    exact ⟨_, congrArg Host.Outcome.next (if_pos hup), s.porst_timeUs v, (State.porst_keep (Keep.refl s)).key, rfl⟩
  case noPorst => exact congrArg Host.Outcome.next (if_neg (by rw [hdown]; exact Bool.false_ne_true))
  case noLoss => exact if_neg (by rw [hdown]; exact Bool.false_ne_true)
  case noFailure => exact if_neg (by rw [hdown]; exact Bool.false_ne_true)
  case loss =>
    obtain ⟨htime, henrolled, hkey⟩ := s.aonReset.releaseTrip.aonLost_units
    have hkeep := State.releaseTrip_keep (Keep.refl s.aonReset)
    have hreset := (State.releaseTrip_keep (State.aonReset_keep (Keep.refl s))).key
    exact ⟨s.aonReset.releaseTrip.aonLost, if_pos hup, rfl, rfl, htime.trans (hkeep.justReset s.aonReset_timeUs),
      fun h => ⟨henrolled.trans (hreset h).1, hkey.trans (hreset h).2⟩⟩
  case failure =>
    obtain ⟨htime, hstk, henrolled, hkey⟩ := s.aonReset.bootWaiting_units
    have hreset := (State.aonReset_keep (Keep.refl s)).key
    exact ⟨s.aonReset.bootWaiting, if_pos (by simp [hup, hstate]), rfl, htime.trans s.aonReset_timeUs,
      congrArg StkUnit.folios hstk, fun h => ⟨henrolled.trans (hreset h).1, hkey.trans (hreset h).2⟩⟩
  case stopped => exact if_neg (by simp only [Bool.and_eq_true, decide_eq_true_eq]; omega)
  case notTraining => exact congrArg Host.Outcome.next (State.trained_of_early hstage _)
  case trained =>
    obtain ⟨w, hw⟩ := State.trained_of_ready (failed := failed.toNat) hboot hstage hcc hqueue hramp (by
      simp only [List.mem_cons, List.not_mem_nil, or_false, forall_eq_or_imp, forall_eq]
      exact ⟨h48, h49, h50, h51⟩)
    exact ⟨_, congrArg Host.Outcome.next hw, w.afterTraining_spec k⟩

end Sys2Proof.Machine
end


section
/-! PROOF. The escalation ladder, watchdogs and the device recovery reset (R398 to R408), and O58. -/

namespace Sys2Proof.Machine

section
variable {s u : State} {c e : Nat}

/-! ### Ladder state and core state -/

theorem State.ladder_setLadder (s : State) (c : Nat) (l : Ladder) : (s.setLadder c l).ladder c = l := Tab.getD_set_self _ _ _ _

theorem State.ladder_congr (h : u.flt.cores = s.flt.cores) (c : Nat) : u.ladder c = s.ladder c := by
  simp only [State.ladder, h]

theorem State.regsBut_setLadder (s : State) (c : Nat) (l : Ladder) (r : List Nat) : s.regsBut (s.setLadder c l) r :=
  fun _ _ => rfl

/-- A report leaves the rest of the fault unit. -/
theorem State.report_cores (s : State) (src code rep d : Nat) : (s.report src code rep d).flt.cores = s.flt.cores := by
  have hraise (v : State) (a : Nat) (f : Field) (e : Nat) : (v.raise a f e).flt = v.flt := State.raise_flt _ _ _ _
  have hopen (v : State) : v.syncOpen.flt = v.flt := v.writesOnly_syncOpen.keeps State.flt fun _ => rfl
  unfold State.report
  split
  · rfl
  · dsimp only
    split
    · rw [hraise, hopen]
    · rw [hraise]

theorem State.coreState_congr (h : u.reg R.fltCoreState = s.reg R.fltCoreState) (c : Nat) : u.coreState c = s.coreState c := by
  simp only [State.coreState, State.regNat, h]

theorem State.coreState_eq_getF (s : State) (c : Nat) : s.coreState c = s.getF R.fltCoreState ⟨2 * c, 2⟩ := by
  rw [State.coreState, State.getF, Field.get, pow_mul]
  rfl

theorem State.coreState_setCoreState (s : State) {c : Nat} (hc : c < 16) (v : Nat) : (s.setCoreState c v).coreState c = v % 4 := by
  rw [State.coreState_eq_getF]
  exact State.getF_setF_self _ _ _ _ (show 2 * c + 2 ≤ 32 by omega)

theorem State.writesOnly_setCoreState (s : State) (c v : Nat) : s.WritesOnly (s.setCoreState c v) [R.fltCoreState] :=
  (State.WritesOnly.refl s _).setF (List.mem_singleton_self _) _ _

/-! ### The sample of a fenced engine -/

theorem Tab.length_getRun {α : Type} (d : α) (t : Tab α) : ∀ k n, (Tab.getRun d t k n).length = n
  | _, 0 => rfl
  | k, n + 1 => congrArg (· + 1) (Tab.length_getRun d t (k + 1) n)

theorem length_flatMap_const {α β : Type} {f : α → List β} {n : Nat} (h : ∀ a, (f a).length = n) (l : List α) :
    (l.flatMap f).length = l.length * n := by
  induction l with
  | nil => simp
  | cons a l ih => rw [List.flatMap_cons, List.length_append, h, ih, List.length_cons, Nat.succ_mul, Nat.add_comm]

theorem State.length_sample (s : State) (c : Nat) : (s.sample c).length = 0x8000 := by
  have hpad (off n : Nat) : (s.padRead c off n).length = n := Tab.length_getRun _ _ _ _
  rw [State.sample, List.length_append, length_flatMap_const (n := 512), length_flatMap_const (n := 8), List.length_range,
    List.length_range]
  · exact fun _ => length_leBytes _ _
  · intro b
    rw [List.length_append, hpad, hpad]

/-- Bytes are written to the Stacks at address `a`. -/
def State.memWritten (s : State) (a : Nat) (bs : Bytes) : State :=
  { s with stk := { s.stk with mem := s.stk.mem.setRun 0 a bs } }

theorem State.memWritten_units (s : State) (a : Nat) (bs : Bytes) : (s.memWritten a bs).stk.mem = s.stk.mem.setRun 0 a bs ∧
    (s.memWritten a bs).flt = s.flt ∧ (s.memWritten a bs).timeUs = s.timeUs ∧ (s.memWritten a bs).regs = s.regs ∧
    (s.memWritten a bs).part = s.part := ⟨rfl, rfl, rfl, rfl, rfl⟩

/-- The Stacks address of dump slot `n`. -/
def slotAddr (n : Nat) : Nat := dumpBase + 0x20000 + n * 0x8000

/-- The Stacks hold the sample of core `c` in dump slot `n`. -/
def State.sampleStored (s : State) (c n : Nat) : State := s.memWritten (slotAddr n) (s.sample c)

/-- The slot of a complete sample. -/
def State.slotComplete (s : State) (c : Nat) (x : DumpSlot) : DumpSlot := { x with st := 2, crc := crc32c (s.sample c) }

/-- A complete sample is shown. -/
def State.dumpShown (s : State) : State := s.raise R.fltHostStatus F.fltHostStatusDump R.fltHdmpEvt

theorem State.copyEnd_of_copying {n : Nat} (hcopy : s.copying c e = some n) :
    s.copyEnd c e = (((s.sampleStored c n).modSlot n (s.slotComplete c)).dumpShown).startReset c e := by
  simp only [State.copyEnd, hcopy]
  rfl

theorem State.copyEnd_of_idle (hcopy : s.copying c e = none) : s.copyEnd c e = s := by simp only [State.copyEnd, hcopy]

theorem State.copyTimeout_of_idle (hcopy : s.copying c e = none) : s.copyTimeout c e = s := by
  simp only [State.copyTimeout, hcopy]

theorem State.copyTimeout_of_copying {n at_ : Nat} (hcopy : s.copying c e = some n)
    (hfenced : (s.ladder c).fencedAt.get? e = some at_) :
    s.copyTimeout c e = if at_ + 20 ≤ s.timeUs then (s.modSlot n (fun x => { x with st := 3 })).startReset c e else s := by
  simp only [State.copyTimeout, hcopy, hfenced]

theorem State.startReset_units (s : State) (c e : Nat) : (s.startReset c e).stk = s.stk ∧ (s.startReset c e).flt.slots = s.flt.slots ∧
    (s.startReset c e).regs = s.regs ∧ (s.startReset c e).part = s.part := ⟨rfl, rfl, rfl, rfl⟩

theorem State.resetAt_startReset (s : State) (c e : Nat) : ((s.startReset c e).ladder c).resetAt.get? e = some s.timeUs := by
  rw [State.startReset, State.ladder_setLadder]
  exact Tab.get?_put_self _ _ _

theorem Tab.get?_modify_map {α : Type} (t : Tab α) (k : Nat) (f : α → α) : (t.modify k f).get? k = (t.get? k).map f := by
  cases h : t.get? k with
  | none => simp only [Tab.modify, h, Option.map_none]
  | some v => exact Tab.get?_modify_self f h

theorem Tab.getRun_setRun_self {α : Type} [DecidableEq α] (d : α) (t : Tab α) (k : Nat) (bs : List α) {n : Nat} (h : bs.length = n) :
    (t.setRun d k bs).getRun d k n = bs := by
  have hrun := Tab.getRun_setRun d bs t k n 0 (by omega)
  rw [Nat.add_zero, List.drop_zero, List.take_of_length_le (Nat.le_of_eq h)] at hrun
  exact hrun

theorem State.modSlot_units (s : State) (n : Nat) (f : DumpSlot → DumpSlot) : (s.modSlot n f).stk = s.stk ∧
    (s.modSlot n f).flt.slots = s.flt.slots.modify n f ∧ (s.modSlot n f).timeUs = s.timeUs ∧
    (s.modSlot n f).regs = s.regs ∧ (s.modSlot n f).part = s.part := ⟨rfl, rfl, rfl, rfl, rfl⟩

theorem State.writesOnly_dumpShown (s : State) : s.WritesOnly s.dumpShown [R.fltHostStatus, R.fltHdmpEvt] :=
  (State.WritesOnly.refl s _).raise (by simp) (by simp) _

theorem State.copyEnd_spec {n : Nat} (hcopy : s.copying c e = some n) :
    (s.copyEnd c e).stk.mem.getRun 0 (dumpBase + 0x20000 + n * 0x8000) 0x8000 = s.sample c ∧
      (s.copyEnd c e).flt.slots.get? n = (s.flt.slots.get? n).map (s.slotComplete c) ∧
      ((s.copyEnd c e).ladder c).resetAt.get? e = some s.timeUs ∧
      (s.copyEnd c e).isSet R.fltHostStatus F.fltHostStatusDump = true ∧
      s.regsBut (s.copyEnd c e) [R.fltHostStatus, R.fltHdmpEvt] := by
  obtain ⟨v, hv⟩ : ∃ v, v = (s.sampleStored c n).modSlot n (s.slotComplete c) := ⟨_, rfl⟩
  obtain ⟨hstk, hslots, htime, hregs, hpart⟩ := (s.sampleStored c n).modSlot_units n (s.slotComplete c)
  obtain ⟨hmem0, hflt0, htime0, hregs0, hpart0⟩ := s.memWritten_units (slotAddr n) (s.sample c)
  rw [← State.sampleStored] at hmem0 hflt0 htime0 hregs0 hpart0
  rw [← hv] at hstk hslots htime hregs hpart
  have hwrites := v.writesOnly_dumpShown
  obtain ⟨hstkEnd, hslotsEnd, hregsEnd, hpartEnd⟩ := v.dumpShown.startReset_units c e
  rw [State.copyEnd_of_copying hcopy, ← hv]
  refine ⟨?_, ?_, ?_, ?_, ?_⟩
  · rw [hstkEnd, hwrites.keeps State.stk fun _ => rfl, hstk, hmem0, ← slotAddr,
      Tab.getRun_setRun_self _ _ _ _ (s.length_sample c)]
  · rw [hslotsEnd, hwrites.keeps (fun v => v.flt.slots) fun _ => rfl, hslots, Tab.get?_modify_map, hflt0]
  · rw [State.resetAt_startReset, hwrites.keeps State.timeUs fun _ => rfl, htime, htime0]
  · rw [State.isSet_congr (State.reg_congr hregsEnd hpartEnd _)]
    exact State.isSet_raise_self _ _ _ _ (by decide) (by decide) (by decide)
  · exact ((State.regsBut.refl s _).hidden (hregs.trans hregs0) (hpart.trans hpart0)).trans
      (hwrites.regs.hidden hregsEnd hpartEnd)

theorem State.copyTimeout_spec {n at_ : Nat} (hcopy : s.copying c e = some n)
    (hfenced : (s.ladder c).fencedAt.get? e = some at_) (hlate : at_ + 20 ≤ s.timeUs) :
    (s.copyTimeout c e).flt.slots.get? n = (s.flt.slots.get? n).map (fun d => { d with st := 3 }) ∧
      ((s.copyTimeout c e).ladder c).resetAt.get? e = some s.timeUs ∧ (s.copyTimeout c e).regs = s.regs ∧
      (s.copyTimeout c e).stk = s.stk := by
  obtain ⟨v, hv⟩ : ∃ v, v = s.modSlot n (fun x => { x with st := 3 }) := ⟨_, rfl⟩
  obtain ⟨hstk, hslots, htime, hregs, -⟩ := s.modSlot_units n (fun x => { x with st := 3 })
  rw [← hv] at hstk hslots htime hregs
  obtain ⟨hstkEnd, hslotsEnd, hregsEnd, -⟩ := v.startReset_units c e
  rw [State.copyTimeout_of_copying hcopy hfenced, if_pos hlate, ← hv]
  refine ⟨?_, ?_, hregsEnd.trans hregs, hstkEnd.trans hstk⟩
  · rw [hslotsEnd, hslots, Tab.get?_modify_map]
  · rw [State.resetAt_startReset, htime]

/-! ### The reset of an engine -/

/-- The ladder state of a core whose engine `e` has been reset. -/
def Ladder.engineBack (l : Ladder) (e : Nat) : Ladder :=
  { l with engines := l.engines - 2 ^ e, fencedAt := l.fencedAt.del e, resetAt := l.resetAt.del e, slotOf := l.slotOf.del e }

/-- FLT_CORE_STATE once no engine of the core is fenced. -/
def State.coreBack (s : State) (c engines : Nat) : State := if engines = 0 then s.setCoreState c 0 else s

theorem State.coreBack_flt (s : State) (c engines : Nat) : (s.coreBack c engines).flt = s.flt := by
  unfold State.coreBack
  split
  · exact State.setF_flt _ _ _ _
  · rfl

theorem State.resetDone_of_idle {at_ : Nat} (hreset : (s.ladder c).resetAt.get? e = some at_)
    (hfenced : bit (s.ladder c).engines e = true) (hidle : s.stk.reqs = []) : s.resetDone c e =
      ((s.setLadder c ((s.ladder c).engineBack e)).coreBack c ((s.ladder c).engines - 2 ^ e)).report (Src.engine c e)
        E.fltRecovered Rep.dispatcher 1 :=
  if_pos (by rw [hfenced, hreset, hidle]; rfl)

theorem State.resetDone_spec {at_ : Nat} (hc : c < 16) (hreset : (s.ladder c).resetAt.get? e = some at_)
    (hfenced : bit (s.ladder c).engines e = true) (hidle : s.stk.reqs = []) :
    ((s.resetDone c e).ladder c).engines = (s.ladder c).engines - 2 ^ e ∧
      ((s.resetDone c e).ladder c).resetAt.get? e = none ∧
      ((s.ladder c).engines = 2 ^ e → (s.resetDone c e).coreState c = 0) := by
  have hladder : (s.resetDone c e).ladder c = (s.ladder c).engineBack e := by
    rw [State.resetDone_of_idle hreset hfenced hidle, State.ladder_congr (State.report_cores _ _ _ _ _),
      State.ladder_congr (congrArg FltUnit.cores (State.coreBack_flt _ _ _)), State.ladder_setLadder]
  refine ⟨by rw [hladder]; rfl, by rw [hladder]; exact Tab.get?_del_self _ _, fun hlast => ?_⟩
  rw [State.resetDone_of_idle hreset hfenced hidle, State.coreState_congr (State.reg_report _ _ _ _ _ (by decide)), hlast,
    Nat.sub_self, State.coreBack, if_pos rfl, State.coreState_setCoreState _ hc]

section
variable {at_ : Nat} (hreset : (s.ladder c).resetAt.get? e = some at_)
include hreset

theorem State.resetTimeout_of_reset : s.resetTimeout c e = if at_ + 200 ≤ s.timeUs then
    (s.report (Src.engine c e) E.fltEngineResetHang Rep.dispatcher).rung2 c else s := by
  simp only [State.resetTimeout, hreset]

end

/-! ### The return of a core -/

theorem State.wakeReq_spec {d : Nat} (hoff : s.domOn d = false) (hqueue : d ∉ s.pwr.queue) (hramp : s.pwr.ramping.get? d = none) :
    (s.wakeReq d).pwr = { s.pwr with queue := s.pwr.queue ++ [d] } ∧ (∀ d', (s.wakeReq d).domOn d' = s.domOn d') ∧
      (s.wakeReq d).flt = s.flt := by
  have hqueued (v : State) : (v.queued d).pwr = { v.pwr with queue := v.pwr.queue ++ [d] } ∧
      (∀ d', (v.queued d).domOn d' = v.domOn d') ∧ (v.queued d).flt = v.flt := ⟨rfl, fun _ => rfl, rfl⟩
  obtain ⟨hpwr, hon, hflt⟩ := hqueued (s.setDomReq d true)
  rw [State.wakeReq_of_new hoff hqueue hramp]
  refine ⟨?_, fun d' => ?_, ?_⟩
  · rw [State.syncPwr_pwr, hpwr, State.setDomReq_pwr]
  · rw [State.domOn_syncPwr, hon, State.domOn_setDomReq]
  · rw [(State.writesOnly_syncPwr _).keeps State.flt fun _ => rfl, hflt,
      (s.writesOnly_setDomReq d true).keeps State.flt fun _ => rfl]

theorem State.setLadder_units (s : State) (c : Nat) (l : Ladder) : (s.setLadder c l).pwr = s.pwr ∧
    (∀ d, (s.setLadder c l).domOn d = s.domOn d) := ⟨rfl, fun _ => rfl⟩

section
variable {at_ : Nat} (hoff : (s.ladder c).offAt = some at_) (hstate : s.coreState c = 2) (hidle : (s.ladder c).waking = false)
include hoff hstate hidle

theorem State.wakeCore_of_off : s.wakeCore c = if at_ + 1000 ≤ s.timeUs then
    ((s.setLadder c { s.ladder c with waking := true }).wakeReq (3 * c + 1)).wakeReq (3 * c + 2) else s := by
  unfold State.wakeCore
  dsimp only
  rw [hoff]
  dsimp only
  by_cases hdue : at_ + 1000 ≤ s.timeUs
  · rw [if_pos hdue, if_pos ⟨hstate, by rw [hidle]; exact Bool.false_ne_true, hdue⟩]
  · rw [if_neg hdue, if_neg fun h => hdue h.2.2]

theorem State.wakeCore_spec (hdue : at_ + 1000 ≤ s.timeUs)
    (hdom : ∀ d, d = 3 * c + 1 ∨ d = 3 * c + 2 → s.domOn d = false ∧ d ∉ s.pwr.queue ∧ s.pwr.ramping.get? d = none) :
    ((s.wakeCore c).ladder c).waking = true ∧ (s.wakeCore c).pwr.queue = s.pwr.queue ++ [3 * c + 1, 3 * c + 2] := by
  obtain ⟨v, hv⟩ : ∃ v, v = s.setLadder c { s.ladder c with waking := true } := ⟨_, rfl⟩
  obtain ⟨hpwr, hon⟩ := s.setLadder_units c { s.ladder c with waking := true }
  rw [← hv] at hpwr hon
  obtain ⟨hoff1, hqueue1, hramp1⟩ := hdom (3 * c + 1) (.inl rfl)
  obtain ⟨hoff2, hqueue2, hramp2⟩ := hdom (3 * c + 2) (.inr rfl)
  obtain ⟨hpwr1, hon1, hflt1⟩ := State.wakeReq_spec (s := v) (d := 3 * c + 1) (by rw [hon, hoff1]) (by rw [hpwr]; exact hqueue1)
    (by rw [hpwr]; exact hramp1)
  obtain ⟨hpwr2, -, hflt2⟩ := State.wakeReq_spec (s := v.wakeReq (3 * c + 1)) (d := 3 * c + 2) (by rw [hon1, hon, hoff2])
    (by rw [hpwr1, hpwr]; simpa using hqueue2) (by rw [hpwr1, hpwr]; exact hramp2)
  rw [State.wakeCore_of_off hoff hstate hidle, if_pos hdue, ← hv]
  refine ⟨?_, ?_⟩
  · rw [State.ladder_congr (congrArg FltUnit.cores (hflt2.trans hflt1)), hv, State.ladder_setLadder]
  · rw [hpwr2, hpwr1, hpwr, List.append_assoc]
    rfl

end

/-- The tiles of core `c` from `k` on take the states of `l`. -/
theorem State.tileState_restored (c : Nat) (l : List Nat) (k : Nat) (hk : k + l.length ≤ 68) (hl : ∀ v ∈ l, v < 8) (s : State) :
    (∀ t, k ≤ t → t < k + l.length →
      ((l.zipIdx k).foldl (fun s e => s.setTileState c e.2 e.1) s).tileState c t = l.getD (t - k) 0) ∧
    (∀ t, t < k → ((l.zipIdx k).foldl (fun s e => s.setTileState c e.2 e.1) s).tileState c t = s.tileState c t) := by
  induction l generalizing k s with
  | nil => exact ⟨fun t h h' => absurd h' (by simp; omega), fun _ _ => rfl⟩
  | cons v l ih =>
    rw [List.length_cons] at hk
    obtain ⟨hlater, hbefore⟩ := ih (k + 1) (by omega) (fun w hw => hl w (List.mem_cons_of_mem _ hw)) (s.setTileState c k v)
    have hne (t : Nat) (ht : t < k) : (s.setTileState c k v).tileState c t = s.tileState c t := by
      have hwrites : s.WritesOnly (s.setTileState c k v) [R.tilState c k, R.tilSummary c] :=
        (State.WritesOnly.refl s _).enterState (by simp) (by simp) v
      refine State.tileState_congr (hwrites.regs _ ?_)
      simp only [List.mem_cons, List.not_mem_nil, or_false, not_or, R.tilState, R.tilSummary]
      omega
    refine ⟨fun t ht ht' => ?_, fun t ht => ?_⟩
    · by_cases heq : t = k
      · subst heq
        rw [List.zipIdx_cons, List.foldl_cons, hbefore _ (Nat.lt_succ_self _), State.tileState_setTileState _ _ _ (hl v (List.mem_cons_self ..)),
          Nat.sub_self, List.getD_cons_zero]
      · have hsub : t - k = (t - (k + 1)) + 1 := by omega
        rw [List.length_cons] at ht'
        rw [List.zipIdx_cons, List.foldl_cons, hlater t (by omega) (by omega), hsub, List.getD_cons_succ]
    · rw [List.zipIdx_cons, List.foldl_cons, hbefore t (by omega), hne t ht]

/-- The tiles of core `c` in the states held before rung 2. -/
def State.tilesRestored (s : State) (c : Nat) : State :=
  (s.ladder c).savedTiles.zipIdx.foldl (fun s e => s.setTileState c e.2 e.1) s

/-- The ladder state of a core that is back. -/
def Ladder.returned (l : Ladder) : Ladder := { l with savedTiles := [], offAt := none, waking := false }

section
variable (hstate : s.coreState c = 2) (hdigital : s.domOn (3 * c + 1) = true) (hsram : s.domOn (3 * c + 2) = true)
include hstate hdigital hsram

theorem State.returnCore_of_ok : s.returnCore c true =
    (((s.tilesRestored c).setLadder c (s.ladder c).returned).setCoreState c 0).report (Src.core c) E.fltRecovered Rep.power 2 :=
  (if_pos (by rw [hstate, hdigital, hsram]; rfl)).trans (if_pos rfl)

theorem State.returnCore_of_bad : s.returnCore c false = s.rung3 c 4 :=
  (if_pos (by rw [hstate, hdigital, hsram]; rfl)).trans (if_neg Bool.false_ne_true)

theorem State.returnCore_spec (hc : c < 16) : (s.returnCore c true).coreState c = 0 ∧
    ((s.returnCore c true).ladder c).savedTiles = [] ∧
    (∀ t, t < 68 → (s.ladder c).savedTiles.length = 68 → (∀ v ∈ (s.ladder c).savedTiles, v < 8) →
      (s.returnCore c true).tileState c t = (s.ladder c).savedTiles.getD t 0) := by
  obtain ⟨v, hv⟩ : ∃ v, v = (s.tilesRestored c).setLadder c (s.ladder c).returned := ⟨_, rfl⟩
  rw [State.returnCore_of_ok hstate hdigital hsram, ← hv]
  refine ⟨?_, ?_, fun t ht hlen hval => ?_⟩
  · rw [State.coreState_congr (State.reg_report _ _ _ _ _ (by decide)), State.coreState_setCoreState _ hc]
  · rw [State.ladder_congr (State.report_cores _ _ _ _ _),
      State.ladder_congr (congrArg FltUnit.cores ((v.writesOnly_setCoreState c 0).keeps State.flt fun _ => rfl)), hv,
      State.ladder_setLadder]
    rfl
  · have hflt : R.tilState c t ≠ R.fltOpen ∧ R.tilState c t ≠ R.fltStatus ∧ R.tilState c t ≠ R.fltNewsrcEvt ∧
        R.tilState c t ≠ R.fltOvfEvt := by
      simp only [R.tilState, R.fltOpen, R.fltStatus, R.fltNewsrcEvt, R.fltOvfEvt]; omega
    have hcore : R.tilState c t ∉ [R.fltCoreState] := by
      simp only [List.mem_singleton, R.tilState, R.fltCoreState]; omega
    have hrestored := (State.tileState_restored c (s.ladder c).savedTiles 0 (by omega) hval s).1 t (Nat.zero_le _) (by omega)
    rw [State.tileState_congr (State.reg_report _ _ _ _ _ hflt),
      State.tileState_congr ((v.writesOnly_setCoreState c 0).regs _ hcore), hv,
      State.tileState_congr (State.regsBut_setLadder _ _ _ [] _ List.not_mem_nil)]
    exact hrestored

end

theorem State.returnCore_of_other (hstate : s.coreState c ≠ 2) (ok : Bool) : s.returnCore c ok = s :=
  if_neg (by simp [hstate])

/-! ### The end of a fence -/

/-- Clearing bit `i` sets no other bit. -/
theorem bit_putBit_of_clear {w i j : Nat} (h : bit w j = false) : bit (putBit w i false) j = false := by
  by_cases hij : j = i
  · rw [hij, bit_putBit]
  · cases hbit : bit w i with
    | false =>
      have hput : putBit w i false = w := by simp [putBit, hbit]
      rw [hput]
      exact h
    | true =>
      have hput : putBit w i false = w - 2 ^ i := by rw [putBit, if_pos hbit]; rfl
      have hone : w / 2 ^ i % 2 = 1 := by simpa [bit] using hbit
      have hle : 2 ^ i ≤ w := by
        by_contra hlt
        rw [Nat.div_eq_of_lt (Nat.not_le.1 hlt)] at hone
        exact absurd hone (by decide)
      obtain ⟨r, hr⟩ : ∃ r, w = r + 2 ^ i := ⟨w - 2 ^ i, (Nat.sub_add_cancel hle).symm⟩
      have hsum : (r + 2 ^ i) / 2 ^ j % 2 = r / 2 ^ j % 2 := by
        rcases Nat.lt_or_gt_of_ne hij with hlt | hgt
        · have hsplit : (2 : Nat) ^ i = 2 ^ j * (2 * 2 ^ (i - j - 1)) := by
            rw [← pow_succ', ← pow_add]; congr 1; omega
          rw [hsplit, Nat.add_mul_div_left _ _ (Nat.two_pow_pos j), Nat.add_mul_mod_self_left]
        · have hsplit : (2 : Nat) ^ j = 2 ^ i * 2 * 2 ^ (j - i - 1) := by
            rw [← pow_succ, ← pow_add]; congr 1; omega
          rw [hr, Nat.add_div_right _ (Nat.two_pow_pos i)] at hone
          have hhalf : (r + 2 ^ i) / 2 ^ i / 2 = r / 2 ^ i / 2 := by
            rw [Nat.add_div_right _ (Nat.two_pow_pos i)]; omega
          rw [hsplit, ← Nat.div_div_eq_div_mul, ← Nat.div_div_eq_div_mul, hhalf, Nat.div_div_eq_div_mul r, Nat.div_div_eq_div_mul r]
      rw [hput, hr, Nat.add_sub_cancel, bit, ← hsum, ← hr]
      exact h

theorem State.domOn_setDomOn_of_off {d d' : Nat} (h : s.domOn d' = false) : (s.setDomOn d false).domOn d' = false := by
  by_cases heq : R.pwrDomOn (d' / 32) = R.pwrDomOn (d / 32)
  · rw [State.domOn, heq] at h ⊢
    rw [State.setDomOn, State.regNat_setNat_self, bit_mod (Nat.mod_lt _ (by decide)), bit_putBit_of_clear h]
  · exact (State.domOn_congr ((s.writesOnly_setDomOn d false).regs _ (by simpa using heq))).trans h

/-- The time at which a domain was gated is noted. -/
def State.gateNoted (s : State) (d : Nat) : State := { s with pwr := { s.pwr with gated := s.pwr.gated.put d s.timeUs } }

theorem State.gateNow_eq (s : State) (d : Nat) : s.gateNow d = ((s.gateNoted d).domOff d).syncPwr := rfl

theorem State.domOn_gateNow_of_off {d d' : Nat} (hport : d < 52 ∨ 60 ≤ d) (h : s.domOn d' = false) :
    (s.gateNow d).domOn d' = false := by
  have hnoted (v : State) : (v.gateNoted d).domOn d' = v.domOn d' := rfl
  have hcut (v : State) : (v.domCut d).domOn d' = (v.setDomOn d false).domOn d' := rfl
  rw [State.gateNow_eq, State.domOn_syncPwr, ((s.gateNoted d).pwrKept_domOff hport).domOn, hcut]
  exact State.domOn_setDomOn_of_off ((hnoted s).trans h)

theorem State.tilesOff_flt (s : State) (c st : Nat) : (s.tilesOff c st).flt = s.flt := by
  refine State.foldl_induction (P := fun u => u.flt = s.flt) rfl fun u hu t _ => ?_
  exact (State.setF_flt _ _ _ _).trans (((State.setF_flt _ _ _ _).trans ((State.setF_flt _ _ _ _).trans (State.setF_flt _ _ _ _))).trans hu)

theorem State.domOff_flt {d : Nat} (hd : d < 48) (s : State) : (s.domOff d).flt = s.flt := by
  have hcut : (s.domCut d).flt = s.flt := (s.writesOnly_setDomOn d false).keeps State.flt fun _ => rfl
  have hsram (v : State) : (v.sramOff (d / 3)).flt = v.flt := rfl
  have hcore : s.domOff d = if d % 3 = 0 then (s.domCut d).tilesOff (d / 3) (if (s.domCut d).coreFenced (d / 3) then 5 else 0)
      else if d % 3 = 2 then (s.domCut d).sramOff (d / 3) else s.domCut d := if_pos hd
  rw [hcore]
  split
  · rw [State.tilesOff_flt, hcut]
  · split
    · rw [hsram, hcut]
    · exact hcut

theorem State.gateNow_flt {d : Nat} (hd : d < 48) (s : State) : (s.gateNow d).flt = s.flt := by
  have hnoted (v : State) : (v.gateNoted d).flt = v.flt := rfl
  rw [State.gateNow_eq, (State.writesOnly_syncPwr _).keeps State.flt fun _ => rfl, State.domOff_flt hd, hnoted]

theorem State.dropRuns_flt (s : State) (c : Nat) : (s.dropRuns c).flt = s.flt :=
  State.foldl_induction (P := fun u => u.flt = s.flt) rfl fun _ hu _ _ => (State.setF_flt _ _ _ _).trans hu

theorem State.dropReqs_flt (s : State) (c : Nat) : (s.dropReqs c).flt = s.flt :=
  State.foldl_induction (P := fun u => u.flt = s.flt) rfl fun _ hu _ _ => (State.setF_flt _ _ _ _).trans hu

/-- The ladder state of a core whose fence is complete. -/
def Ladder.fenced (l : Ladder) : Ladder := { l with fenceAt := none }

theorem State.fenceDone_of_none (hfence : (s.ladder c).fenceAt = none) : s.fenceDone c = s := by
  simp only [State.fenceDone, hfence]

section
variable {at_ : Nat} (hfence : (s.ladder c).fenceAt = some at_)
include hfence

theorem State.fenceDone_of_fence : s.fenceDone c =
    ((((s.setLadder c (s.ladder c).fenced).dropRuns c |>.dropReqs c).gateNow (3 * c)).gateNow (3 * c + 1)).gateNow (3 * c + 2) := by
  unfold State.fenceDone
  rw [hfence]
  rfl

theorem State.fenceDone_spec (hc : c < 16) : ((s.fenceDone c).ladder c).fenceAt = none ∧ (s.fenceDone c).domOn (3 * c) = false ∧
    (s.fenceDone c).domOn (3 * c + 1) = false ∧ (s.fenceDone c).domOn (3 * c + 2) = false := by
  obtain ⟨v, hv⟩ : ∃ v, v = ((s.setLadder c (s.ladder c).fenced).dropRuns c).dropReqs c := ⟨_, rfl⟩
  have hflt : v.flt = (s.setLadder c (s.ladder c).fenced).flt := by rw [hv, State.dropReqs_flt, State.dropRuns_flt]
  rw [State.fenceDone_of_fence hfence, ← hv]
  refine ⟨?_, ?_, ?_, ?_⟩
  · rw [State.ladder_congr (congrArg FltUnit.cores (State.gateNow_flt (by omega) _)),
      State.ladder_congr (congrArg FltUnit.cores (State.gateNow_flt (by omega) _)),
      State.ladder_congr (congrArg FltUnit.cores (State.gateNow_flt (by omega) _)),
      State.ladder_congr (congrArg FltUnit.cores hflt), State.ladder_setLadder]
    rfl
  · exact State.domOn_gateNow_of_off (.inl (by omega)) (State.domOn_gateNow_of_off (.inl (by omega))
      (v.gateNow_spec (.inl (by omega))).1)
  · exact State.domOn_gateNow_of_off (.inl (by omega)) ((v.gateNow (3 * c)).gateNow_spec (.inl (by omega))).1
  · exact (((v.gateNow (3 * c)).gateNow (3 * c + 1)).gateNow_spec (.inl (by omega))).1

theorem State.fenceHang_of_fence : s.fenceHang c = if at_ + 2000 ≤ s.timeUs then
    (((s.setLadder c { s.ladder c with fenceAt := none }).report (Src.core c) E.fltFenceHang Rep.power).startDrr 1) else s := by
  simp only [State.fenceHang, State.fenceLate, hfence, decide_eq_true_eq]

end

/-! ### The device recovery reset -/

/-- A device recovery reset is recorded; its start times are `times`. -/
def State.drrMarked (s : State) (times : List Nat) : State :=
  { s with
    flt := { s.flt with drrTimes := times, drrAt := some s.timeUs, dump := { s.flt.dump with drr := s.flt.dump.drr + 1 } }
    sys := { s.sys with boot := none, leaving := false, railWait := none, railLeft := [], railCmd := none }
    cal := { s.cal with running := false } }

/-- A device recovery reset is shown, reported, and told to the partners. -/
def State.drrShown (s : State) (cause : Nat) : State :=
  let s := (s.countF R.fltDrr F.fltDrrCount).setF R.fltDrr F.fltDrrCause cause
  let s := (s.assertFault.raise R.fltStatus F.fltStatusDrr R.fltDrrEvt).report Src.device E.fltDrr Rep.power cause
  (List.range 8).foldl (fun s p => s.sendDetach p 6 2) (s.enterSafe 4).castHeartbeat

theorem State.SetupKept.drrShown (h : s.SetupKept u) (cause : Nat) : s.SetupKept (u.drrShown cause) := by
  have hshown := ((((h.countF R.fltDrr F.fltDrrCount).setF R.fltDrr F.fltDrrCause cause).assertFault.raise R.fltStatus
    F.fltStatusDrr R.fltDrrEvt).report Src.device E.fltDrr Rep.power cause)
  exact ((hshown.enterSafe 4 true).castHeartbeat).foldl fun _ hv _ _ => hv.sendDetach _ _ _

theorem State.startDrr_of_stopped (cause : Nat)
    (h : s.getF R.pwrState F.pwrStateState = 3 ∨ s.isSet R.thmLevel F.thmLevelStopping = true) : s.startDrr cause = s := if_pos h

/-- The first device recovery reset in 60 s. -/
theorem State.startDrr_of_first (cause : Nat) (hstate : s.getF R.pwrState F.pwrStateState ≠ 3)
    (hstop : s.isSet R.thmLevel F.thmLevelStopping = false) (hfirst : s.flt.drrTimes = []) :
    s.startDrr cause = ((s.abortMailbox E.genBusy).drrMarked [s.timeUs]).drrShown cause := by
  have haborted := (State.SetupKept.refl s).abortMailbox E.genBusy
  have hnone : (s.abortMailbox E.genBusy).flt.drrTimes = [] := haborted.drrTimes.trans hfirst
  have hstart : s.startDrr cause =
      let a := s.abortMailbox E.genBusy
      let recent := a.flt.drrTimes.filter (fun t => decide (a.timeUs ≤ t + 60000000))
      if 3 ≤ recent.length then a.drrLimit else (a.drrMarked (recent ++ [a.timeUs])).drrShown cause :=
    if_neg (by rw [hstop]; simpa using hstate)
  rw [hstart]
  dsimp only
  rw [hnone, haborted.time]
  exact if_neg (by simp)

theorem State.startDrr_spec (cause : Nat) (hstate : s.getF R.pwrState F.pwrStateState ≠ 3)
    (hstop : s.isSet R.thmLevel F.thmLevelStopping = false) (hfirst : s.flt.drrTimes = []) :
    (s.startDrr cause).flt.drrAt = some s.timeUs ∧ (s.startDrr cause).flt.drrTimes = [s.timeUs] := by
  obtain ⟨a, ha⟩ : ∃ a, a = s.abortMailbox E.genBusy := ⟨_, rfl⟩
  have htime : a.timeUs = s.timeUs := by rw [ha]; exact ((State.SetupKept.refl s).abortMailbox E.genBusy).time
  have hmarked (v : State) (l : List Nat) : (v.drrMarked l).flt.drrAt = some v.timeUs ∧ (v.drrMarked l).flt.drrTimes = l := ⟨rfl, rfl⟩
  have hkept := (State.SetupKept.refl (a.drrMarked [s.timeUs])).drrShown cause
  rw [State.startDrr_of_first cause hstate hstop hfirst, ← ha, hkept.drrAt, hkept.drrTimes, (hmarked _ _).1, (hmarked _ _).2, htime]
  exact ⟨rfl, rfl⟩

/-! ### Watchdogs -/

/-- The kicks of all control cores are renewed. -/
def State.kicksRenewed (s : State) : State := { s with flt := { s.flt with kicks := List.replicate 4 s.timeUs } }

theorem State.watchdog_of_late {k : Nat} (hup : s.sys.ccUp = true) (hlate : s.flt.kicks.getD k 0 + 100000 ≤ s.timeUs) :
    s.watchdog k = (s.kicksRenewed.report Src.device E.fltWatchdog Rep.power k).startDrr 2 :=
  if_pos (by rw [hup, decide_eq_true hlate]; rfl)

theorem State.watchdog_of_early {k : Nat} (hearly : s.timeUs < s.flt.kicks.getD k 0 + 100000) : s.watchdog k = s :=
  if_neg (by simp only [Bool.and_eq_true, decide_eq_true_eq]; omega)

end

/-- Settles O58: the sample, the reset, the return and the fence of a core, watchdogs, RESET_N and the warm reset in the cases
of the statement. -/
theorem recoveryLadder : Obligations.RecoveryLadder := by
  intro s c e
  refine ⟨fun n hcopy => ?copied, fun hidle => ⟨?noCopy, ?noCopyTimeout⟩,
    fun n at_ hcopy hfenced => ⟨fun hlate => ?stopped, fun hearly => ?copies⟩,
    fun at_ hreset => ⟨fun hfenced hidle => ?reset, fun hlate => ?hangs, fun hearly => ?resets⟩,
    fun at_ hoff hstate hidle => ⟨fun hdue hdom => ?wakes, fun hearly => ?stillOff⟩,
    fun hstate hdigital hsram => ⟨?returns, ?fails⟩, fun hstate ok => ?notCycled,
    fun at_ hfence => ⟨?fenced, fun hearly => ?fencing, fun hlate => ?fenceHangs⟩, fun hfence => ?noFence,
    fun k => ⟨fun hup hrun => ?kicks, fun hup hlate => ?expires, fun hearly => ?alive⟩,
    fun haon hstop => ?heldDown, fun haon hstate hstop hfirst => ?resetN,
    fun at_ hdrr hboot => ⟨fun hlate => ?warm, fun hearly => ?running⟩⟩
  case copied => exact ⟨_, rfl, State.copyEnd_spec hcopy⟩
  case noCopy => exact congrArg Host.Outcome.next (State.copyEnd_of_idle hidle)
  case noCopyTimeout => exact congrArg Host.Outcome.next (State.copyTimeout_of_idle hidle)
  case stopped => exact ⟨_, rfl, State.copyTimeout_spec hcopy hfenced hlate⟩
  case copies =>
    exact congrArg Host.Outcome.next ((State.copyTimeout_of_copying hcopy hfenced).trans (if_neg (Nat.not_le.2 hearly)))
  case reset => exact ⟨_, rfl, State.resetDone_spec c.isLt hreset hfenced hidle⟩
  case hangs => exact congrArg Host.Outcome.next ((State.resetTimeout_of_reset hreset).trans (if_pos hlate))
  case resets => exact congrArg Host.Outcome.next ((State.resetTimeout_of_reset hreset).trans (if_neg (Nat.not_le.2 hearly)))
  case wakes => exact ⟨_, rfl, State.wakeCore_spec hoff hstate hidle hdue hdom⟩
  case stillOff =>
    exact congrArg Host.Outcome.next ((State.wakeCore_of_off hoff hstate hidle).trans (if_neg (Nat.not_le.2 hearly)))
  case returns => exact ⟨_, rfl, State.returnCore_spec hstate hdigital hsram c.isLt⟩
  case fails => exact congrArg Host.Outcome.next (State.returnCore_of_bad hstate hdigital hsram)
  case notCycled => exact congrArg Host.Outcome.next (State.returnCore_of_other hstate ok)
  case fenced => exact ⟨_, rfl, State.fenceDone_spec hfence c.isLt⟩
  case fencing => exact congrArg Host.Outcome.next ((State.fenceHang_of_fence hfence).trans (if_neg (Nat.not_le.2 hearly)))
  case fenceHangs => exact congrArg Host.Outcome.next ((State.fenceHang_of_fence hfence).trans (if_pos hlate))
  case noFence => exact congrArg Host.Outcome.next (State.fenceDone_of_none hfence)
  case kicks => exact if_pos (by rw [hup]; simpa using hrun)
  case expires => exact congrArg Host.Outcome.next (State.watchdog_of_late hup hlate)
  case alive => exact congrArg Host.Outcome.next (State.watchdog_of_early hearly)
  case heldDown => exact congrArg Host.Outcome.next ((if_pos haon).trans (State.startDrr_of_stopped 4 hstop))
  case resetN => exact ⟨_, congrArg Host.Outcome.next (if_pos haon), State.startDrr_spec 4 hstate hstop hfirst⟩
  case warm =>
    simp only [exec, execWarmReset, hdrr]
    rw [if_pos ⟨hlate, by rw [hboot]; rfl⟩]
  case running =>
    simp only [exec, execWarmReset, hdrr]
    rw [if_neg fun h => absurd h.1 (Nat.not_le.2 hearly)]

end Sys2Proof.Machine
end
